-- ==== Sys2Proof/Word.lean ====
section
/-! DEFINITION. The word types of the machine and their plainest arithmetic (00_scope.md R2, R3). -/

namespace Sys2Proof

/-- One byte of memory. -/
abbrev Byte := BitVec 8
/-- A 64-bit scalar: named scalars, result-queue entries, tokens, system registers (R14). -/
abbrev Word := BitVec 64
/-- The 96-bit internal word of an instruction (R52). -/
abbrev IWord := BitVec 96
/-- One 32-bit vector lane (R177). -/
abbrev Lane := BitVec 32

/-- Bits `hi:lo` of a natural number (R2, R6). -/
def bits (x hi lo : Nat) : Nat := x / 2 ^ lo % 2 ^ (hi + 1 - lo)

/-- Bit `i` of a natural number. -/
def bit (x i : Nat) : Bool := x.testBit i

/-- The integer whose `n`-bit two's complement is the low `n` bits of `v` (R96). -/
def signExtend (v n : Nat) : Int :=
  let u := v % 2 ^ n
  if 2 ^ n ≤ 2 * u then (u : Int) - (2 ^ n : Nat) else (u : Int)

/-- A slice `[w-1:0]` of an unbounded integer (R96). -/
def wrapInt (y : Int) (w : Nat) : Nat := (y % ((2 ^ w : Nat) : Int)).toNat

end Sys2Proof
end

