-- ==== Sys2Proof/Config.lean ====
section
/-! DEFINITION. What an implementation fixes, and the free values: results the spec calls undefined or does not state.
A free value has no body, so no proof can see what it is; each use takes a fresh index (notes/assumptions/8). -/

namespace Sys2Proof.Config

/-- A bit pattern an implementation chooses, by use index and position: which bytes are written, the order of unordered things. -/
opaque freeByte : Nat → Nat → BitVec 8
/-- Which readable byte each bit of an undefined value comes from, by use index and position (R7). -/
opaque freePick : Nat → Nat → Nat
/-- A value an implementation chooses in a stated range, by use index (an instant, an order, a distance). -/
opaque freeNat : Nat → Nat

/-- Where the device-managed area of LPDDR-6 begins, in lines of 128 bytes (R373, R374). -/
opaque retrArea : Nat

/-- The module identity of IDENT (R404): a number from 0 to 1,023 given to each module at manufacture. -/
opaque moduleId : BitVec 10
/-- The revision field of IDENT (R404). -/
opaque revision : BitVec 16

/-- The agent a firmware image is for, and its security version (R437): the spec gives images no layout. -/
opaque imageAgent : List (BitVec 8) → Nat
opaque imageVersion : List (BitVec 8) → Nat
/-- Whether an image's signature verifies under the key of a digest (R437, SLH-DSA-SHA2-128s). -/
opaque imageSigned : List (BitVec 8) → List (BitVec 8) → Bool
/-- Whether the request at an address revokes a slot and is signed under the key of a digest (R437). -/
opaque requestSigned : List (BitVec 8) → Nat → List (BitVec 8) → Bool
/-- SHA-256 (R438). -/
opaque sha256 : List (BitVec 8) → Vector (BitVec 8) 32
/-- The module's serial, as a report holds it (R438). -/
opaque serial : List (BitVec 8)
/-- The SLH-DSA-SHA2-128s signature by the module's identity key, which nothing else reaches, and the certificate of its public key
(R438). -/
opaque identitySign : List (BitVec 8) → Vector (BitVec 8) 7856
opaque certificate : List (BitVec 8)

end Sys2Proof.Config
end

