-- ==== Sys2Proof/Machine/Map.lean ====
section
/-! DEFINITION. Sparse byte memory: pairs of address and byte in one canonical form, addresses strictly rising and no entry
equal to what an unlisted address reads as. An unlisted byte reads 0 (notes/assumptions/2). -/

namespace Sys2Proof.Machine

/-- A sparse memory. -/
abbrev Mem := List (Nat × Byte)

/-- What an unlisted address reads as (notes/assumptions/2: DESIGN CHOICE, the spec gives no contents at power-on). -/
def Mem.blank : Byte := 0

/-- Addresses strictly rise. -/
def Mem.sorted : Mem → Bool
  | [] => true
  | [_] => true
  | a :: b :: rest => a.1 < b.1 && Mem.sorted (b :: rest)

/-- The canonical form. -/
def Mem.wf (m : Mem) : Bool := Mem.sorted m && m.all fun c => c.2 != Mem.blank

/-- One byte. -/
def Mem.read (m : Mem) (a : Nat) : Byte :=
  match m with
  | [] => Mem.blank
  | c :: rest => if c.1 = a then c.2 else Mem.read rest a

/-- `n` bytes from `a` up, lowest first. -/
def Mem.load (m : Mem) (a n : Nat) : List Byte :=
  let win := m.filter fun c => a ≤ c.1 && c.1 < a + n
  (List.range n).map fun i => Mem.read win (a + i)

/-- The entries of consecutive bytes from `a`, none for a blank byte. -/
def Mem.cells (a : Nat) : List Byte → Mem
  | [] => []
  | b :: bs => if b = Mem.blank then Mem.cells (a + 1) bs else (a, b) :: Mem.cells (a + 1) bs

/-- Replace the bytes from `a` up. -/
def Mem.store (m : Mem) (a : Nat) (bs : List Byte) : Mem :=
  m.filter (fun c => c.1 < a) ++ Mem.cells a bs ++ m.filter (fun c => a + bs.length ≤ c.1)

/-- Replace one byte. -/
def Mem.write (m : Mem) (a : Nat) (b : Byte) : Mem := Mem.store m a [b]

/-- Replace the bits of a byte that a mask names (R196). -/
def Mem.writeBits (m : Mem) (a : Nat) (b mask : Byte) : Mem :=
  Mem.write m a ((Mem.read m a &&& ~~~mask) ||| (b &&& mask))

/-- Little-endian integer of some bytes (R3). -/
def bytesNat : List Byte → Nat
  | [] => 0
  | b :: bs => b.toNat + 256 * bytesNat bs

/-- `n` bytes of an integer, little-endian (R3). -/
def natBytes : Nat → Nat → List Byte
  | 0, _ => []
  | n + 1, v => BitVec.ofNat 8 v :: natBytes n (v / 256)

/-- A list of pairs used as a table with a default. -/
def tget {α : Type} (d : α) (t : List (Nat × α)) (k : Nat) : α :=
  match t.find? fun p => p.1 == k with
  | some p => p.2
  | none => d

/-- Set an entry of a table, keys rising. -/
def tset {α : Type} (t : List (Nat × α)) (k : Nat) (v : α) : List (Nat × α) :=
  t.filter (fun p => p.1 < k) ++ (k, v) :: t.filter (fun p => k < p.1)

/-- Remove an entry of a table. -/
def tdel {α : Type} (t : List (Nat × α)) (k : Nat) : List (Nat × α) := t.filter fun p => p.1 != k

end Sys2Proof.Machine
end

