-- ==== Sys2Proof/Syntax.lean ====
section
/-! DEFINITION. The syntax: the operand forms of 02_encoding_and_assembly.md (R52 to R58) and `Instr`, one constructor per
row of the opcode table. Instructions of Kalvel carry their decoded fields `Ins`; the rows that are events or commands of
an agent carry the numbers that say where they act. -/

namespace Sys2Proof

/-- Engine tags (R10). `A` is every stream. -/
inductive Tag where
  | S | L | M | V | W | A
  deriving DecidableEq, Repr

/-- Source operands (R56). -/
inductive Operand where
  | q (n : Fin 16)
  | x (n : Fin 16)
  | v (n : Fin 16)
  | z (n : Fin 16)
  /-- port, destructive read -/
  | p (n : Fin 8)
  /-- port, peek -/
  | pk (n : Fin 8)
  | k (n : Fin 8)
  | b (n : Fin 8)
  | h (n : Fin 16)
  | n (i : Fin 16)
  | g (n : Fin 8)
  | cb (n : Fin 8)
  | tk
  | imm
  | zero
  | e (n : Fin 32)
  | absent
  deriving DecidableEq, Repr

/-- Destination operands (R57). `k 0` is code 0x50, which is not writable. -/
inductive Dest where
  | q
  | absent
  | x (n : Fin 16)
  | v (n : Fin 16)
  | z (n : Fin 16)
  | k (n : Fin 8)
  | b (n : Fin 8)
  | n (i : Fin 16)
  deriving DecidableEq, Repr

/-- Token bits (R31). -/
structure Tok where
  wb : Bool
  wf : Bool
  pb : Bool
  pf : Bool
  deriving DecidableEq, Repr

/-- Stored length of an instruction (R49). -/
inductive Len where
  | b4 | b8 | b12 | b16
  deriving DecidableEq, Repr

/-- Length in bytes (R49). -/
def Len.bytes : Len → Nat
  | .b4 => 4
  | .b8 => 8
  | .b12 => 12
  | .b16 => 16

/-- The decoded fields of an internal word (R52), but for the opcode, with the length it was stored in. -/
structure Ins where
  len  : Len
  tag  : Tag
  tok  : Tok
  pred : BitVec 4
  lat  : BitVec 4
  dst  : Dest
  sa   : Operand
  sb   : Operand
  sc   : Operand
  fmt  : BitVec 6
  mod  : BitVec 2
  imm  : BitVec 32
  deriving DecidableEq, Repr

/-- Fields that no encoding admits in most opcodes: the starting point of tests (an S-tagged word with no operand). -/
def Ins.blank : Ins :=
  { len := .b12, tag := .S, tok := ⟨false, false, false, false⟩, pred := 0, lat := 0, dst := .absent,
    sa := .absent, sb := .absent, sc := .absent, fmt := 0, mod := 0, imm := 0 }

/-- A management entry (R431, R432): the words of the 64-byte ring entry, word 0 first. -/
structure Mgmt where
  w0 : Nat
  w1 : Nat
  w2 : Nat
  w3 : Nat
  w4 : Nat
  w5 : Nat
  w6 : Nat
  w7 : Nat
  deriving DecidableEq, Repr

/-- A management entry whose command programs flash, and whether flash takes what it writes (R431). -/
structure FlashCmd where
  entry : Mgmt
  ok    : Bool
  deriving DecidableEq, Repr

/-- What a debugger names (R283). -/
inductive DebugItem where
  | scalar (stream reg : Nat)
  | lane (reg lane : Nat)
  | vtag (reg : Nat)
  | mask (reg : Nat)
  | nest (reg : Nat)
  | spad (offset : Nat)
  | resume (stream : Nat)
  | entry (index : Nat)
  | ply (index : Nat)
  /-- bytes of the state in the layout of the save area (R281) -/
  | area (offset len : Nat)
  deriving DecidableEq, Repr

/-- The ECC error that an operation of a slice meets in the word at its address (R331): none, or one in the cache's or in LPDDR-6's
storage. -/
inductive EccEvent where
  | clean
  | corrected (memory : Bool)
  | uncorrectable (memory : Bool)
  deriving DecidableEq, Repr

/-- An operation of a slice for an agent outside the cores: a read of the line, or a write of bytes; and the ECC error it meets. -/
structure LlcAccess where
  write : Option (List Byte)
  found : EccEvent
  deriving DecidableEq, Repr

/-- What happens to a device link (R433). -/
inductive LinkChange where
  | train (peer : Nat)
  | up (peer : Nat)
  | retry
  | down
  | fail
  /-- elements that arrive from the peer's next SEND (R436) -/
  | receive (nfmt : Nat) (elems : List Nat)
  /-- the target module has accepted entries of a proxy queue (R322) -/
  | accepted (part desc count : Nat)
  /-- another module of a fabric gang has reserved its parts, has chosen the start time, or has failed with a reason (R413) -/
  | gangReady (ident module : Nat)
  | gangStart (ident time : Nat)
  | gangFail (ident reason : Nat)
  deriving DecidableEq, Repr

/-- One constructor per row of the opcode table. -/
inductive Instr where
  /-- NOP (R128). -/
  | nop (w : Ins)
  /-- ADD (R113). -/
  | add (w : Ins)
  /-- SUB (R113). -/
  | sub (w : Ins)
  /-- AND (R113). -/
  | and (w : Ins)
  /-- OR (R113). -/
  | or (w : Ins)
  /-- XOR (R113). -/
  | xor (w : Ins)
  /-- ANDN (R113). -/
  | andn (w : Ins)
  /-- SHL (R113). -/
  | shl (w : Ins)
  /-- SHRL (R113). -/
  | shrl (w : Ins)
  /-- SHRA (R113). -/
  | shra (w : Ins)
  /-- MIN (R113). -/
  | min (w : Ins)
  /-- MAX (R113). -/
  | max (w : Ins)
  /-- MINN (R113). -/
  | minn (w : Ins)
  /-- MAXN (R113). -/
  | maxn (w : Ins)
  /-- SEL (R113). -/
  | sel (w : Ins)
  /-- MOV (R113). -/
  | mov (w : Ins)
  /-- MUL (R113). -/
  | mul (w : Ins)
  /-- MULH (R113). -/
  | mulh (w : Ins)
  /-- MULHN (R113). -/
  | mulhn (w : Ins)
  /-- DIV (R114). -/
  | div (w : Ins)
  /-- DIVN (R114). -/
  | divn (w : Ins)
  /-- REM (R114). -/
  | rem (w : Ins)
  /-- REMN (R114). -/
  | remn (w : Ins)
  /-- CLZ (R113). -/
  | clz (w : Ins)
  /-- CTZ (R113). -/
  | ctz (w : Ins)
  /-- POPC (R113). -/
  | popc (w : Ins)
  /-- SEXT (R113). -/
  | sext (w : Ins)
  /-- CMPEQ (R115). -/
  | cmpeq (w : Ins)
  /-- CMPNE (R115). -/
  | cmpne (w : Ins)
  /-- CMPLT (R115). -/
  | cmplt (w : Ins)
  /-- CMPLE (R115). -/
  | cmple (w : Ins)
  /-- CMPLTN (R115). -/
  | cmpltn (w : Ins)
  /-- CMPLEN (R115). -/
  | cmplen (w : Ins)
  /-- ADDI (R116). -/
  | addi (w : Ins)
  /-- ANDI (R116). -/
  | andi (w : Ins)
  /-- ORI (R116). -/
  | ori (w : Ins)
  /-- XORI (R116). -/
  | xori (w : Ins)
  /-- SHLI (R116). -/
  | shli (w : Ins)
  /-- SHRLI (R116). -/
  | shrli (w : Ins)
  /-- SHRAI (R116). -/
  | shrai (w : Ins)
  /-- MOVI (R116). -/
  | movi (w : Ins)
  /-- MOVHI (R116). -/
  | movhi (w : Ins)
  /-- CMPEQI (R116). -/
  | cmpeqi (w : Ins)
  /-- CMPLTI (R116). -/
  | cmplti (w : Ins)
  /-- CMPLTNI (R116). -/
  | cmpltni (w : Ins)
  /-- MULI (R116). -/
  | muli (w : Ins)
  /-- LEA (R116). -/
  | lea (w : Ins)
  /-- PCADD (R116). -/
  | pcadd (w : Ins)
  /-- LD8 (R118). -/
  | ld8 (w : Ins)
  /-- LD8S (R118). -/
  | ld8s (w : Ins)
  /-- LD16 (R118). -/
  | ld16 (w : Ins)
  /-- LD16S (R118). -/
  | ld16s (w : Ins)
  /-- LD32 (R118). -/
  | ld32 (w : Ins)
  /-- LD32S (R118). -/
  | ld32s (w : Ins)
  /-- LD64 (R118). -/
  | ld64 (w : Ins)
  /-- ST8 (R118). -/
  | st8 (w : Ins)
  /-- ST16 (R118). -/
  | st16 (w : Ins)
  /-- ST32 (R118). -/
  | st32 (w : Ins)
  /-- ST64 (R118). -/
  | st64 (w : Ins)
  /-- LDLK (R121). -/
  | ldlk (w : Ins)
  /-- STUL (R121). -/
  | stul (w : Ins)
  /-- LDBLK (R122). -/
  | ldblk (w : Ins)
  /-- AMOADD (R123). -/
  | amoadd (w : Ins)
  /-- AMOAND (R123). -/
  | amoand (w : Ins)
  /-- AMOOR (R123). -/
  | amoor (w : Ins)
  /-- AMOXOR (R123). -/
  | amoxor (w : Ins)
  /-- AMOMIN (R123). -/
  | amomin (w : Ins)
  /-- AMOMAX (R123). -/
  | amomax (w : Ins)
  /-- AMOSWP (R123). -/
  | amoswp (w : Ins)
  /-- AMOCAS (R123). -/
  | amocas (w : Ins)
  /-- BR (R124). -/
  | br (w : Ins)
  /-- BT (R124). -/
  | bt (w : Ins)
  /-- BF (R124). -/
  | bf (w : Ins)
  /-- JR (R124). -/
  | jr (w : Ins)
  /-- LOOP (R125). -/
  | loop (w : Ins)
  /-- DONE (R126). -/
  | done (w : Ins)
  /-- MODEX (R127). -/
  | modex (w : Ins)
  /-- MODEI (R127). -/
  | modei (w : Ins)
  /-- TRAP (R143). -/
  | trap (w : Ins)
  /-- ERET (R142). -/
  | eret (w : Ins)
  /-- BRK (R143). -/
  | brk (w : Ins)
  /-- MFSR (R144). -/
  | mfsr (w : Ins)
  /-- MTSR (R144). -/
  | mtsr (w : Ins)
  /-- POST (R129). -/
  | post (w : Ins)
  /-- AWAIT (R129). -/
  | await (w : Ins)
  /-- AWAITP (R129). -/
  | awaitp (w : Ins)
  /-- TKSEND (R130). -/
  | tksend (w : Ins)
  /-- BIND (R132). -/
  | bind (w : Ins)
  /-- ACQ_X (R133). -/
  | acqX (w : Ins)
  /-- ACQ_S (R133). -/
  | acqS (w : Ins)
  /-- REL (R134). -/
  | rel (w : Ins)
  /-- FENCE (R135). -/
  | fence (w : Ins)
  /-- PUBLISH (R136). -/
  | publish (w : Ins)
  /-- ICFLUSH (R137). -/
  | icflush (w : Ins)
  /-- CBSYNC (R138). -/
  | cbsync (w : Ins)
  /-- XSCHED (R139). -/
  | xsched (w : Ins)
  /-- XSTAGE (R139). -/
  | xstage (w : Ins)
  /-- RINGSET (R139). -/
  | ringset (w : Ins)
  /-- AWFILL (R139). -/
  | awfill (w : Ins)
  /-- RLSLOT (R139). -/
  | rlslot (w : Ins)
  /-- XSTAT (R140). -/
  | xstat (w : Ins)
  /-- VADD (R185). -/
  | vadd (w : Ins)
  /-- VSUB (R185). -/
  | vsub (w : Ins)
  /-- VMUL (R185). -/
  | vmul (w : Ins)
  /-- VFMA (R185). -/
  | vfma (w : Ins)
  /-- VFMS (R185). -/
  | vfms (w : Ins)
  /-- VMIN (R187). -/
  | vmin (w : Ins)
  /-- VMAX (R187). -/
  | vmax (w : Ins)
  /-- VABS (R187). -/
  | vabs (w : Ins)
  /-- VNEG (R187). -/
  | vneg (w : Ins)
  /-- VADDS (R184). -/
  | vadds (w : Ins)
  /-- VSUBS (R184). -/
  | vsubs (w : Ins)
  /-- VMULH (R184). -/
  | vmulh (w : Ins)
  /-- VDIV (R185). -/
  | vdiv (w : Ins)
  /-- VSQRT (R185). -/
  | vsqrt (w : Ins)
  /-- VRCP (R185). -/
  | vrcp (w : Ins)
  /-- VRSQ (R185). -/
  | vrsq (w : Ins)
  /-- VEXP2 (R185). -/
  | vexp2 (w : Ins)
  /-- VLOG2 (R185). -/
  | vlog2 (w : Ins)
  /-- VAND (R184). -/
  | vand (w : Ins)
  /-- VOR (R184). -/
  | vor (w : Ins)
  /-- VXOR (R184). -/
  | vxor (w : Ins)
  /-- VSHL (R184). -/
  | vshl (w : Ins)
  /-- VSHRL (R184). -/
  | vshrl (w : Ins)
  /-- VSHRA (R184). -/
  | vshra (w : Ins)
  /-- VSEL (R190). -/
  | vsel (w : Ins)
  /-- VCMPEQ (R188). -/
  | vcmpeq (w : Ins)
  /-- VCMPNE (R188). -/
  | vcmpne (w : Ins)
  /-- VCMPLT (R188). -/
  | vcmplt (w : Ins)
  /-- VCMPLE (R188). -/
  | vcmple (w : Ins)
  /-- VCLASS (R189). -/
  | vclass (w : Ins)
  /-- VCVT (R194). -/
  | vcvt (w : Ins)
  /-- VMOV (R190). -/
  | vmov (w : Ins)
  /-- VBCAST (R190). -/
  | vbcast (w : Ins)
  /-- VEXTR (R190). -/
  | vextr (w : Ins)
  /-- VINS (R190). -/
  | vins (w : Ins)
  /-- VCOMP (R191). -/
  | vcomp (w : Ins)
  /-- VEXPD (R191). -/
  | vexpd (w : Ins)
  /-- VPERM (R191). -/
  | vperm (w : Ins)
  /-- VIOTA (R191). -/
  | viota (w : Ins)
  /-- VREDADD (R193). -/
  | vredadd (w : Ins)
  /-- VREDMAX (R193). -/
  | vredmax (w : Ins)
  /-- VREDMIN (R193). -/
  | vredmin (w : Ins)
  /-- KAND (R192). -/
  | kand (w : Ins)
  /-- KOR (R192). -/
  | kor (w : Ins)
  /-- KXOR (R192). -/
  | kxor (w : Ins)
  /-- KNOT (R192). -/
  | knot (w : Ins)
  /-- KMOV (R192). -/
  | kmov (w : Ins)
  /-- KPOP (R192). -/
  | kpop (w : Ins)
  /-- VLD (R196). -/
  | vld (w : Ins)
  /-- VST (R196). -/
  | vst (w : Ins)
  /-- VLDS (R197). -/
  | vlds (w : Ins)
  /-- VSTS (R197). -/
  | vsts (w : Ins)
  /-- VGATH (R198). -/
  | vgath (w : Ins)
  /-- VSCAT (R198). -/
  | vscat (w : Ins)
  /-- VSCATADD (R198). -/
  | vscatadd (w : Ins)
  /-- VSPILL (R200). -/
  | vspill (w : Ins)
  /-- VFILL (R200). -/
  | vfill (w : Ins)
  /-- VLDP (R202). -/
  | vldp (w : Ins)
  /-- VSTP (R202). -/
  | vstp (w : Ins)
  /-- PSET (R203). -/
  | pset (w : Ins)
  /-- NLD (R204). -/
  | nld (w : Ins)
  /-- NST (R204). -/
  | nst (w : Ins)
  /-- TMMA (R221). -/
  | tmma (w : Ins)
  /-- TFMUL (R222). -/
  | tfmul (w : Ins)
  /-- TFADD (R223). -/
  | tfadd (w : Ins)
  /-- TPMUL (R224). -/
  | tpmul (w : Ins)
  /-- TADD (R225). -/
  | tadd (w : Ins)
  /-- TRECMP (R231). -/
  | trecmp (w : Ins)
  /-- TFACT (R231). -/
  | tfact (w : Ins)
  /-- TZERO (R226). -/
  | tzero (w : Ins)
  /-- TMOV (R225). -/
  | tmov (w : Ins)
  /-- TLD (R228). -/
  | tld (w : Ins)
  /-- TST (R229). -/
  | tst (w : Ins)
  /-- TRDROW (R230). -/
  | trdrow (w : Ins)
  /-- TWRROW (R230). -/
  | twrrow (w : Ins)
  /-- TDENSE (R225). -/
  | tdense (w : Ins)
  /-- TRANK (R227). -/
  | trank (w : Ins)
  /-- TLIMIT (R226). -/
  | tlimit (w : Ins)
  /-- TPRED (R220). -/
  | tpred (w : Ins)
  /-- TFREE (R226). -/
  | tfree (w : Ins)
  /-- SPAWN (R316). -/
  | spawn (w : Ins)
  /-- SPAWNJ (R316). -/
  | spawnj (w : Ins)
  /-- SIGJ (R316). -/
  | sigj (w : Ins)
  /-- ENQ (R316). -/
  | enq (w : Ins)
  /-- JSTAT (R317). -/
  | jstat (w : Ins)
  /-- YIELD (R316). -/
  | yield (w : Ins)
  /-- RGNNEW (R318). -/
  | rgnnew (w : Ins)
  /-- RGNSET (R319). -/
  | rgnset (w : Ins)
  /-- RGNGET (R319). -/
  | rgnget (w : Ins)
  /-- RGNKILL (R320). -/
  | rgnkill (w : Ins)
  /-- PXPUSH (R322). -/
  | pxpush (w : Ins)
  /-- PXFLUSH (R322). -/
  | pxflush (w : Ins)
  /-- SRCH (R394). -/
  | srch (w : Ins)
  /-- INS (R394). -/
  | ins (w : Ins)
  /-- DEL (R394). -/
  | del (w : Ins)
  /-- KVF (R389). -/
  | kvf (w : Ins)
  /-- DARN (R394). -/
  | darn (w : Ins)
  /-- RPOP (R395). -/
  | rpop (w : Ins)
  /-- RSTAT (R395). -/
  | rstat (w : Ins)
  /-- GENQ (R395). -/
  | genq (w : Ins)
  /-- RESULT_LAND (R19). -/
  | resultLand (core : Nat)
  /-- MODE_BARRIER_PASS (R24). -/
  | modeBarrierPass (core : Nat)
  /-- TASK_COMPLETE (R126). -/
  | taskComplete (core : Nat)
  /-- ERET_RETURN (R142). -/
  | eretReturn (core : Nat)
  /-- ICACHE_FILL (R64). -/
  | icacheFill (core line : Nat)
  /-- TIMER_FIRE (R146). -/
  | timerFire (core : Nat)
  /-- TRAP_ENTRY (R141). -/
  | trapEntry (core : Nat)
  /-- GUARD_GRANT (R133). -/
  | guardGrant (guard : Nat)
  /-- LOCK_RETRY (R167). -/
  | lockRetry (core stream : Nat)
  /-- BLOCK_CACHE_FILL (R169). -/
  | blockCacheFill (core line : Nat)
  /-- GENERATOR_READ (R164). -/
  | generatorRead (core port : Nat)
  /-- MATRIX_STEP (R210). -/
  | matrixStep (core : Nat)
  /-- PAGE_WALK (R338). -/
  | pageWalk (core addr : Nat)
  /-- RECORD_START (R241). -/
  | recordStart (core : Nat)
  /-- SEQUENCER_UNIT (R260). -/
  | sequencerUnit (core : Nat)
  /-- RECORD_COMPLETE (R246). -/
  | recordComplete (core : Nat)
  /-- PREEMPT (R313). -/
  | preempt (core : Nat)
  /-- CONTEXT_SAVE (R280). -/
  | contextSave (core : Nat)
  /-- CONTEXT_RESTORE (R282). -/
  | contextRestore (core : Nat)
  /-- ARM (R283). -/
  | arm (core slot cycle triggers : Nat)
  /-- DISARM (R283). -/
  | disarm (core slot : Nat)
  /-- HALT (R283). -/
  | halt (core slot : Nat)
  /-- READ (R283). -/
  | dbgRead (core slot : Nat) (item : DebugItem)
  /-- WRITE (R283). -/
  | dbgWrite (core slot : Nat) (item : DebugItem) (value : List Nat)
  /-- RESUME (R283). -/
  | resume (core slot : Nat)
  /-- STEP (R283). -/
  | dbgStep (core slot count : Nat)
  /-- CLRPROF (R283). -/
  | clrprof (core slot : Nat)
  /-- DEBUG_STOP (R284). -/
  | debugStop (core : Nat)
  /-- PATCH (R288). -/
  | patch (part addr : Nat) (bytes : List Byte)
  /-- PLACEMENT (R309). -/
  | placement (core : Nat)
  /-- RECORD_MOVE (R307). -/
  | recordMove (cluster : Nat)
  /-- BALANCE_EPOCH (R312). -/
  | balanceEpoch (cluster : Nat)
  /-- PROXY_FORWARD (R322). -/
  | proxyForward (part desc : Nat)
  /-- PROXY_ACCEPT (R322). -/
  | proxyAccept (cluster : Nat) (entries : List (Nat × Nat))
  /-- PROXY_LOSS (R433). -/
  | proxyLoss (part desc : Nat)
  /-- LLC_OPERATION (R329). -/
  | llcOperation (addr : Nat) (access : LlcAccess)
  /-- CTRL (R330). -/
  | ctrl (slice value : Nat)
  /-- TLBINV (R342). -/
  | tlbinv (value : Nat)
  /-- TLBINVST (R342). -/
  | tlbinvst (value : Nat)
  /-- TLB_INVALIDATION (R342). -/
  | tlbInvalidation
  /-- RESERVE (R354). -/
  | reserve (gang cluster : Nat)
  /-- COMMIT (R354). -/
  | commit (gang cluster time : Nat)
  /-- ROLLBACK (R354). -/
  | rollback (gang cluster : Nat)
  /-- GANG_START (R354). -/
  | gangStart (gang cluster : Nat)
  /-- GANG_TIMEOUT (R355). -/
  | gangTimeout (gang : Nat)
  /-- COMMAND_ACCEPT (R393). -/
  | commandAccept
  /-- FLASH_READ (R384). -/
  | flashRead (controller : Nat) (ok : Bool)
  /-- TRAVERSAL_STEP (R385). -/
  | traversalStep (controller : Nat)
  /-- BATCH_RELEASE (R378). -/
  | batchRelease (controller : Nat)
  /-- APPEND_COMMIT (R380). -/
  | appendCommit (handle : Nat)
  /-- DARNING_PASS (R383). -/
  | darningPass (handle : Nat)
  /-- DARN_SWITCH (R383). -/
  | darnSwitch (handle : Nat)
  /-- VERSION_RECLAIM (R383). -/
  | versionReclaim (handle : Nat)
  /-- KVF_FETCH (R389): of the fetches that are due, the one in this place of the order sent. -/
  | kvfFetch (controller place : Nat)
  /-- COMPLETION_WRITE (R390). -/
  | completionWrite (controller : Nat)
  /-- REGISTER_WRITE (R404). -/
  | registerWrite (offset value : Nat)
  /-- MGMTDB (R432). -/
  | mgmtdb (value : Nat)
  /-- REBOOT (R421). -/
  | reboot (value : Nat)
  /-- PRESET (R423). -/
  | preset (value : Nat)
  /-- MODRESET (R421). -/
  | modreset (value : Nat)
  /-- DOORBELL (R409). -/
  | doorbell (queue value : Nat)
  /-- HOST_ACCESS (R405). -/
  | hostAccess (addr size : Nat) (data : Option Nat)
  /-- NOP_PACKET (R411). -/
  | nopPacket (queue : Nat)
  /-- LAUNCH (R413). -/
  | launch (queue : Nat)
  /-- IB (R414). -/
  | ib (queue : Nat)
  /-- PRED (R414). -/
  | pktPred (queue : Nat)
  /-- LOOP_PACKET (R414). -/
  | loopPacket (queue : Nat)
  /-- WAITMEM (R412). -/
  | waitmem (queue : Nat)
  /-- WAITMEM_POLL (R412). -/
  | waitmemPoll (queue : Nat)
  /-- WRITEMEM (R411). -/
  | writemem (queue : Nat)
  /-- SIGNAL (R411). -/
  | signal (queue : Nat)
  /-- TIMESTAMP (R412). -/
  | timestamp (queue : Nat)
  /-- FETCHFENCE (R415). -/
  | fetchfence (queue : Nat)
  /-- WINDOW_FETCH (R415). -/
  | windowFetch (queue : Nat)
  /-- HEARTBEAT (R418). -/
  | heartbeat
  /-- MITTEN_TAKEOVER (R420). -/
  | mittenTakeover
  /-- MITTENBEAT (R420). -/
  | mittenbeat
  /-- CROWN_RETURN (R419). -/
  | crownReturn
  /-- GAUNTLET_EXPIRY (R422). -/
  | gauntletExpiry (queue : Nat)
  /-- RESET_TIMEOUT (R429). -/
  | resetTimeout (part : Nat)
  /-- PARTITION_DRAINED (R424). -/
  | partitionDrained (part : Nat)
  /-- FUNCTION_LEVEL_RESET (R421). -/
  | functionLevelReset
  /-- PERST (R421). -/
  | perst
  /-- POWER_GOOD (R439). -/
  | powerGood
  /-- THROTTLE (R439). -/
  | throttle (celsius : Int)
  /-- MIRROR_UPDATE (R427). -/
  | mirrorUpdate
  /-- PARTSET (R431). -/
  | partset (p : Mgmt)
  /-- PARTCMD_DRAIN (R424). -/
  | partcmdDrain (p : Mgmt)
  /-- PARTCMD_RESUME (R424). -/
  | partcmdResume (p : Mgmt)
  /-- PARTCMD_RESET (R423). -/
  | partcmdReset (p : Mgmt)
  /-- PARTCMD_RELEASE (R431). -/
  | partcmdRelease (p : Mgmt)
  /-- RGNROOT (R431). -/
  | rgnroot (p : Mgmt)
  /-- QCREATE (R409). -/
  | qcreate (p : Mgmt)
  /-- QDESTROY (R431). -/
  | qdestroy (p : Mgmt)
  /-- QSTART (R443). -/
  | qstart (p : Mgmt)
  /-- QABORT (R431). -/
  | qabort (p : Mgmt)
  /-- WINSET (R407). -/
  | winset (p : Mgmt)
  /-- WINCLR (R406). -/
  | winclr (p : Mgmt)
  /-- IDXCREATE (R365). -/
  | idxcreate (p : Mgmt)
  /-- IDXRESIZE (R431). -/
  | idxresize (p : Mgmt)
  /-- IDXDESTROY (R431). -/
  | idxdestroy (p : Mgmt)
  /-- OBJWRITE (R386). -/
  | objwrite (p : FlashCmd)
  /-- OBJDROP (R386). -/
  | objdrop (p : Mgmt)
  /-- IDXCLEAR (R431). -/
  | idxclear (p : Mgmt)
  /-- ATTEST (R438). -/
  | attest (p : Mgmt)
  /-- FWLOAD (R437). -/
  | fwload (p : FlashCmd)
  /-- KEYREVOKE (R437). -/
  | keyrevoke (p : Mgmt)
  /-- LSGO (R435). -/
  | lsgo (part value : Nat)
  /-- LSGO_LOAD (R435). -/
  | lsgoLoad
  /-- RUN_ENTRY (R436). -/
  | runEntry (link : Nat)
  /-- LINK_EVENT (R433). -/
  | linkEvent (link : Nat) (event : LinkChange)
  /-- POWER_LOSS (R380). -/
  | powerLoss
  /-- COOLANT_FLOW_FAILS (R439). -/
  | coolantFlowFails
  /-- HW_ERROR (R425). -/
  | hwError (scope ident : Nat)
  deriving DecidableEq, Repr

end Sys2Proof
end

