-- ==== Sys2Proof/Machine/CoreState.lean ====
section
/-! DEFINITION. The state of one core: its two task contexts with their five streams, and what the contexts share
(01 R14, 05 R149, 06 R177, 07 R211, 08 R236, 09 R266 to R287). Plain data throughout. -/

namespace Sys2Proof.Machine

/-- Where a 64-bit result goes (R57, R274 REG); masks have an effect of their own. A result-queue entry is named by its allocation number (R15). -/
inductive Target where
  | x (stream n : Nat)
  | q (stream alloc : Nat)
  | b (n : Nat)
  | sys (n : Nat)
  deriving DecidableEq, Repr

/-- One byte of a store: its virtual address or scratchpad offset as issued, its physical place, its value and the bits of
it that are written (R196). -/
structure StoreCell where
  va   : Nat
  pa   : Nat
  val  : Byte
  mask : Byte
  deriving DecidableEq, Repr

/-- What a tile write leaves (R211 to R213). -/
inductive TileUpd where
  /-- representation (0 ZERO, 1 DENSE, 2 PAIR), rank, plies, the sticky bits it sets in FACTCTL (R215) and the plies reserved -/
  | write (rep rank : Nat) (plies : List (BitVec 36)) (rcap rinv : Bool) (need : Nat)
  | limit (n : Nat)
  | free
  deriving DecidableEq, Repr

/-- What happens at the landing of an instruction whose effect is more than a value (R274 COMMAND). `waits` of the model's
landing rule: an acquire, a lock, a pop, a proxy flush or an engine acceptance may not yet be possible. -/
inductive Command where
  /-- a request at a guard's home slice, by virtual and physical address -/
  | acquire (va pa : Nat) (excl : Bool) (dst : Option Target)
  /-- the request has been granted and landed at its bound -/
  | acquired (va pa : Nat) (excl : Bool) (dst : Option Target) (version : Nat)
  | release (pa : Nat)
  | lock (off : Nat) (dst : Target)
  | unlock (off : Nat)
  | pop (ring : Nat) (dst : Target)
  /-- a flush of the proxy queue whose descriptor stands at a physical address, up to a HEAD value -/
  | proxyFlush (pa head : Nat)
  /-- a push that waits for room: descriptor, its physical place, shadow ring, slots and the entry (R322) -/
  | proxyPush (desc pa shadow slots entry : Nat)
  | rgnNew (rcb parent : Nat) (dst : Option Target)
  | rgnKill (rgn : Nat)
  /-- a kill that has reached its tasks and lands when every one of these regions' has stopped (R320) -/
  | killing (rgn : Nat) (subs : List Nat)
  | rgnSet (rgn off value : Nat)
  /-- a retrieval command that has not been accepted (R393) -/
  | retrieval (uid : Nat) (dst : Option Target)
  | bindPort (port gen : Nat) (record : BitVec 512)
  | rowpred (v : Word)
  | clearBitmap (n : Nat) (keep : Word)
  | xsched (idx : Nat) (recs : List (BitVec 512))
  | xstage (n : Nat)
  | ringset (ring slots : Nat)
  | icflush (lo len scope : Nat)
  | deviceLoad (pa size : Nat) (signed : Bool) (dst : Target)
  | deviceStore (pa size value : Nat)
  deriving DecidableEq, Repr

/-- One effect of an issued instruction (R274). -/
inductive Effect where
  | reg (t : Target) (v : Word)
  /-- the bits of a mask register that `mask` names (R188, R192) -/
  | kreg (n : Nat) (v mask : Word)
  /-- the lanes that `mask` names; the others keep their bits (R181) -/
  | vec (n : Nat) (lanes : Vector Lane 64) (mask : Word)
  | tile (n : Nat) (u : TileUpd)
  | nest (n : Nat) (v : BitVec 512)
  | store (spad : Bool) (cells : List StoreCell)
  | token (queue id : Nat) (v : Word)
  | post (counter count : Nat)
  | command (c : Command)
  | mark
  deriving DecidableEq, Repr

/-- A loop-stack entry (R125). -/
structure LoopEntry where
  trips : Nat
  stop  : Nat
  start : Nat
  deriving DecidableEq, Repr

/-- Where a stream stands: walking, stopped at a mode barrier (the mode it names, its length), at DONE or at ERET (R24, R126,
R142). -/
inductive StreamStatus where
  | run
  | barrier (exposed : Bool) (len : Nat)
  | done
  | eret
  deriving DecidableEq, Repr

/-- The issue work that a re-executed instruction finds done (R43, R271). -/
structure Redo where
  awd : Bool
  pfr : Option Nat
  pbr : Option Nat
  wfd : Option Word
  wbd : Option Word
  deriving DecidableEq, Repr

/-- Per-stream state (R14). `xAlt` is the bank of x12 to x15 of the other mode (R141). `q` holds the newest entry first;
`qCount` counts allocations (R15). -/
structure Stream where
  pc      : Nat
  pos     : Nat
  x       : Vector Word 16
  xAlt    : Vector Word 4
  q       : Vector Word 16
  qCount  : Nat
  loops   : List LoopEntry
  brCount : Nat
  status  : StreamStatus
  redo    : Option Redo
  /-- passes a BRK that caused a debug stop as a NOP (R285) -/
  passBrk : Bool
  /-- number of its latest issue, among the issues of the context (R449; the model's own) -/
  last    : Nat
  deriving DecidableEq, Repr

/-- An issued instruction's effect that has not landed (R19, R41, R268). `seq` orders issues; effects of one instruction share
it. `bound` is the bound of R18; `a`, `b`, `c` are the operands a COMMAND entry shows (R274). -/
structure Flight where
  seq    : Nat
  stream : Nat
  issued : Nat
  land   : Nat
  bound  : Nat
  pc     : Nat
  word   : IWord
  tag    : BitVec 6
  eff    : Effect
  a      : Word
  b      : Word
  c      : Word
  /-- when its result is ready, in core cycles of the context; none while its array step has not started (R210) -/
  ready  : Option Nat
  /-- performed at die scope before its landing, where a release, fence or publication asked for it (R135, R346) -/
  done   : Bool
  /-- for an operation whose wait has no bound: the stream as it stood before it, with its issue work (R449) -/
  back   : Option Stream
  deriving DecidableEq, Repr

/-- An entry of a token queue: its identity, and its payload once its push has landed (R34). -/
structure Token where
  id : Nat
  v  : Option Word
  deriving DecidableEq, Repr

/-- A recorded outcome of a branch instance: its number, direction and target (R29, R30). -/
structure Outcome where
  inst   : Nat
  taken  : Bool
  target : Nat
  deriving DecidableEq, Repr

/-- Vector register (R177). -/
structure VReg where
  lanes : Vector Lane 64
  tag   : BitVec 6
  deriving DecidableEq, Repr

/-- Tile register (R211, R212): plies hold HELD times 64 values. -/
structure Tile where
  rep   : Nat
  rank  : Nat
  limit : Nat
  tag   : BitVec 6
  held  : Nat
  plies : List (BitVec 36)
  deriving DecidableEq, Repr

/-- State of a port's walk (R160 to R165, R281). -/
inductive PortState where
  | unbound
  | read
  | write
  | ended
  | stopped (cause addr aux : Nat)
  deriving DecidableEq, Repr

/-- An entry a generator has read ahead: a vector of lanes, or an operand tile as rows of stored elements (R161, R165). -/
inductive PortEntry where
  | lanes (v : Vector Lane 64)
  | tile (rows : List Nat)
  deriving DecidableEq, Repr

/-- A port with the generator that feeds it (R160). `next` is the walk index of the next element the generator takes,
`taken` counts the entries delivered. -/
structure Port where
  state : PortState
  gen   : Nat
  record : BitVec 512
  next  : Nat
  ahead : List PortEntry
  deriving DecidableEq, Repr

/-- Record slot states, numbered as the save area numbers them (R236, R281). -/
inductive SlotState where
  | empty | loaded | released | running | faulted | complete
  deriving DecidableEq, Repr

/-- A schedule slot: its record, its state, the order of its release, whether it was checked at its release (R240), and why
it stands FAULTED. -/
structure SeqSlot where
  record  : BitVec 512
  state   : SlotState
  order   : Nat
  checked : Bool
  invalid : Bool
  deriving DecidableEq, Repr

/-- A ring (R244). -/
structure Ring where
  slots  : Nat
  rp     : Nat
  wp     : Nat
  filled : Nat
  deriving DecidableEq, Repr

/-- The sequencer of a context (R236, R264): `unit` is the next unit of the record in progress, `captured` its block-table
entries (R256), `entry` the entry read for its outer step (R254), `held` its writes to bytes that are its own source (R259: true
for the scratchpad), `startCycle` the earliest cycle of the next start (R241), `raised` the index of a record that a release
found to break its rules and the cycle in which its fault is raised (R240). -/
structure Sequencer where
  slots      : Vector SeqSlot 64
  stage      : Nat
  unit       : Nat
  captured   : List (Nat × Nat)
  entry      : Option (Nat × Nat)
  held       : List (Bool × StoreCell)
  startCycle : Nat
  raised     : Option (Nat × Nat)
  deriving DecidableEq, Repr

/-- A held guard (R133): the address it was acquired by, and its place. -/
structure Held where
  addr : Nat
  pa   : Nat
  excl : Bool
  deriving DecidableEq, Repr

/-- The sequencer part of a fault (R261, R272). -/
structure SeqPart where
  index : Nat
  cond  : Nat
  row   : Nat
  col   : Nat
  e     : Nat
  i0    : Nat
  i1    : Nat
  i2    : Nat
  i3    : Nat
  n     : Nat
  deriving DecidableEq, Repr

/-- A fault found and not yet taken (R41, R276): `origin` orders the report (0 to 4 the streams, 5 the sequencer, 6 TIMER);
`redo` is the issue work done, none for a fault that leaves RX 0 (R271). -/
structure Fault1 where
  cause     : Nat
  origin    : Nat
  pc        : Nat
  word      : IWord
  aux       : Nat
  addr      : Option Nat
  straddle  : Bool
  imprecise : Bool
  redo      : Option Redo
  cbsel     : Option Nat
  seqPart   : Option SeqPart
  deriving DecidableEq, Repr

/-- The task's values that handler mode keeps on the core (R141, R273). -/
structure SavedTask where
  streams  : Vector Stream 5
  outcomes : List Outcome
  tokens   : Vector (List Token) 6
  events   : Vector (BitVec 16) 32
  slip     : Nat
  exposed  : Bool
  flights  : List Flight
  stop     : Nat
  cause    : Nat
  fault    : Fault1
  deriving DecidableEq, Repr

/-- What identifies a placed task (R298, R309, R315): its record's virtual and physical address, partition, region index,
frame pointer, successor, priority class at placement, the time placed, the LAUNCH that handed it over, and whether
it is doomed, killed or asked to stop for pre-emption. -/
structure Task where
  record    : Nat
  part      : Nat
  region    : Nat
  frame     : Nat
  code      : Nat
  succ      : Nat
  prio      : Nat
  placed    : Nat
  launch    : Option Nat
  spad      : Nat
  plies     : Nat
  killed    : Bool
  preempt   : Bool
  /-- stops by its own YIELD (R316): its record goes after the head of the list -/
  yields    : Bool
  /-- the region's PREEMPT margin and save area as placement found them (R304, R313); save area 0: not pre-emptible -/
  margin    : Nat
  saveBase  : Nat
  /-- the profile settings read at placement: ring base, slots, depth, flags (R287, R304) -/
  profBase  : Nat
  profSlots : Nat
  profDepth : Nat
  profFlags : Nat
  /-- the effective DOMAIN as the placement found it (R303, R305) -/
  domain    : Nat
  /-- slot of the frame and save areas (R304, R309) -/
  slot      : Nat
  /-- contexts requested (R309) -/
  ctxs      : Nat
  pin       : Bool
  /-- reserved for a gang and not started (13 R354) -/
  gated     : Bool
  deriving DecidableEq, Repr

/-- Debug triggers and stop (R283 to R285): the armed cycle, the cycle at which a STEP ends, the BRK trigger, and whether the context is under a debug stop. -/
structure DebugCtl where
  cycle   : Option Nat
  step    : Option Nat
  brk     : Bool
  halt    : Bool
  stopped : Bool
  deriving DecidableEq, Repr

/-- A task context (R14, R149). -/
structure Ctx where
  task      : Option Task
  streams   : Vector Stream 5
  b         : BitVec 8
  outcomes  : List Outcome
  tokens    : Vector (List Token) 6
  tokenNext : Nat
  events    : Vector (BitVec 16) 32
  slip      : Nat
  exposed   : Bool
  handler   : Bool
  flights   : List Flight
  seqNext   : Nat
  v         : Vector VReg 16
  k         : Vector Word 8
  cb        : Vector Word 8
  rowpred   : Word
  z         : Vector Tile 16
  nests     : Vector (BitVec 512) 16
  ports     : Vector Port 8
  rings     : Vector Ring 16
  seq       : Sequencer
  /-- the staging copy of a staged context's schedule (R238) -/
  staging   : List (BitVec 512)
  guards    : List Held
  lockS     : Option Nat
  lockL     : Option Nat
  vcvtpol   : BitVec 8
  factctl   : BitVec 10
  ftol      : BitVec 36
  cycle     : Nat
  timecmp   : Word
  timerEn   : Bool
  tvec      : BitVec 48
  hcause    : BitVec 8
  hfail     : Bool
  frameAddr : BitVec 48
  spbase    : Nat
  spadGrant : Nat
  plyGrant  : Nat
  retrNext  : Nat
  freeze    : Nat
  /-- how many bank requests are not yet granted, by 32 times the requester plus the bank (R152) -/
  wants     : List (Nat × Nat)
  conflicts : List (Nat × Nat)
  overflow  : List Nat
  profNext  : Nat
  /-- snapshots dropped; whether one is being written, and whether the counters are cleared at the end of the cycle (R286, R287) -/
  profDrops : Nat
  profBusy  : Bool
  profClear : Bool
  /-- steps waiting for the array, in issue order: issue number, cost and issue time; and when the array is free (R210) -/
  array     : List (Nat × Nat × Nat)
  arrayFree : Nat
  dbg       : DebugCtl
  faults    : List Fault1
  saved     : Option SavedTask
  deriving DecidableEq, Repr

/-- Who wrote bytes that a block cache holds (R334): a context of the core, one of its streams or its sequencer (5, as R269 numbers
origins), and the instruction. -/
structure Writer where
  slot   : Nat
  origin : Nat
  pc     : Nat
  word   : IWord
  deriving DecidableEq, Repr

/-- A line of the block cache (R168, R170, R332): the physical line, its data, the bytes this core has written and not
written back, whether the copy must be read afresh before its other bytes are used (R345), and who wrote each of its 32-byte words
last (R334). -/
structure BlockLine where
  pline   : Nat
  data    : List Byte
  dirty   : BitVec 128
  stale   : Bool
  writers : List (Nat × Writer)
  deriving DecidableEq, Repr

/-- A block tag (R168): address space, first virtual line, count, completion, age, physical lines. -/
structure BlockTag where
  asn      : Nat
  first    : Nat
  count    : Nat
  complete : Bool
  age      : Nat
  plines   : List Nat
  deriving DecidableEq, Repr

/-- One capture of the instruction cache (R64): a virtual line of an address space, its physical line, and the bytes: the
line and up to twelve that follow, with the offsets of those in poisoned words (R331). -/
structure ICapture where
  asn   : Nat
  vline : Nat
  pline : Nat
  bytes : List Byte
  poison : List Nat
  deriving DecidableEq, Repr

/-- A cached translation (R171, R340): `size` is the bytes it covers. -/
structure TlbEntry where
  asn   : Nat
  va    : Nat
  size  : Nat
  pa    : Nat
  r     : Bool
  w     : Bool
  x     : Bool
  attr  : Nat
  deriving DecidableEq, Repr

/-- What a pre-empted task's save area answers for (R280, R281): its address, the context saved there, and the bitmaps its frame
names for the five streams (R271). -/
structure Saved where
  base  : Nat
  ctx   : Ctx
  marks : List (Option Nat)
  deriving DecidableEq, Repr

/-- What a leaf controller read of a code object (R84): the header's 256 bytes and its schedule records, where they could be read. -/
structure Launched where
  header : Option (List Byte)
  recs   : Option (List (BitVec 512))
  deriving DecidableEq, Repr

/-- A record in a queue or list (R307, R308), with the fields read when it was made ready (R300), its effective priority, and
the saved context of a pre-empted task. -/
structure Ready where
  record : Nat
  part   : Nat
  region : Nat
  prio   : Nat
  launch : Option Nat
  succ   : Nat
  code   : Nat
  frame  : Nat
  pin    : Bool
  saved  : Option Saved
  /-- the PRIO its record asks for (R298) -/
  want   : Nat
  /-- its code object as the leaf controller read it, once (R84, R349) -/
  kept   : Option Launched := none
  deriving DecidableEq, Repr

/-- One core (R149). -/
structure Core where
  ctx     : Vector Ctx 2
  running : Nat
  turn    : Nat
  spad    : Mem
  /-- the region and partition whose task last held each 4 KiB page of the scratchpad (R150) -/
  spOwner : List (Nat × (Nat × Nat))
  locks   : BitVec 512
  blocks  : List BlockTag
  lines   : List BlockLine
  ageNext : Nat
  icache  : List ICapture
  tlb     : List TlbEntry
  ready   : List Ready
  deriving DecidableEq, Repr

end Sys2Proof.Machine
end

