-- ==== Sys2Proof/Machine/DieState.lean ====
section
/-! DEFINITION. The state of the die: last-level cache tags and counters, partitions, clusters, gangs and the TLB
invalidation queue (12, 13). The contents of cached lines are those of `mem`: an eviction changes no value (R329). -/

namespace Sys2Proof.Machine

/-- A tag of a set (R325): the line address, its Pleat kind (R326) and sectors, dirty, and age by last use. -/
structure LlcTag where
  line    : Nat
  kind    : Nat
  sectors : Nat
  dirty   : Bool
  age     : Nat
  deriving DecidableEq, Repr

/-- A partition's state (R429). -/
inductive PartState where
  | unconfigured | active | draining | drained | resetting | failed
  deriving DecidableEq, Repr

/-- A partition descriptor and its state (R351, R424, R429). -/
structure Partition where
  clusters : BitVec 16
  ptroot   : Nat
  rgntab   : Nat
  rgncnt   : Nat
  qbase    : Nat
  qbytes   : Nat
  state    : PartState
  deriving DecidableEq, Repr

/-- A cluster: its queue-manager slice of sixteen priority queues (R307), its second-level TLB (R340), the balancing epoch
(R312), the link permits of the Crown and those of the reply path, the commands sent and not accepted, and those whose reply the
Crown has not taken (R353), and the profile-overflow notices its leaf controller has received: core, context and counter (R286). -/
structure Cluster where
  queues  : Vector (List Ready) 16
  tlb     : List TlbEntry
  epoch   : Nat
  permits : Nat
  replies : Nat
  link    : List Instr
  back    : List Instr
  retired : Bool
  notices : List (Nat × Nat × Nat)
  deriving DecidableEq, Repr

/-- Phase of one gang part (R354). -/
inductive PartPhase where
  | idle | waiting | reserved | failed (reason : Nat) | committed | started
  deriving DecidableEq, Repr

/-- The checks that a part of a gang keeps while it waits (R354): its record as read, the header's bytes and the schedule records. -/
structure KeptCheck where
  ready  : Ready
  header : List Byte
  recs   : List (BitVec 512)
  deriving DecidableEq, Repr

/-- One part of a gang: partition, record, the record as its LAUNCH read it, the cluster chosen, the core that holds its reservation,
its phase, and the checks it keeps. -/
structure GangPart where
  part    : Nat
  record  : Nat
  ready   : Option Ready
  cluster : Nat
  core    : Option Nat
  phase   : PartPhase
  kept    : Option KeptCheck
  deriving DecidableEq, Repr

/-- What ties a gang to those of other modules (17 R413): the identifier and number of modules of its GANG word, the other modules
whose parts are all reserved, the start time the lowest-numbered module chose, and the reason another module failed with. -/
structure Fabric where
  ident   : Nat
  modules : Nat
  ready   : List Nat
  told    : Option Nat
  failed  : Option Nat
  deriving DecidableEq, Repr

/-- A gang in the order submitted (R354, R355). -/
structure Gang where
  queue  : Nat
  launch : Nat
  parts  : List GangPart
  sent   : Option Nat
  start  : Option Nat
  fabric : Option Fabric
  deriving DecidableEq, Repr

/-- What the device holds of a live region (R304, R352): partition, index, the address of its RCB, and the fields the device writes,
by offset. A store to its own copies of them in memory moves no region (R8, R304; notes/assumptions/114). -/
structure RegionDev where
  part   : Nat
  index  : Nat
  rcb    : Nat
  fields : List (Nat × Nat)
  deriving DecidableEq, Repr

/-- A waiting record the device has registered (R300, R316): the SUCC a SPAWNJ gave it, the region that handed it over, and the
LAUNCH it is a part of (17 R413). -/
structure WaitRec where
  part   : Nat
  record : Nat
  region : Nat
  succ   : Option Nat
  issuer : Option Nat
  launch : Option Nat
  deriving DecidableEq, Repr

/-- What the forwarding engine holds of a proxy queue (R322; 17 R433): the times of entries pushed and not sent, those of
entries sent and not accepted, the entries of its last fabric write (OP and record), the HEAD that a pending flush waits for, and a queue stopped by
a loss. -/
structure Proxy where
  part    : Nat
  desc    : Nat
  pushed  : List Nat
  sent    : List Nat
  batch   : List (Nat × Nat)
  flush   : Option Nat
  stopped : Bool
  deriving DecidableEq, Repr

/-- A request waiting at a guard's home slice, in order of arrival (R133). -/
structure GuardReq where
  guard : Nat
  core  : Nat
  slot  : Nat
  seq   : Nat
  excl  : Bool
  deriving DecidableEq, Repr

/-- The die. -/
structure Die where
  mem       : Mem
  /-- poisoned 32-byte words, by address (R331) -/
  poison    : List Nat
  /-- the tags of each set that holds any, by slice times 1,536 plus set (R324) -/
  llc       : List (Nat × List LlcTag)
  llcAge    : Nat
  /-- slice counters by slice times 16 plus offset over 8 (R330) -/
  counters  : List (Nat × Nat)
  /-- slices whose CTRL clear takes effect at the end of the cycle, and the OVF bits set in it, by slice (R286, R330) -/
  clears    : List Nat
  ovfNow    : List (Nat × Nat)
  /-- ECC errors of all slices since bring-up, found in the cache and in LPDDR-6: corrected and uncorrectable (17 R428) -/
  eccLlcC   : Nat
  eccLlcU   : Nat
  eccMemC   : Nat
  eccMemU   : Nat
  tlbQueue  : List Nat
  tlbSeq    : Nat
  tlbDrop   : Bool
  parts     : Vector Partition 8
  clusters  : Vector Cluster 16
  regions   : List RegionDev
  gangs     : List Gang
  guardReqs : List GuardReq
  waiting   : List WaitRec
  /-- successors marked doomed (R303), by partition and record -/
  doomed    : List (Nat × Nat)
  proxies   : List Proxy
  deriving DecidableEq, Repr

end Sys2Proof.Machine
end

