-- ==== Sys2Proof/Machine/HostState.lean ====
section
/-! DEFINITION. The host-facing state (17): the function's registers, windows, command queues, the Crown and the Mitten, the
status the mirror shows, device links, fuses and firmware. -/

namespace Sys2Proof.Machine

/-- A host window (R406, R407). -/
structure Window where
  part    : Nat
  base    : Nat
  len     : Nat
  verAddr : Nat
  version : Nat
  deriving DecidableEq, Repr

/-- A fetched window of packets (R415): whether it is of the host's memory, the position of its first byte (in the ring, or the
address in a buffer), and its bytes. -/
structure PktWindow where
  host  : Bool
  start : Nat
  bytes : List Byte
  deriving DecidableEq, Repr

/-- Levels of a command stream (R414). -/
inductive LevelKind where
  | ring | ib | loop
  deriving DecidableEq, Repr

/-- One level (R414): a ring's positions count bytes of the stream, a buffer's are addresses, and a loop's are those of the level
that holds its body. `start` and `stop` bound it (the ring ends at WPTR), `pos` is the next packet, `passes` those a loop still
makes with the one in progress, `window` a loop body's own window (R446). -/
structure Level where
  kind   : LevelKind
  host   : Bool
  start  : Nat
  stop   : Nat
  pos    : Nat
  passes : Nat
  window : Option PktWindow
  deriving DecidableEq, Repr

/-- Queue states (R429). -/
inductive QState where
  | idle | running | waiting | held | stopped | faulted | mitten
  deriving DecidableEq, Repr

/-- The packet in progress (R412): none, a LAUNCH with WAIT 1, or a WAITMEM with the time of its last read. -/
inductive Progress where
  | none
  | launch (ident : Nat)
  | waitmem (last : Nat)
  deriving DecidableEq, Repr

/-- A packet as decoded from one window (R410): the position it stands at, type, length in words, ARG, the reserved bits of its
header, and the words after it. -/
structure Packet where
  pos   : Nat
  kind  : Nat
  len   : Nat
  arg   : Nat
  rsv   : Nat
  words : List Nat
  deriving DecidableEq, Repr

/-- A command queue (R409, R422, R429): `levels` has the innermost first and the ring last; `skip` counts packets a PRED still
skips; `began` is the start of the packet in progress on the die timebase; `current` is that packet where a handover has discarded the
window it was decoded from (R419). -/
structure Queue where
  part      : Nat
  host      : Bool
  base      : Nat
  size      : Nat
  gauntlet  : Nat
  mapped    : Bool
  state     : QState
  rptr      : Nat
  wptr      : Nat
  levels    : List Level
  /-- the window of each buffer depth, 0 the ring's (R446) -/
  windows   : List (Nat × PktWindow)
  skip      : Nat
  began     : Option Nat
  progress  : Progress
  completed : Nat
  lastCause : Nat
  lastGrade : Nat
  current   : Option Packet := none
  deriving DecidableEq, Repr

/-- A part of a LAUNCH: its record, whether it has been handed over, and its outcome, cause and reason once it has ended (R413). -/
structure LaunchPart where
  record  : Nat
  handed  : Bool
  outcome : Option (Nat × Nat × Nat)
  deriving DecidableEq, Repr

/-- A LAUNCH whose report is still to be written (R413), with the address of its packet. -/
structure Launch1 where
  ident  : Nat
  queue  : Nat
  packet : Nat
  part   : Nat
  report : Nat
  wait   : Bool
  gang   : Bool
  parts  : List LaunchPart
  deriving DecidableEq, Repr

/-- What the mirror shows of a partition (R429); a reset in progress (R423): when it began, the queues whose Gauntlet expired
with the addresses of their packets, whether the partition was draining before it, and whether steps 2 to 4 are done. -/
structure PStat where
  launches  : Nat
  faults    : Nat
  resets    : Nat
  tbase     : Nat
  lastCause : Nat
  lastGrade : Nat
  resetAt   : Option Nat
  expired   : List (Nat × Nat)
  draining  : Bool
  emptied   : Bool
  deriving DecidableEq, Repr

/-- Link states (R428). -/
inductive LinkState where
  | down | training | up | failed
  deriving DecidableEq, Repr

/-- Elements sent over a link by one SEND (R436). -/
structure LinkMsg where
  nfmt  : Nat
  elems : List Nat
  deriving DecidableEq, Repr

/-- A device link (R428, R433): its peer as 63:50 of the mirror's word hold it, what has been received and what has been sent. -/
structure Link where
  peer    : Nat
  state   : LinkState
  retries : Nat
  rx      : List LinkMsg
  tx      : List LinkMsg
  deriving DecidableEq, Repr

/-- The link schedule that runs (R434, R436): its address, its start on the timebase, its entries and the next one, and the entries'
bytes as they were read at the start (R349). -/
structure LinkSched where
  pa    : Nat
  t0    : Nat
  n     : Nat
  next  : Nat
  block : List Byte
  deriving DecidableEq, Repr

/-- Fuses (R437): digests of the public keys, revocation bits, the minimum security version. -/
structure Fuses where
  keys    : Vector (List Byte) 4
  revoked : BitVec 4
  minSvn  : Nat
  deriving DecidableEq, Repr

/-- A firmware image: whose it is, its security version and its bytes (R437). -/
structure Image where
  agent : Nat
  svn   : Nat
  bytes : List Byte
  deriving DecidableEq, Repr

/-- The host side of the module: host memory as the device sees it, the registers of R404, and what the Crown keeps. -/
structure Host1 where
  mem        : Mem
  windows    : List (Nat × Window)
  /-- clock steps taken off the core clock (R439) -/
  throttle   : Nat
  mirrorBase : Nat
  mgmtBase   : Nat
  mgmtAccepted : Nat
  mgmtDone   : Nat
  /-- 0 booting, 1 running, 2 rebooting, 3 failed (R428) -/
  crown      : Nat
  mitten     : Bool
  bootStage  : Nat
  ladder     : Nat
  aperture   : Nat
  queues     : List (Nat × Queue)
  launches   : List Launch1
  launchNext : Nat
  heartbeat  : Nat
  mittenbeat : Nat
  /-- time of the last heartbeat, which the hardware watchdog of the Crown watches (R418, R420) -/
  lastBeat   : Nat
  /-- the queue looked at first, and the time at which a queue was last served (R420; notes/assumptions/7) -/
  mittenNext : Nat
  servedAt   : Nat
  nlog       : Nat
  /-- the fault log's entries, by place (R430) -/
  log        : List (Nat × List Byte)
  mirrorSeq  : Nat
  /-- time of the last mirror update (R427) -/
  mirrorLast : Nat
  /-- interrupt messages sent, in order (R403, R411, R431) -/
  msix       : List Nat
  /-- values returned to the host: BAR2 reads with their poison mark, register loads and debug items (R283, R405) -/
  replies    : List (List Nat)
  pstats     : Vector PStat 8
  resets     : Nat
  tempDie    : Int
  tempMem    : Int
  tempFlash  : Int
  power      : Nat
  mediaFails : Nat
  retiredBlocks : Nat
  retiredDies : List Nat
  links      : Vector Link 16
  sched      : Option LinkSched
  lsgoPart   : Nat
  lsgoRefused : Bool
  fuses      : Fuses
  /-- images loaded, and images stored in the flash boot area (R437) -/
  images     : List Image
  stored     : List Image
  deriving DecidableEq, Repr

end Sys2Proof.Machine
end

