-- ==== Sys2Proof/Machine/RetrState.lean ====
section
/-! DEFINITION. The state of the retrieval controllers and the flash index (15 R362 to R398): handles, generations, logs,
ball trees, key-value objects, commands in progress and flash reads. Nodes, headers and pages are held as records;
Machine/RetrLayout.lean gives their bytes, and the copies of nodes and headers stand in LPDDR-6 (R373, R374;
notes/assumptions/30). -/

namespace Sys2Proof.Machine

/-- An entry of the hem log (R376): `vec` none is a deletion; `gen` none has not committed (R380). -/
structure HemEntry where
  hpos : Nat
  id   : Nat
  vec  : Option (List Byte)
  gen  : Option Nat
  deriving DecidableEq, Repr

/-- A member record of a pocket page (R374). -/
structure Member where
  id  : Nat
  gen : Nat
  vec : List Byte
  deriving DecidableEq, Repr

/-- A pocket page: its flash page number, the version that wrote it, and records (R363, R374). -/
structure PocketPage where
  fpn     : Nat
  fromGen : Nat
  members : List Member
  deriving DecidableEq, Repr

/-- A pocket header with its pages, and the place of its copy in LPDDR-6 (R374). -/
structure Pocket where
  number : Nat
  fromGen : Nat
  radsq  : Nat
  seams  : List Nat
  centre : List Byte
  pages  : List PocketPage
  place  : Nat
  deriving DecidableEq, Repr

/-- A child of an interior node (R373). -/
structure TreeChild where
  number : Nat
  pocket : Bool
  radsq  : Nat
  centre : List Byte
  deriving DecidableEq, Repr

/-- An interior node with the flash pages it takes and the place of its copy in LPDDR-6 (R373). -/
structure TreeNode where
  number   : Nat
  level    : Nat
  fromGen  : Nat
  children : List TreeChild
  fpns     : List Nat
  place    : Nat
  deriving DecidableEq, Repr

/-- A version record with the nodes and pockets it names (R372). -/
structure Version where
  fromGen : Nat
  cut     : Nat
  root    : Option Nat
  nodes   : List TreeNode
  pockets : List Pocket
  deriving DecidableEq, Repr

/-- A write (contents, with the flash pages that hold them) or drop (none) of a key-value object (R386). -/
structure KvEvent where
  id       : Nat
  block    : Nat
  gen      : Nat
  contents : Option (List Byte)
  fpns     : List Nat
  deriving DecidableEq, Repr

/-- A darning pass in progress (R383): its cut, the reads still to come, and the commands that end with it. -/
structure DarnPass where
  cut   : Nat
  reads : Nat
  cmds  : List Nat
  deriving DecidableEq, Repr

/-- An index (R365, R367, R372, R381, R391); `logFpns` are the flash pages of its hem log, by number (R376). -/
structure Index where
  part      : Nat
  region    : Nat
  rights    : Nat
  efmt      : Nat
  dim       : Nat
  home      : Nat
  batchUs   : Nat
  arenaBase : Nat
  arenaLen  : Nat
  traceBase : Nat
  traceSlots : Nat
  logPages  : Nat
  threshold : Nat
  budget    : Nat
  resize    : Option (Nat × Nat)
  gen       : Nat
  hposNext  : Nat
  log       : List HemEntry
  logFpns   : List (Nat × Nat)
  versions  : List Version
  objects   : List KvEvent
  counters  : Vector Nat 13
  pass      : Option DarnPass
  asked     : List Nat
  paused    : Bool
  dying     : Bool
  deriving DecidableEq, Repr

/-- A candidate of a query (R377); `source` is the pocket, or 0xFFFF_FFFF for the hem log (R394). -/
structure Candidate where
  dist   : Nat
  id     : Nat
  source : Nat
  gen    : Nat
  deriving DecidableEq, Repr

/-- What a command will write in its completion (R390, R396). -/
structure Completion where
  status : Nat
  gen    : Nat
  aux    : Nat
  deriving DecidableEq, Repr

/-- A query in progress (R377): candidates in order, pages of the hem log still to read with their flash pages, nodes to open with
their bounds, pockets to scan with the next page of the first, pockets scanned, and whether it stands in a batch or a read. -/
structure Query where
  gen     : Nat
  vec     : List Byte
  best    : List Candidate
  logs    : List (Nat × Nat)
  nodes   : List (Int × Nat)
  pockets : List Nat
  page    : Nat
  scans   : Nat
  waiting : Bool
  deriving DecidableEq, Repr

/-- A retrieval command that has been sent (R393): the record of its task and the issue it came from, its command block as read at acceptance
(R394), and how far it is. -/
structure RetrCmd where
  uid     : Nat
  op      : Nat
  task    : Nat
  issue   : Nat
  seq     : Nat
  part    : Nat
  region  : Nat
  blockPa : Nat
  ringPa  : Nat
  accepted : Bool
  handle  : Nat
  k       : Nat
  blockNo : Nat
  user    : Nat
  id      : Nat
  out     : Nat
  table   : Nat
  gen     : Nat
  hpos    : Nat
  tablePa : Nat
  outPas  : List Nat
  /-- virtual addresses whose translations it holds (R342, R394) -/
  vas     : List Nat
  query   : Option Query
  killed  : Bool
  result  : Option Completion
  deriving DecidableEq, Repr

/-- What a flash read is for (R376, R379, R383 to R385, R389). -/
inductive ReadKind where
  | page (pocket page : Nat)
  | log (page : Nat)
  | object
  | prefetch (pocket : Nat)
  | darn
  deriving DecidableEq, Repr

/-- A flash read in a channel's queue (R384): its index and version, the page, its retry level and the commands that wait. -/
structure FlashRead where
  handle  : Nat
  version : Nat
  fpn     : Nat
  level   : Nat
  kind    : ReadKind
  cmds    : List Nat
  seq     : Nat
  deriving DecidableEq, Repr

/-- Queries that wait on a pocket before its scan (R378): the time of the first arrival. -/
structure Batch where
  handle  : Nat
  version : Nat
  pocket  : Nat
  since   : Nat
  cmds    : List Nat
  deriving DecidableEq, Repr

/-- The retrieval system of the package: handle table, commands, queued reads, decoded pages, batches and buffered prefetches, and the
running number of the next flash page taken (R363), and the bytes of the device-managed area of LPDDR-6 taken so far (R373). -/
structure Retr where
  indexes  : List (Nat × Index)
  cmds     : List RetrCmd
  uidNext  : Nat
  reads    : List FlashRead
  decoded  : List FlashRead
  batches  : List Batch
  buffered : List (Nat × Nat)
  pageNext : Nat
  areaNext : Nat
  deriving DecidableEq, Repr

/-- No index, no command (R365). -/
def Retr.reset : Retr :=
  { indexes := [], cmds := [], uidNext := 0, reads := [], decoded := [], batches := [], buffered := [], pageNext := 0, areaNext := 0 }

end Sys2Proof.Machine
end

