-- ==== Sys2Proof/Machine/State.lean ====
section
/-! DEFINITION. The state of the module as plain data, its value right after reset, and the reasons a step can stop. -/

namespace Sys2Proof.Machine

/-- A move of the agenda: an event or command of an agent, or one step of a core (notes/assumptions/7). -/
inductive Move where
  | event (i : Instr)
  | core (n : Nat)
  deriving DecidableEq, Repr

/-- The machine. `time` is the time in units of 1/720,720 ns, in which every core clock of R439 has a whole period;
TBASE is its whole nanoseconds (R145). `agenda`, `focus` and
`freeCount` are the model's own (notes/assumptions/7, 8). -/
structure State where
  cores     : Vector Core 128
  die       : Die
  host      : Host1
  retr      : Retr
  time      : Nat
  agenda    : List Move
  focus     : Nat
  freeCount : Nat
  deriving DecidableEq, Repr

/-- Where the machine stops with a fault. -/
inductive Fault where
  /-- An access to a device register whose behaviour the spec does not give (R335); raised by scalar accesses. Safe. -/
  | deviceUnspecified (pa : Nat)
  deriving DecidableEq, Repr

/-- Where an instruction has no meaning here. -/
inductive Refusal where
  /-- An instruction not reached yet, by its mnemonic. Safe. -/
  | notModelled (mnemonic : String)
  /-- An event that names a core, cluster, queue or other place that does not exist (R1, R9). Safe: no such event occurs. -/
  | noSuchPlace
  deriving DecidableEq, Repr

/-- A stream at its initial values, with no task (R14; notes/assumptions/1). -/
def Stream.reset : Stream :=
  { pc := 0, pos := 0, x := Vector.replicate 16 0, xAlt := Vector.replicate 4 0, q := Vector.replicate 16 0, qCount := 0,
    loops := [], brCount := 0, status := .run, redo := none, passBrk := false, last := 0 }

/-- A port with no walk (R160). -/
def Port.reset : Port := { state := .unbound, gen := 0, record := 0, next := 0, ahead := [] }

/-- A sequencer with no records (R237). -/
def Sequencer.reset : Sequencer :=
  { slots := Vector.replicate 64 { record := 0, state := .empty, order := 0, checked := false, invalid := false },
    stage := 0, unit := 0, captured := [], entry := none, held := [], startCycle := 0, raised := none }

/-- A tile at its initial values (R211). -/
def Tile.reset : Tile := { rep := 0, rank := 0, limit := 32, tag := 0, held := 0, plies := [] }

/-- A context with no task; registers at the initial values of R14, R177, R211, R215, R216, R220, R244, the mode and the
registers that placement sets at the values of notes/assumptions/1. -/
def Ctx.reset : Ctx :=
  { task := none, streams := Vector.replicate 5 Stream.reset, b := 0, outcomes := [], tokens := Vector.replicate 6 [],
    tokenNext := 0, events := Vector.replicate 32 0, slip := 256, exposed := false, handler := false, flights := [],
    seqNext := 0, v := Vector.replicate 16 { lanes := Vector.replicate 64 0, tag := 0 },
    k := (Vector.replicate 8 0).set 0 (BitVec.allOnes 64), cb := Vector.replicate 8 0, rowpred := BitVec.allOnes 64,
    z := Vector.replicate 16 Tile.reset, nests := Vector.replicate 16 0, ports := Vector.replicate 8 Port.reset,
    rings := Vector.replicate 16 { slots := 0, rp := 0, wp := 0, filled := 0 }, seq := Sequencer.reset, staging := [],
    guards := [], lockS := none, lockL := none, vcvtpol := 0xAA, factctl := 0, ftol := 0, cycle := 0, timecmp := 0,
    timerEn := false, tvec := 0, hcause := 0, hfail := false, frameAddr := 0, spbase := 0, spadGrant := 0, plyGrant := 0,
    retrNext := 0, freeze := 0, wants := [], conflicts := [], overflow := [], profNext := 0, profDrops := 0,
    profBusy := false, profClear := false, array := [], arrayFree := 0,
    dbg := { cycle := none, step := none, brk := false, halt := false, stopped := false }, faults := [], saved := none }

/-- A core with two empty contexts and cold caches (R149). -/
def Core.reset : Core :=
  { ctx := Vector.replicate 2 Ctx.reset, running := 0, turn := 0, spad := [], spOwner := [], locks := 0, blocks := [],
    lines := [], ageNext := 0, icache := [], tlb := [], ready := [] }

/-- A cluster with empty queues (R307) and all link permits (R353). -/
def Cluster.reset : Cluster := { queues := Vector.replicate 16 [], tlb := [], epoch := 0, permits := 8, replies := 8, link := [], back := [], retired := false, notices := [] }

/-- The die after power-on: no partition is configured (R429), the caches are empty. -/
def Die.reset : Die :=
  { mem := [], poison := [], llc := [], llcAge := 0, counters := [], clears := [], ovfNow := [], eccLlcC := 0, eccLlcU := 0, eccMemC := 0, eccMemU := 0, tlbQueue := [], tlbSeq := 0, tlbDrop := false,
    parts := Vector.replicate 8 { clusters := 0, ptroot := 0, rgntab := 0, rgncnt := 0, qbase := 0, qbytes := 0,
                                  state := .unconfigured },
    clusters := Vector.replicate 16 Cluster.reset, regions := [], gangs := [], guardReqs := [],
    waiting := [], doomed := [], proxies := [] }

/-- A link that is down (17 R428; notes/assumptions/5). -/
def Link.reset : Link := { peer := 0, state := .down, retries := 0, rx := [], tx := [] }

/-- The fuses of a module (17 R437; notes/assumptions/6). -/
def Fuses.reset : Fuses := { keys := Vector.replicate 4 [], revoked := 0, minSvn := 0 }

/-- The host side after power-on: nothing set up, the Crown booting (17 R404, R406, R428, R439). -/
def Host1.reset : Host1 :=
  { mem := [], windows := [], throttle := 0, mirrorBase := 0, mgmtBase := 0, mgmtAccepted := 0, mgmtDone := 0, crown := 0, mitten := false,
    bootStage := 0, ladder := 0, aperture := 0, queues := [], launches := [], launchNext := 0, heartbeat := 0, mittenbeat := 0,
    lastBeat := 0, mittenNext := 0, servedAt := 0, nlog := 0, log := [], mirrorSeq := 0, mirrorLast := 0, msix := [], replies := [],
    pstats := Vector.replicate 8 { launches := 0, faults := 0, resets := 0, tbase := 0, lastCause := 0, lastGrade := 0,
                                   resetAt := none, expired := [], draining := false, emptied := false },
    resets := 0, tempDie := 0, tempMem := 0, tempFlash := 0, power := 0,
    mediaFails := 0, retiredBlocks := 0, retiredDies := [], links := Vector.replicate 16 Link.reset, sched := none, lsgoPart := 0,
    lsgoRefused := false, fuses := Fuses.reset, images := [], stored := [] }

/-- The machine right after reset (17 R439): no partition, no queue, no task. -/
def State.reset : State :=
  { cores := Vector.replicate 128 Core.reset, die := Die.reset, host := Host1.reset, retr := Retr.reset, time := 0, agenda := [], focus := 0, freeCount := 0 }

end Sys2Proof.Machine
end

