-- ==== Sys2Proof/Machine/Access.lean ====
section
/-! DEFINITION. Access to the parts of the state: vectors by number, cores, contexts and streams. -/

namespace Sys2Proof.Machine

/-- Entry `i` of a vector, `d` past its end. -/
def vget {α : Type} {n : Nat} (d : α) (v : Vector α n) (i : Nat) : α := (v[i]?).getD d

/-- Set entry `i` of a vector; nothing past its end. -/
def vset {α : Type} {n : Nat} (v : Vector α n) (i : Nat) (x : α) : Vector α n := v.setIfInBounds i x

/-- Core `n` (R1: 0 to 127; a number is read modulo 128, so that every number names a core). -/
def State.core (s : State) (n : Nat) : Core := s.cores[n % 128]'(Nat.mod_lt n (by decide))
def State.setCore (s : State) (n : Nat) (c : Core) : State :=
  { s with cores := s.cores.set (n % 128) c (Nat.mod_lt n (by decide)) }

/-- Context `slot` of a core (R149: 0 and 1; read modulo 2). -/
def Core.slot (c : Core) (slot : Nat) : Ctx := c.ctx[slot % 2]'(Nat.mod_lt slot (by decide))
def Core.setSlot (c : Core) (slot : Nat) (x : Ctx) : Core :=
  { c with ctx := c.ctx.set (slot % 2) x (Nat.mod_lt slot (by decide)) }

def State.ctxAt (s : State) (core slot : Nat) : Ctx := (s.core core).slot slot
def State.setCtxAt (s : State) (core slot : Nat) (x : Ctx) : State :=
  s.setCore core ((s.core core).setSlot slot x)

/-- The running context of core `n`. -/
def State.runCtx (s : State) (n : Nat) : Ctx := s.ctxAt n (s.core n).running
def State.setRunCtx (s : State) (n : Nat) (x : Ctx) : State := s.setCtxAt n (s.core n).running x

/-- The core whose instruction is being executed, and its running context. -/
def State.here (s : State) : Core := s.core s.focus
def State.setHere (s : State) (c : Core) : State := s.setCore s.focus c
def State.ctx (s : State) : Ctx := s.runCtx s.focus
def State.setCtx (s : State) (x : Ctx) : State := s.setRunCtx s.focus x

/-- Stream `i` of a context (R10: 0 to 4; read modulo 5). -/
def Ctx.stream (c : Ctx) (i : Nat) : Stream := c.streams[i % 5]'(Nat.mod_lt i (by decide))
def Ctx.setStream (c : Ctx) (i : Nat) (st : Stream) : Ctx :=
  { c with streams := c.streams.set (i % 5) st (Nat.mod_lt i (by decide)) }

/-- Stream number of a tag (R10); the tag A has none of its own. -/
def tagStream : Tag → Nat
  | .S => 0
  | .L => 1
  | .M => 2
  | .V => 3
  | .W => 4
  | .A => 0

/-- Cluster of a core (R1: clusters of eight). -/
def clusterOf (core : Nat) : Nat := core / 8

/-- Partition of the task in the running context of a core; 8 names none. -/
def State.partOf (s : State) (core : Nat) : Nat :=
  match (s.runCtx core).task with
  | some t => t.part
  | none => 8

def State.part (s : State) (p : Nat) : Partition :=
  vget { clusters := 0, ptroot := 0, rgntab := 0, rgncnt := 0, qbase := 0, qbytes := 0, state := .unconfigured } s.die.parts p
def State.setPart (s : State) (p : Nat) (x : Partition) : State :=
  { s with die := { s.die with parts := vset s.die.parts p x } }

def State.cluster (s : State) (c : Nat) : Cluster := vget Cluster.reset s.die.clusters c
def State.setCluster (s : State) (c : Nat) (x : Cluster) : State :=
  { s with die := { s.die with clusters := vset s.die.clusters c x } }

/-- Do something at another core: the focus is there meanwhile. -/
def State.onCore (s : State) (n : Nat) (f : State → State) : State :=
  { f { s with focus := n } with focus := s.focus }

/-- An event at a core: one of 0 to 127 (R1). -/
def State.atCore (s : State) (n : Nat) (f : State → State) : Host.Outcome State Fault Refusal :=
  if n < 128 then .next (s.onCore n f) else .refused .noSuchPlace

/-- A command of the Crown may be sent over a cluster's link and answered at once: a send permit is left, one for its reply, and
nothing is in transit ahead of it (R353). -/
def State.linkFree (s : State) (cluster : Nat) : Bool :=
  let k := s.cluster cluster
  0 < k.permits && 0 < k.replies && k.link.isEmpty && k.back.isEmpty

/-- The Crown sends a command: it takes a permit and stands behind those sent before; with no permit left the Crown waits (R353). -/
def State.sendLink (s : State) (cluster : Nat) (i : Instr) : State :=
  let k := s.cluster cluster
  if k.permits = 0 then s else s.setCluster cluster { k with permits := k.permits - 1, link := k.link ++ [i] }

/-- A command over a cluster's link (R353): where nothing is in transit it is sent, accepted and answered in one event
(notes/assumptions/51), and else it takes its place in the order sent. -/
def State.overLink (s : State) (cluster : Nat) (i : Instr) (f : State → State) : State :=
  if s.linkFree cluster then f s else s.sendLink cluster i

/-- The Crown takes the oldest reply of a cluster: its permit returns (R353). -/
def State.takeReply (s : State) (cluster : Nat) : State :=
  let k := s.cluster cluster
  match k.back with
  | [] => s
  | _ :: rest => s.setCluster cluster { k with back := rest, replies := k.replies + 1 }

/-- The link of a cluster while its leaf controller performs the command it accepts: nothing stands ahead of it (R353). -/
def State.clearLink (s : State) (cluster : Nat) : State :=
  let k := s.cluster cluster
  s.setCluster cluster { k with permits := k.permits + 1, link := [], back := [] }

/-- The link after an acceptance: the commands behind, and the reply, which takes a permit of its own (R353). -/
def State.restoreLink (s : State) (cluster : Nat) (link back : List Instr) : State :=
  let k := s.cluster cluster
  s.setCluster cluster { k with link, back, replies := k.replies - 1 }

end Sys2Proof.Machine
end

