-- ==== Sys2Proof/Machine/Pleat.lean ====
section
/-! DEFINITION. The Pleat encoding of 128-byte lines and chunks (13 R326 to R328). -/

namespace Sys2Proof.Machine

/-- The 32 words of a line (R326). -/
def lineWords : List Byte → List Nat
  | a :: b :: c :: d :: rest => bytesNat [a, b, c, d] :: lineWords rest
  | _ => []

/-- Bytes of words of 32 bits. -/
def wordBytes (ws : List Nat) : List Byte := ws.flatMap (natBytes 4)

/-- Deltas of the non-zero words after the first, as signed numbers (R327). -/
def pleatDeltas : List Nat → List Int
  | [] => []
  | w :: ws =>
    if w = 0 then pleatDeltas ws
    else (ws.filter (· ≠ 0)).map fun x => signExtend ((x + 2 ^ 32 - w) % 2 ^ 32) 32

/-- Every delta fits a width (R327). -/
def deltasFit (ds : List Int) (dw : Nat) : Bool :=
  ds.all fun d => -(2 ^ (dw - 1) : Nat) ≤ d && d ≤ (2 ^ (dw - 1) : Nat) - 1

/-- Size in sectors of a BD body (R326). -/
def bdSectors (nd dw : Nat) : Nat := (9 + (nd * dw + 7) / 8 + 15) / 16

/-- Bit mask of the zero words (R326). -/
def zeroMask (ws : List Nat) : Nat :=
  (ws.zipIdx.foldl (fun a p => if p.1 = 0 then a + 2 ^ p.2 else a) 0)

/-- Pack deltas of `dw` bits, the first lowest (R326). -/
def packDeltas (dw : Nat) : List Int → Nat
  | [] => 0
  | d :: ds => wrapInt d dw + 2 ^ dw * packDeltas dw ds

/-- A BD body with a width code (R326). -/
def bdBody (ws : List Nat) (code dw : Nat) : List Byte :=
  let ds := pleatDeltas ws
  let base := ((ws.find? (· ≠ 0)).getD 0)
  natBytes (16 * bdSectors ds.length dw)
    (code + 2 ^ 8 * (base + 2 ^ 32 * (zeroMask ws + 2 ^ 32 * packDeltas dw ds)))

/-- pleat_encode (R327): kind code of R154, sectors, body. -/
def pleatEncode (line : List Byte) : Nat × Nat × List Byte :=
  let ws := lineWords line
  let w0 := ws.headD 0
  if ws.all (· = 0) then (0, 0, [])
  else if ws.all (· = w0) then (1, 1, natBytes 16 w0)
  else
    let ds := pleatDeltas ws
    if deltasFit ds 4 then (2, bdSectors ds.length 4, bdBody ws 0 4)
    else if deltasFit ds 8 then (2, bdSectors ds.length 8, bdBody ws 1 8)
    else if deltasFit ds 16 then (2, bdSectors ds.length 16, bdBody ws 2 16)
    else (3, 8, line)

/-- Words of a BD body from index `i` on: `seen` says whether the base word has passed, `ds` holds the deltas left (R327). -/
def bdWords (base zm dw : Nat) : Nat → Nat → Bool → Nat → List Nat
  | 0, _, _, _ => []
  | n + 1, i, seen, ds =>
    if bit zm i then 0 :: bdWords base zm dw n (i + 1) seen ds
    else if !seen then base :: bdWords base zm dw n (i + 1) true ds
    else wrapInt (base + signExtend ds dw) 32 :: bdWords base zm dw n (i + 1) true (ds / 2 ^ dw)

/-- Delta width of a code (R326). -/
def bdWidth (code : Nat) : Nat := match code with
  | 0 => 4
  | 1 => 8
  | _ => 16

/-- pleat_decode (R327): the 128 bytes. -/
def pleatDecode (kind : Nat) (body : List Byte) : List Byte :=
  let g := bytesNat body
  match kind with
  | 0 => List.replicate 128 0
  | 1 => wordBytes (List.replicate 32 (g % 2 ^ 32))
  | 2 => wordBytes (bdWords (bits g 39 8) (bits g 71 40) (bdWidth (bits g 1 0)) 32 0 false (g / 2 ^ 72))
  | _ => body.take 128

/-- A chunk keeps the rules of R328; `scnt` is its OFFTAB count and `body` its sectors. -/
def pleatOk (kind scnt : Nat) (body : List Byte) : Bool :=
  let g := bytesNat body
  match kind with
  | 0 => scnt = 0
  | 1 => scnt = 1 && g ≠ 0 && g < 2 ^ 32
  | 2 =>
    let code := bits g 1 0
    let zm := bits g 71 40
    let nz := ((List.range 32).filter fun i => !bit zm i).length
    let nd := nz - 1
    let dw := bdWidth code
    1 ≤ scnt && scnt ≤ 5 && code ≠ 3 && bits g 7 2 = 0 && nz ≠ 0 && bits g 39 8 ≠ 0 && scnt = bdSectors nd dw &&
      g / 2 ^ (72 + nd * dw) = 0
  | _ => scnt = 8

end Sys2Proof.Machine
end

