-- ==== Sys2Proof/Machine/Llc.lean ====
section
/-! DEFINITION. The home slices: every access to LPDDR-6 at die scope, with its set operation, counters, poison and
read-modify-write rule (13 R324 to R334, R344). -/

namespace Sys2Proof.Machine

/-- One byte written at die scope: physical address, value, and the bits written (R332). -/
structure DieCell where
  pa   : Nat
  val  : Byte
  mask : Byte
  deriving DecidableEq, Repr

/-- Home slice of a line address (R324). -/
def homeSlice (line : Nat) : Nat :=
  (bits line 6 0 ^^^ bits line 13 7 ^^^ bits line 20 14 ^^^ bits line 27 21 ^^^ bits line 34 28 ^^^ bits line 38 35) % 128

/-- Home set of a line address, numbered over the whole cache (R324). -/
def homeSet (line : Nat) : Nat := homeSlice line * 1536 + line / 128 % 1536

/-- Counters by offset over 8 (R330). -/
def cHits : Nat := 0
def cMisses : Nat := 1
def cFills : Nat := 2
def cWback : Nat := 3
def cExpand : Nat := 4
def cShrink : Nat := 5
def cExpEvict : Nat := 6
def cEvict : Nat := 7
def cSectors : Nat := 8
def cLines : Nat := 9
def cCecc : Nat := 10
def cUecc : Nat := 11
def cErrAddr : Nat := 12
def cRmwFail : Nat := 13
def cOvf : Nat := 14
def cCtrl : Nat := 15

/-- Add to a slice counter; a pass over 2^64 wraps and sets its OVF bit (R330). -/
def Die.count (d : Die) (slice c n : Nat) : Die :=
  if n = 0 then d
  else
    let old := tget 0 d.counters (slice * 16 + c)
    let t := tset d.counters (slice * 16 + c) ((old + n) % 2 ^ 64)
    if old + n < 2 ^ 64 then { d with counters := t }
    else { d with counters := tset t (slice * 16 + cOvf) (tget 0 t (slice * 16 + cOvf) ||| 2 ^ c)
                  ovfNow := tset d.ovfNow slice (tget 0 d.ovfNow slice ||| 2 ^ c) }

/-- Record a failed or poisoned word in ERRADDR (R330, R331). -/
def Die.errAddr (d : Die) (slice word : Nat) : Die :=
  { d with counters := tset d.counters (slice * 16 + cErrAddr) (2 ^ 63 + word / 32 * 32) }

/-- A read-modify-write of a word is refused (R334). -/
def Die.refuse (d : Die) (word : Nat) : Die :=
  let sl := homeSlice (word / 128)
  let d1 := ((d.count sl cRmwFail 1).count sl cUecc 1).errAddr sl word
  { d1 with eccLlcU := d1.eccLlcU + 1 }

/-- The poisoned word that a range meets, lowest first (R331). -/
def Die.poisonIn (d : Die) (pa n : Nat) : Option Nat :=
  d.poison.find? fun w => w < pa + n && pa < w + 32

/-- Kind and sectors of a line as the memory holds it; a line with a poisoned word is RAW (R327, R331). -/
def Die.need (d : Die) (line : Nat) : Nat × Nat :=
  if (d.poisonIn (128 * line) 128).isSome then (3, 8)
  else
    let r := pleatEncode (d.mem.load (128 * line) 128)
    (r.1, r.2.1)

/-- Sectors in use in a set. -/
def setSectors (ts : List LlcTag) : Nat := ts.foldl (fun a t => a + t.sectors) 0

/-- Victims in least-recently-used order until the pool has room (R329 step 3); at most the sixteen tags of a set. -/
def evictFor (n : Nat) : Nat → List LlcTag → List LlcTag × List LlcTag
  | 0, ts => (ts, [])
  | k + 1, ts =>
    if setSectors ts + n ≤ 64 && ts.length < 16 then (ts, [])
    else
      match ts.foldl (fun (acc : Option LlcTag) t => match acc with
          | none => some t
          | some v => if t.age < v.age then some t else some v) none with
      | none => (ts, [])
      | some v =>
        let r := evictFor n k (ts.filter fun t => t.line != v.line)
        (r.1, v :: r.2)

/-- One operation of a slice on a line (R329), after its bytes are in `mem`: `write` and `full` say what it does, `before`
is the size of the line before the write. -/
def Die.llcOp (d : Die) (line : Nat) (write full : Bool) (before : Nat) : Die :=
  let sl := homeSlice line
  let key := homeSet line
  let ts := tget [] d.llc key
  let own := ts.find? fun t => t.line == line
  let hit := own.isSome
  let (kind, n) := d.need line
  let old := match own with
    | some t => some t.sectors
    | none => if write && full then none else some before
  let grows := write && (match old with
    | some o => o < n
    | none => false)
  let shrinks := write && (match old with
    | some o => n < o
    | none => false)
  let (rest, out) := evictFor n 16 (ts.filter fun t => t.line != line)
  let dirty := write || (match own with
    | some t => t.dirty
    | none => false)
  let tag : LlcTag := { line, kind, sectors := n, dirty, age := d.llcAge }
  let d := { d with llc := tset d.llc key (tag :: rest), llcAge := d.llcAge + 1 }
  let d := if hit then d.count sl cHits 1 else d.count sl cMisses 1
  let d := if !hit && !(write && full) then d.count sl cFills 1 else d
  let d := d.count sl cWback (out.filter fun t => t.dirty).length
  let d := if grows then (d.count sl cExpand 1).count sl cExpEvict out.length else d
  let d := if shrinks then d.count sl cShrink 1 else d
  d.count sl cEvict out.length

/-- The lines a range touches. -/
def linesOf (pa n : Nat) : List Nat :=
  if n = 0 then [] else (List.range ((pa + n - 1) / 128 - pa / 128 + 1)).map fun i => pa / 128 + i

/-- Read bytes at die scope (R344). -/
def Die.read (d : Die) (pa n : Nat) : List Byte × Die :=
  (d.mem.load pa n, (linesOf pa n).foldl (fun d l => d.llcOp l false false (d.need l).2) d)

/-- Insert a number into a rising list. -/
def addSorted (x : Nat) (l : List Nat) : List Nat := l.filter (· < x) ++ x :: l.filter (x < ·)

/-- Write one line's bytes at its home slice; the words refused by R334 are answered. -/
def Die.writeLine (d : Die) (line : Nat) (cs : List DieCell) : Die × List Nat :=
  let before := (d.need line).2
  let words := (List.range 4).map fun i => 128 * line + 32 * i
  let touched := words.filter fun w => cs.any fun c => c.pa / 32 * 32 == w
  let covers (w : Nat) : Bool := (List.range 32).all fun i => cs.any fun c => c.pa == w + i && c.mask == 0xFF
  let bad := touched.filter fun w => d.poison.contains w && !covers w
  let good := cs.filter fun c => !bad.contains (c.pa / 32 * 32)
  let old := d.mem.load (128 * line) 128
  let new := old.zipIdx.map fun (b, i) =>
    good.foldl (fun b c => if c.pa = 128 * line + i then (b &&& ~~~c.mask) ||| (c.val &&& c.mask) else b) b
  let d1 := { d with mem := d.mem.store (128 * line) new, poison := d.poison.filter fun w => !(touched.contains w && covers w) }
  let d2 := d1.llcOp line true (words.all covers) before
  (bad.foldl Die.refuse d2, bad)

/-- Distinct lines of some cells, in order of first appearance. -/
def cellLines (cs : List DieCell) : List Nat := (cs.map fun c => c.pa / 128).eraseDups

/-- Write bytes at die scope; answers the words refused (R332 to R334). -/
def Die.write (d : Die) (cs : List DieCell) : Die × List Nat :=
  (cellLines cs).foldl (fun (acc : Die × List Nat) l =>
    let r := acc.1.writeLine l (cs.filter fun c => c.pa / 128 == l)
    (r.1, acc.2 ++ r.2)) (d, [])

/-- Whole bytes from an address up. -/
def dieBytes (pa : Nat) (bs : List Byte) : List DieCell := bs.zipIdx.map fun (b, i) => ⟨pa + i, b, 0xFF⟩

def State.dieRead (s : State) (pa n : Nat) : List Byte × State :=
  let r := s.die.read pa n
  (r.1, { s with die := r.2 })

def State.dieWrite (s : State) (cs : List DieCell) : State × List Nat :=
  let r := s.die.write cs
  ({ s with die := r.1 }, r.2)

/-- A little-endian number at a home slice. -/
def State.dieNat (s : State) (pa n : Nat) : Nat × State :=
  let r := s.dieRead pa n
  (bytesNat r.1, r.2)

/-- Write a little-endian number at die scope. -/
def State.diePut (s : State) (pa n v : Nat) : State := (s.dieWrite (dieBytes pa (natBytes n v))).1

/-- A number held in memory, read without an operation of a slice (what the state holds, for the device's own bookkeeping). -/
def State.peek (s : State) (pa n : Nat) : Nat := bytesNat (s.die.mem.load pa n)

/-- Change a little-endian number at its home slice in one operation, a read-modify-write (R329, R348); the word refused, if any,
is answered. -/
def State.dieChange (s : State) (pa n : Nat) (f : Nat → Nat) : State × List Nat :=
  s.dieWrite (dieBytes pa (natBytes n (f (s.peek pa n))))

/-- A control block is read at its home slices, once (R324, R349): the slices' operations; its bytes are those that stand there. -/
def State.noteRead (s : State) (pa n : Nat) : State := (s.dieRead pa n).2

/-- A counter as a load reads it (R330): the gauges are the tags and sectors in use. -/
def Die.counter (d : Die) (slice c : Nat) : Nat :=
  let sets := d.llc.filter fun p => p.1 / 1536 == slice
  if c = cSectors then sets.foldl (fun a p => a + setSectors p.2) 0
  else if c = cLines then sets.foldl (fun a p => a + p.2.length) 0
  else if c = cCtrl then 0
  else tget 0 d.counters (slice * 16 + c)

/-- CTRL with bit 0 set clears every counter, OVF bit and ERRADDR of the slice, at the end of the cycle (R286, R330). -/
def Die.clearCounters (d : Die) (slice : Nat) : Die := { d with clears := addSorted slice d.clears }

/-- A clear takes effect: what the cycle added is discarded, and the OVF bits set in it remain (R286, R330). -/
def Die.clearNow (d : Die) (slice : Nat) : Die :=
  let left := d.counters.filter fun p => p.1 / 16 ≠ slice
  { d with counters := if tget 0 d.ovfNow slice = 0 then left else tset left (slice * 16 + cOvf) (tget 0 d.ovfNow slice) }

/-- The end of a cycle: its clears take effect (R286, R330). -/
def Die.endCycle (d : Die) : Die :=
  if d.clears.isEmpty && d.ovfNow.isEmpty then d
  else { d.clears.foldl Die.clearNow d with clears := [], ovfNow := [] }

end Sys2Proof.Machine
end

