-- ==== Sys2Proof/Machine/Translate.lean ====
section
/-! DEFINITION. Address translation: the walk, the TLBs and the physical map (13 R335 to R342, 15 R362). -/

namespace Sys2Proof.Machine

/-- What an access needs (R337, R338). -/
inductive Acc where
  | read | write | fetch
  deriving DecidableEq, Repr

def causeFetch : Nat := 0x06
def causeData : Nat := 0x0A
def causeProtection : Nat := 0x0B
def causeTableInvalid : Nat := 0x30
def causeTablePoisoned : Nat := 0x31

/-- End of LPDDR-6 (R362). -/
def lpddrEnd : Nat := 0x60_0000_0000
def hostWinBase : Nat := 0x3E00_0000_0000
def hostWinEnd : Nat := 0x3F00_0000_0000
def devBase : Nat := 0x3F00_0000_0000
def devEnd : Nat := 0x3F00_0100_0000

/-- A physical address suits the attribute that maps it (R362). -/
def physOk (pa attr : Nat) : Bool :=
  match attr with
  | 0 => pa < lpddrEnd
  | 1 => devBase ≤ pa && pa < devEnd
  | _ => hostWinBase ≤ pa && pa < hostWinEnd

/-- The reserved bits of an entry are clear and its fields are possible at its level (R337, R338). -/
def entryOk (e level : Nat) : Bool :=
  let leaf := bit e 1
  bits e 63 59 = 0 && bits e 55 46 = 0 && bits e 11 5 = 0 && !(level = 0 && leaf) && !(level = 3 && !leaf) &&
    bits e 57 56 ≠ 3 && !(leaf && level = 2 && bits e 20 12 ≠ 0) && !(leaf && level = 1 && bits e 29 12 ≠ 0) &&
    !(bit e 58 && level ≠ 3) && (leaf || bits e 45 12 * 4096 < lpddrEnd)

/-- Bytes a leaf of a level maps (R336). -/
def leafSize (level : Nat) : Nat := 2 ^ (39 - 9 * level)

/-- Cause of a missing entry or permission (R338). -/
def missCause : Acc → Nat
  | .fetch => causeFetch
  | _ => causeData
def permCause : Acc → Nat
  | .fetch => causeFetch
  | _ => causeProtection

/-- Permission of an entry for an access (R338); a fetch needs normal memory (R65, R335). -/
def TlbEntry.permits (t : TlbEntry) : Acc → Bool
  | .read => t.r
  | .write => t.w
  | .fetch => t.x && t.attr = 0

/-- A leaf entry's translation of the page of a size that holds an address (R337). -/
def leafOf (asn va size e : Nat) : TlbEntry :=
  { asn, va := va / size * size, size, pa := bits e 45 12 * 4096, r := bit e 2, w := bit e 3, x := bit e 4, attr := bits e 57 56 }

/-- A leaf that permits an access, or the cause where it does not. -/
def TlbEntry.granted (t : TlbEntry) (acc : Acc) : Except Nat TlbEntry := if t.permits acc then .ok t else .error (permCause acc)

/-- The level-3 entries of the group that the entry at an address stands in; none where one is not usable (R338, R339). -/
def Die.groupAt (d : Die) (ea : Nat) : List (Option Nat) :=
  (List.range 16).map fun i =>
    let a := ea / 128 * 128 + 8 * i
    let e := bytesNat (d.mem.load a 8)
    if bit e 0 && (d.poisonIn a 8).isNone && entryOk e 3 then some e else none

/-- An entry marked CONTIG (R337). -/
def contigMark (e : Nat) : Bool := bit e 58

/-- Sixteen entries that map one aligned physical run in page order with the same rights (R339). -/
def groupWhole (es : List (Option Nat)) : Bool :=
  match es.headD none with
  | none => false
  | some e0 => bits e0 45 12 % 16 = 0 && es.zipIdx.all fun p => match p.1 with
    | none => false
    | some e => contigMark e && bits e 45 12 = bits e0 45 12 + p.2 && bits e 4 2 = bits e0 4 2 && bits e 57 56 = bits e0 57 56

/-- What a level-3 entry gives for an address, given what the entry alone says (R339): a whole group is held as one entry; a group
that marks break gives its own entry's answer or the base and rights of any valid entry of it (notes/assumptions/112). -/
def Die.groupLeaf (d : Die) (asn va : Nat) (acc : Acc) (ea : Nat) (own : Except Nat TlbEntry) : Except Nat TlbEntry :=
  let es := d.groupAt ea
  let valid := es.filterMap id
  if groupWhole es then { leafOf asn va 65536 ((es.headD none).getD 0) with size := 65536 }.granted acc
  else if valid.any contigMark then
    match valid[Config.freePick d.llcAge va % (valid.length + 1)]? with
    | some e => (leafOf asn va 4096 e).granted acc
    | none => own
  else own

/-- The walk from a node at a level down, by levels left (R336, R338, R339). -/
def Die.walkFrom (d : Die) (asn va : Nat) (acc : Acc) (node level : Nat) : Nat → Except Nat TlbEntry × Die
  | 0 => (.error causeTableInvalid, d)
  | k + 1 =>
    let ea := node + 8 * (va / leafSize level % 512)
    if (d.poisonIn ea 8).isSome then (.error causeTablePoisoned, d)
    else
      let (bs, d1) := d.read ea 8
      let e := bytesNat bs
      if level = 3 then
        (d1.groupLeaf asn va acc ea (if !bit e 0 then .error (missCause acc) else if !entryOk e level then .error causeTableInvalid
          else (leafOf asn va 4096 e).granted acc), d1)
      else if !bit e 0 then (.error (missCause acc), d1)
      else if !entryOk e level then (.error causeTableInvalid, d1)
      else if bit e 1 then ((leafOf asn va (leafSize level) e).granted acc, d1)
      else d1.walkFrom asn va acc (bits e 45 12 * 4096) (level + 1) k

/-- A walk of an address space (R336): failed walks cache nothing (R340). -/
def State.walk (s : State) (asn va : Nat) (acc : Acc) : Except Nat TlbEntry × State :=
  let r := s.die.walkFrom asn va acc (s.part asn).ptroot 0 4
  (r.1, { s with die := r.2 })

/-- An entry maps an address of an address space. -/
def TlbEntry.maps (t : TlbEntry) (asn va : Nat) : Bool := t.asn = asn && t.va ≤ va && va < t.va + t.size

/-- Second-level set of an entry (R340). -/
def tlbSet (t : TlbEntry) : Nat := t.va / 4096 % 1024

/-- Put an entry at the front of a second-level TLB: 8 ways a set, least recently used out (R340). -/
def tlb2Insert (l : List TlbEntry) (t : TlbEntry) : List TlbEntry :=
  let rest := l.filter (· != t)
  let same := (rest.filter fun u => tlbSet u = tlbSet t).take 7
  t :: (rest.filter fun u => tlbSet u ≠ tlbSet t || same.contains u)

/-- Put an entry at the front of a first-level TLB of 512 (R171). -/
def tlb1Insert (l : List TlbEntry) (t : TlbEntry) : List TlbEntry := (t :: l.filter (· != t)).take 512

/-- Note the use of a translation in the TLBs of a core and its cluster. -/
def State.tlbFill (s : State) (core : Nat) (t : TlbEntry) (second : Bool) : State :=
  let c := s.core core
  let s := s.setCore core { c with tlb := tlb1Insert c.tlb t }
  if second then
    let k := s.cluster (clusterOf core)
    s.setCluster (clusterOf core) { k with tlb := tlb2Insert k.tlb t }
  else s

/-- A physical place with its attribute. -/
structure Phys where
  pa   : Nat
  attr : Nat
  deriving DecidableEq, Repr

/-- The place an entry gives an address, with the checks of R338 and R362. -/
def TlbEntry.place (t : TlbEntry) (va : Nat) (acc : Acc) : Except Nat Phys :=
  if !t.permits acc then .error (permCause acc)
  else
    let pa := t.pa + (va - t.va)
    if physOk pa t.attr then .ok ⟨pa, t.attr⟩ else .error (missCause acc)

/-- Translate through a core's TLBs and the walkers (R171, R340). -/
def State.translate (s : State) (core asn va : Nat) (acc : Acc) : Except Nat Phys × State :=
  if 2 ^ 48 ≤ va then (.error (missCause acc), s)
  else
    match (s.core core).tlb.find? fun t => t.maps asn va with
    | some t => (t.place va acc, s.tlbFill core t false)
    | none =>
      match (s.cluster (clusterOf core)).tlb.find? fun t => t.maps asn va with
      | some t => (t.place va acc, s.tlbFill core t true)
      | none =>
        match s.walk asn va acc with
        | (.error c, s1) => (.error c, s1)
        | (.ok t, s1) => (t.place va acc, s1.tlbFill core t true)

/-- A translation that has just failed failed for its place alone: an entry maps the address and permits the access, but to a
place that is not of its kind (R362). -/
def State.misplaced (s : State) (core asn va : Nat) (acc : Acc) : Bool :=
  ((s.core core).tlb.find? fun t => t.maps asn va).any fun t => t.permits acc && !physOk (t.pa + (va - t.va)) t.attr

/-- Translate by a die walker, for the agents outside the cores (R340, R394). -/
def State.translateDie (s : State) (asn va : Nat) (acc : Acc) : Except Nat Phys × State :=
  if 2 ^ 48 ≤ va then (.error causeData, s)
  else
    match s.walk asn va acc with
    | (.error c, s1) => (.error c, s1)
    | (.ok t, s1) => (t.place va acc, s1)

/-- The address space, first page and page count an invalidation names (R342). -/
def invalAsn (v : Nat) : Nat := bits v 62 60
def invalMeets (v : Nat) (t : TlbEntry) : Bool :=
  t.asn = invalAsn v &&
    (bit v 63 || (bits v 47 12 * 4096 < t.va + t.size && t.va < (bits v 47 12 + bits v 59 48 + 1) * 4096))

/-- Drop from every TLB of the die the entries that an invalidation meets (R342). -/
def State.tlbDropMatching (s : State) (v : Nat) : State :=
  { s with
    cores := s.cores.map fun c => { c with tlb := c.tlb.filter fun t => !invalMeets v t }
    die := { s.die with clusters := s.die.clusters.map fun k => { k with tlb := k.tlb.filter fun t => !invalMeets v t } } }

end Sys2Proof.Machine
end

