-- ==== Sys2Proof/Machine/BlockCache.lean ====
section
/-! DEFINITION. Virtual memory as one core sees it: the block cache (05 R168 to R170), its fill and write-back rules
(13 R332, R345, R346), device registers and host windows (R335, R406). A copy marked stale is filled afresh before a byte
this core has not written is used (notes/assumptions/12). -/

namespace Sys2Proof.Machine

/-- A failed memory access: its cause, the address to record, and the virtual address or offset of the failing byte, by which
the lowest is found (R196; the address recorded for poison is a physical one, R120). -/
structure MemFault where
  cause : Nat
  addr  : Nat
  byte  : Nat
  deriving DecidableEq, Repr

/-- A failure whose byte is the address recorded. -/
def memFault (cause a : Nat) : MemFault := ⟨cause, a, a⟩

def causePoisoned : Nat := 0x12
def causeRmw : Nat := 0x13

/-- The block tag that covers a virtual line (R168). -/
def Core.blockOf (c : Core) (asn vline : Nat) : Option BlockTag :=
  c.blocks.find? fun t => t.asn = asn && t.first ≤ vline && vline < t.first + t.count

/-- The physical line that a virtual line is held as: that of the tag it hits, else its own translation's (R168). -/
def Core.linePlace (c : Core) (asn vline pline : Nat) : Nat := match c.blockOf asn vline with
  | some t => t.plines.getD (vline - t.first) pline
  | none => pline

def Core.lineOf (c : Core) (pline : Nat) : Option BlockLine := c.lines.find? fun l => l.pline = pline

/-- Replace or add a line. -/
def Core.putLine (c : Core) (l : BlockLine) : Core := { c with lines := l :: c.lines.filter fun m => m.pline ≠ l.pline }

/-- The dirty bytes of a line as a write-back carries them (R332). -/
def BlockLine.dirtyCells (l : BlockLine) : List DieCell :=
  (l.data.zipIdx.filter fun p => l.dirty.getLsbD p.2).map fun (b, i) => ⟨128 * l.pline + i, b, 0xFF⟩

/-- The imprecise fault of a store whose bytes a read-modify-write could not merge (R120, R277). -/
def Writer.rmwFault (w : Writer) (pa : Nat) : Fault1 :=
  { cause := causeRmw, origin := w.origin, pc := w.pc, word := w.word, aux := 0, addr := some pa, straddle := false,
    imprecise := true, redo := none, cbsel := none, seqPart := none }

/-- The writer of a word that a write-back could not merge receives the fault (R334): `l` is the line as written back. -/
def Core.blameWord (k : Core) (ls : List BlockLine) (word : Nat) : Core :=
  match ls.find? fun l => l.pline = word / 128 with
  | none => k
  | some l =>
    match l.writers.find? fun p => p.1 = word % 128 / 32 with
    | none => k
    | some (_, w) =>
      let c := k.slot w.slot
      let i := ((List.range 32).find? fun i => l.dirty.getLsbD (word % 128 + i)).getD 0
      k.setSlot w.slot { c with faults := c.faults ++ [w.rmwFault (word + i)] }

/-- Write back the dirty bytes of some lines of a core; the writers of the words refused learn of it (R170, R332, R334). -/
def State.writeBack (s : State) (core : Nat) (sel : Nat → Bool) : State :=
  let c := s.core core
  let out := c.lines.filter fun l => sel l.pline && l.dirty ≠ 0
  let (s1, bad) := s.dieWrite (out.flatMap BlockLine.dirtyCells)
  let c1 := { c with lines := c.lines.map fun l => if sel l.pline then { l with dirty := 0, writers := [] } else l }
  s1.setCore core (bad.foldl (fun k w => k.blameWord out w) c1)

/-- Write back every dirty byte of a core. -/
def State.writeBackAll (s : State) (core : Nat) : State := s.writeBack core fun _ => true

/-- Mark every copy of a core for refill before its next use (R345). -/
def State.markStale (s : State) (core : Nat) : State :=
  let c := s.core core
  s.setCore core { c with lines := c.lines.map fun l => { l with stale := true } }

/-- Drop a block: write its lines back and forget those no other block holds (R169, R170). -/
def State.evictBlock (s : State) (core : Nat) (t : BlockTag) : State :=
  let s := s.writeBack core fun p => t.plines.contains p
  let c := s.core core
  let rest := c.blocks.filter (· != t)
  s.setCore core { c with
    blocks := rest
    lines := c.lines.filter fun l => !t.plines.contains l.pline || rest.any fun u => u.plines.contains l.pline }

/-- Frames in use. -/
def Core.frames (c : Core) : Nat := c.blocks.foldl (fun a t => a + t.count) 0

/-- Fill a line from its home slice, keeping the bytes this core has written (R345). -/
def State.fillLine (s : State) (core pline : Nat) : State :=
  let (bs, s) := s.dieRead (128 * pline) 128
  let c := s.core core
  let l : BlockLine := match c.lineOf pline with
    | some l => { l with data := (bs.zip l.data).zipIdx.map (fun p => if l.dirty.getLsbD p.2 then p.1.2 else p.1.1), stale := false }
    | none => { pline, data := bs, dirty := 0, stale := false, writers := [] }
  s.setCore core (c.putLine l)

/-- The missing lines of a block fill in ascending order, and its completion flag is set (R169). -/
def State.fillBlock (s : State) (core : Nat) (t : BlockTag) : State :=
  let s := t.plines.foldl (fun s p => if ((s.core core).lineOf p).isSome then s else s.fillLine core p) s
  let c := s.core core
  s.setCore core { c with blocks := c.blocks.map fun u => if u = t then { u with complete := true } else u }

/-- The oldest of some blocks (R169). -/
def oldestBlock (ts : List BlockTag) : Option BlockTag :=
  ts.foldl (fun (acc : Option BlockTag) t => match acc with
    | none => some t
    | some v => if t.age < v.age then some t else some v) none

/-- Make room for a block of `n` lines: evict whole complete blocks, oldest first; where there is none, wait for the oldest fill to
complete (R169; notes/assumptions/12). -/
def State.makeRoom (s : State) (core n : Nat) : Nat → State
  | 0 => s
  | k + 1 =>
    let c := s.core core
    if c.blocks.length < 256 && c.frames + n ≤ 2048 then s
    else match oldestBlock (c.blocks.filter fun t => t.complete) with
      | some v => (s.evictBlock core v).makeRoom core n k
      | none => match oldestBlock c.blocks with
        | some v => (s.fillBlock core v).makeRoom core n k
        | none => s

/-- Allocate a block of lines already translated, its fill begun (R169): `complete` when it is done at once. -/
def State.allocBlock (s : State) (core asn first : Nat) (plines : List Nat) (complete : Bool) : State :=
  let s := s.makeRoom core plines.length 512
  let c := s.core core
  s.setCore core { c with
    blocks := { asn, first, count := plines.length, complete, age := c.ageNext, plines } :: c.blocks
    ageNext := c.ageNext + 1 }

/-- The block that covers a virtual line, if there is one, is filled. -/
def State.completeBlock (s : State) (core asn vline : Nat) : State :=
  match (s.core core).blockOf asn vline with
  | none => s
  | some t => s.fillBlock core t

/-- A line is in the cache, its block complete and renewed, and fresh for a load (R168, R169, R170, R345): `pline` is the physical
line it is held as. -/
def State.touchLine (s : State) (core asn vline pline : Nat) (load : Bool) : State :=
  let c := s.core core
  let s := match c.blockOf asn vline with
    | some t =>
      let s := s.setCore core { c with
        blocks := c.blocks.map (fun u => if u = t then { u with age := c.ageNext } else u), ageNext := c.ageNext + 1 }
      if t.complete then s else s.completeBlock core asn vline
    | none => s.allocBlock core asn vline [pline] true
  match (s.core core).lineOf pline with
  | some l => if load && l.stale then s.fillLine core pline else s
  | none => s.fillLine core pline

/-- Bytes of one line through the cache: the line must be touched first. -/
def Core.lineBytes (c : Core) (pline off n : Nat) : List Byte :=
  match c.lineOf pline with
  | some l => (l.data.drop off).take n
  | none => []

/-- Bytes of normal memory through the block cache, within one 4 KiB page; `va` and `pa` agree in their low bits. -/
def State.cacheRead (s : State) (core asn va pa : Nat) : Nat → Nat → List Byte × State
  | 0, _ => ([], s)
  | k + 1, n =>
    if n = 0 then ([], s)
    else
      let m := min n (128 - pa % 128)
      let p := (s.core core).linePlace asn (va / 128) (pa / 128)
      let s1 := s.touchLine core asn (va / 128) p true
      let bs := (s1.core core).lineBytes p (pa % 128) m
      let r := s1.cacheRead core asn (va + m) (pa + m) k (n - m)
      (bs ++ r.1, r.2)

/-- Lines a run of bytes touches, at most. -/
def lineFuel (n : Nat) : Nat := n / 128 + 2

/-- Poison that a core's read of bytes of one line meets: a poisoned word with a read byte that this core has not written (R120). -/
def State.linePoison (s : State) (core pa n : Nat) : Option Nat :=
  let c := s.core core
  s.die.poison.find? fun w => (List.range 32).any fun i =>
    pa ≤ w + i && w + i < pa + n &&
      (match c.lineOf ((w + i) / 128) with
        | some l => !l.dirty.getLsbD ((w + i) % 128)
        | none => true)

/-- The first poisoned byte that a core's read of a range meets (R120), its virtual and its physical address, line by line, each where
the cache holds it. -/
def State.readPoison (s : State) (core asn va pa : Nat) : Nat → Nat → Option (Nat × Nat)
  | 0, _ => none
  | k + 1, n =>
    if n = 0 then none
    else
      let m := min n (128 - pa % 128)
      let at_ := 128 * (s.core core).linePlace asn (va / 128) (pa / 128) + pa % 128
      match s.linePoison core at_ m with
      | some w => some (va + (max w at_ - at_), max w at_)
      | none => s.readPoison core asn (va + m) (pa + m) k (n - m)

/-- Write one byte of a touched line, under a bit mask (R196, R332). -/
def Core.pokeByte (c : Core) (who : Option Writer) (pa : Nat) (v mask : Byte) : Core :=
  match c.lineOf (pa / 128) with
  | none => c
  | some l =>
    let i := pa % 128
    let old := l.data.getD i 0
    let ws := l.writers.filter fun p => p.1 ≠ i / 32
    c.putLine { l with data := l.data.set i ((old &&& ~~~mask) ||| (v &&& mask)), dirty := l.dirty ||| (1 <<< i : BitVec 128)
                       writers := match who with
                         | some w => (i / 32, w) :: ws
                         | none => ws }

/-- Cells at the places their lines are held at (R168). -/
def Core.placed (k : Core) (asn : Nat) (cs : List StoreCell) : List StoreCell :=
  cs.map fun c => { c with pa := 128 * k.linePlace asn (c.va / 128) (c.pa / 128) + c.pa % 128 }

/-- Every byte of an ECC word is written whole by some placed cells or already by this core, so that nothing is read to merge it
(R333). -/
def Core.wordCovered (k : Core) (cs : List StoreCell) (word : Nat) : Bool :=
  (List.range 32).all fun i => cs.any (fun c => c.pa = word + i && c.mask = 0xFF) ||
    (match k.lineOf (word / 128) with
      | some l => l.dirty.getLsbD ((word + i) % 128)
      | none => false)

/-- Put a cell before those of higher addresses. -/
def insertCell (x : StoreCell) : List StoreCell → List StoreCell
  | [] => [x]
  | y :: ys => if x.va ≤ y.va then x :: y :: ys else y :: insertCell x ys

/-- The cells of a store that lie in words its read-modify-write may not merge (R120, R334), the lowest first (R196). -/
def State.refusedCells (s : State) (core : Nat) (placed : List StoreCell) : List StoreCell :=
  ((placed.filter fun x => s.die.poison.contains (x.pa / 32 * 32)).filter fun x =>
    !(s.core core).wordCovered placed (x.pa / 32 * 32)).foldr insertCell []

/-- One line's cells of a store are performed: the line is in the cache, and takes them (R170, R172); bits are merged into a byte read
afresh where the copy is stale (R196, R345). Each line is an access of its own, so that the bytes written stand in their line whatever
the next one evicts (R169). -/
def State.writeLine (s : State) (core asn : Nat) (who : Option Writer) (cs : List StoreCell) (vline : Nat) : State :=
  let mine := (s.core core).placed asn (cs.filter fun c => c.va / 128 = vline)
  match mine with
  | [] => s
  | x :: _ =>
    let s1 := s.touchLine core asn vline (x.pa / 128) (mine.any fun c => c.mask ≠ 0xFF)
    s1.setCore core (mine.foldl (fun k x => k.pokeByte who x.pa x.val x.mask) (s1.core core))

/-- A store's bytes are performed at core scope (R170, R172). Where its read-modify-write may not merge an ECC word, no byte of the
store is written, and the first bytes of such words are answered by their physical addresses, the lowest first (R120, R196, R334). -/
def State.cacheWrite (s : State) (core asn : Nat) (cs : List StoreCell) (who : Option Writer := none) : State × List Nat :=
  match s.refusedCells core ((s.core core).placed asn cs) with
  | [] => (((cs.map fun c => c.va / 128).eraseDups).foldl (fun s l => s.writeLine core asn who cs l) s, [])
  | bad =>
    let firsts := bad.foldl (fun (l : List Nat) x => if l.any fun a => a / 32 = x.pa / 32 then l else l ++ [x.pa]) []
    ({ s with die := firsts.foldl (fun d a => d.refuse (a / 32 * 32)) s.die }, firsts)

/-- One piece of a range: virtual address, place and length. -/
structure Piece where
  va  : Nat
  ph  : Phys
  len : Nat
  deriving DecidableEq, Repr

/-- Translate a range page by page; the first failing byte is answered (R196, R338). -/
def State.translateRange (s : State) (core asn va : Nat) (acc : Acc) : Nat → Nat → Except MemFault (List Piece) × State
  | 0, _ => (.ok [], s)
  | k + 1, n =>
    if n = 0 then (.ok [], s)
    else
      let m := min n (4096 - va % 4096)
      match s.translate core asn va acc with
      | (.error c, s1) => (.error (memFault c va), s1)
      | (.ok ph, s1) =>
        match s1.translateRange core asn (va + m) acc k (n - m) with
        | (.error f, s2) => (.error f, s2)
        | (.ok ps, s2) => (.ok (⟨va, ph, m⟩ :: ps), s2)

/-- Pages a run of bytes touches, at most. -/
def pageFuel (n : Nat) : Nat := n / 4096 + 2

/-- The host window and offset of a physical address in the window range (R406). -/
def winIndex (pa : Nat) : Nat := (pa - hostWinBase) / 2 ^ 30
def winOff (pa : Nat) : Nat := (pa - hostWinBase) % 2 ^ 30

/-- The host address of a window access, or PROTECTION (R406). -/
def State.winAddr (s : State) (part pa n : Nat) : Option Nat :=
  match s.host.windows.find? fun p => p.1 = winIndex pa with
  | none => none
  | some (_, w) => if w.part = part && winOff pa + n ≤ w.len then some (w.base + winOff pa) else none

/-- The window behind a piece admits the access (R406). -/
def State.winCheck (s : State) (part : Nat) (p : Piece) : Option MemFault :=
  if p.ph.attr = 2 && (s.winAddr part p.ph.pa p.len).isNone then some (memFault causeProtection p.va) else none

/-- Read the bytes of a piece of normal memory or of a host window. -/
def State.readPiece (s : State) (core asn : Nat) (p : Piece) : List Byte × State :=
  if p.ph.attr = 2 then
    (match s.winAddr asn p.ph.pa p.len with
      | some a => (s.host.mem.load a p.len, s)
      | none => (List.replicate p.len 0, s))
  else s.cacheRead core asn p.va p.ph.pa (lineFuel p.len) p.len

/-- Read the bytes of some pieces in order. -/
def State.readPieces (s : State) (core asn : Nat) : List Piece → List Byte × State
  | [] => ([], s)
  | p :: ps =>
    let (bs, s1) := s.readPiece core asn p
    let (cs, s2) := s1.readPieces core asn ps
    (bs ++ cs, s2)

/-- First fault of some pieces beyond translation: device space where `dev` is false (R335), a window (R406), and poison
where `poison` is asked for (R120). -/
def State.pieceFault (s : State) (core asn : Nat) (dev poison : Bool) : List Piece → Option MemFault
  | [] => none
  | p :: ps =>
    if p.ph.attr = 1 && !dev then some (memFault causeProtection p.va)
    else match s.winCheck asn p with
      | some f => some f
      | none =>
        match (if poison && p.ph.attr = 0 then s.readPoison core asn p.va p.ph.pa (lineFuel p.len) p.len else none) with
        | some (va, pa) => some ⟨causePoisoned, pa, va⟩
        | none => s.pieceFault core asn dev poison ps

/-- The cells of a store to some pieces, its bytes and masks in order. -/
def pieceCells : List Piece → List (Byte × Byte) → List StoreCell
  | [], _ => []
  | p :: ps, bs =>
    ((bs.take p.len).zipIdx.map fun (b, i) => { va := p.va + i, pa := p.ph.pa + i, val := b.1, mask := b.2 }) ++
      pieceCells ps (bs.drop p.len)

/-- Perform a store's cells where they belong: normal memory through the cache, a host window at the host (R335). -/
def State.performCells (s : State) (core asn : Nat) (cs : List StoreCell) (who : Option Writer := none) : State × List Nat :=
  let (s1, bad) := s.cacheWrite core asn (cs.filter fun c => c.pa < lpddrEnd && c.mask ≠ 0) who
  let s2 := if !bad.isEmpty then s1 else (cs.filter fun c => hostWinBase ≤ c.pa && c.pa < hostWinEnd).foldl (fun s c =>
    match s.winAddr asn c.pa 1 with
    | some a => { s with host := { s.host with mem := s.host.mem.writeBits a c.val c.mask } }
    | none => s) s1
  (s2, bad)

/-- One LDBLK's range: equal to a block, it renews it; otherwise every overlapped block goes first (R169). -/
def State.declareBlock (s : State) (core asn first : Nat) (plines : List Nat) : State :=
  let c := s.core core
  match c.blocks.find? fun t => t.asn = asn && t.first = first && t.count = plines.length with
  | some t =>
    s.setCore core { c with
      blocks := c.blocks.map (fun u => if u = t then { u with age := c.ageNext } else u), ageNext := c.ageNext + 1 }
  | none =>
    let excess := c.blocks.filter fun t => t.asn = asn && t.first < first + plines.length && first < t.first + t.count
    let s := excess.foldl (fun s t =>
      let s := s.completeBlock core asn t.first
      match (s.core core).blockOf asn t.first with
      | some u => s.evictBlock core u
      | none => s) s
    s.allocBlock core asn first plines false

/-- Scratchpad bytes of a core from a physical offset (R150). -/
def State.spadRead (s : State) (core off n : Nat) : List Byte := (s.core core).spad.load off n

/-- Write scratchpad bytes under bit masks. -/
def State.spadWrite (s : State) (core : Nat) (cs : List (Nat × Byte × Byte)) : State :=
  let c := s.core core
  s.setCore core { c with spad := cs.foldl (fun (m : Mem) x => m.writeBits x.1 x.2.1 x.2.2) c.spad }

/-- Write whole scratchpad bytes from an offset. -/
def State.spadPut (s : State) (core off : Nat) (bs : List Byte) : State :=
  let c := s.core core
  s.setCore core { c with spad := c.spad.store off bs }

end Sys2Proof.Machine
end

