-- ==== Sys2Proof/Machine/Region.lean ====
section
/-! DEFINITION. Regions: the region table and region control blocks in memory, effective values, usage and STATE
(12 R304 to R306; 13 R352). The device reads and writes them at their home slices (R349). -/

namespace Sys2Proof.Machine

/-- The physical place of a virtual address of a partition as a walker finds it: normal memory only (R340, R349). -/
def State.vaLook (s : State) (part va : Nat) (acc : Acc) : Option Nat :=
  match (s.translateDie part va acc).1 with
  | .ok ph => if ph.attr = 0 then some ph.pa else none
  | .error _ => none

/-- A walker's walk for an address, with its operations at the home slices (R324, R336). -/
def State.walked (s : State) (part va : Nat) (acc : Acc) : State := (s.translateDie part va acc).2

/-- An agent outside the cores reads a block at its home slices: the walk and the slices' operations (R324, R349). What it reads is what
stands there. -/
def State.visit (s : State) (part va n : Nat) : State :=
  match s.vaLook part va .read with
  | some pa => (s.walked part va .read).noteRead pa n
  | none => s.walked part va .read

/-- A little-endian number at a virtual address, within a page. -/
def State.vaNat (s : State) (part va n : Nat) : Option Nat := (s.vaLook part va .read).map fun pa => s.peek pa n

/-- Write a number at a virtual address at die scope; a page that may not be written takes nothing (R8). -/
def State.vaPut (s : State) (part va n v : Nat) : State :=
  match s.vaLook part va .write with
  | some pa => (s.walked part va .write).diePut pa n v
  | none => s.walked part va .write

/-- What the device holds of a region. -/
def State.region (s : State) (part i : Nat) : Option RegionDev := s.die.regions.find? fun r => r.part = part && r.index = i

/-- RCB address of region `i` of a partition; 0 for a free index (R352). -/
def State.rgnEntry (s : State) (part i : Nat) : Nat := ((s.region part i).map (·.rcb)).getD 0

/-- A live region index (R306, R352). -/
def State.rgnLive (s : State) (part i : Nat) : Bool := (s.region part i).isSome

/-- A field of a region's RCB in memory (R304). -/
def State.rgnField (s : State) (part i off n : Nat) : Nat := (s.vaNat part (s.rgnEntry part i + off) n).getD 0

/-- Write a field of a region's RCB in memory. -/
def State.rgnPut (s : State) (part i off n v : Nat) : State :=
  if s.rgnLive part i then s.vaPut part (s.rgnEntry part i + off) n v else s

/-- Fields of an RCB: offset and width in bytes (R304). -/
abbrev RcbField := Nat × Nat

def fIndex : RcbField := (0x00, 2)
def fParent : RcbField := (0x02, 2)
def fState : RcbField := (0x04, 1)
def fReason : RcbField := (0x05, 1)
def fOvr : RcbField := (0x06, 2)
def fPrio : RcbField := (0x08, 1)
def fDomain : RcbField := (0x09, 1)
def fCtxb : RcbField := (0x0A, 2)
def fPliesb : RcbField := (0x0C, 4)
def fSpadb : RcbField := (0x10, 8)
def fMemb : RcbField := (0x18, 8)
def fTvec : RcbField := (0x20, 8)
def fFramebase : RcbField := (0x28, 8)
def fSavebase : RcbField := (0x30, 8)
def fTimecmp : RcbField := (0x38, 8)
def fTimer : RcbField := (0x40, 1)
def fPreempt : RcbField := (0x41, 1)
def fProfslots : RcbField := (0x42, 2)
def fProfdepth : RcbField := (0x44, 1)
def fProfflags : RcbField := (0x45, 1)
def fProfbase : RcbField := (0x48, 8)
def fCq : RcbField := (0x50, 8)
def fUsectx : RcbField := (0x60, 2)
def fUseplies : RcbField := (0x64, 4)
def fUsespad : RcbField := (0x68, 8)
def fUsemem : RcbField := (0x70, 8)
def fLive : RcbField := (0x78, 4)
def fNfault : RcbField := (0x7C, 4)
def fNkill : RcbField := (0x80, 4)
def fNrej : RcbField := (0x84, 4)
def fLostj : RcbField := (0x88, 4)

/-- The fields software writes, and those the device writes (R304). A reserved field of the block is ignored
(notes/assumptions/117). -/
def rcbSoftware : List RcbField :=
  [fOvr, fPrio, fDomain, fCtxb, fPliesb, fSpadb, fMemb, fTvec, fFramebase, fSavebase, fTimecmp, fTimer, fPreempt, fProfslots,
   fProfdepth, fProfflags, fProfbase, fCq]
def rcbDevice : List RcbField :=
  [fIndex, fParent, fState, fReason, fUsectx, fUseplies, fUsespad, fUsemem, fLive, fNfault, fNkill, fNrej, fLostj]

/-- A field of a region: the device's own for a field it writes, else what stands in the RCB (R304). -/
def State.rgnGet (s : State) (part i : Nat) (f : RcbField) : Nat :=
  if rcbDevice.contains f then ((s.region part i).map fun r => tget 0 r.fields f.1).getD 0 else s.rgnField part i f.1 f.2

/-- Write a field of a region, in its RCB too. -/
def State.rgnSetField (s : State) (part i : Nat) (f : RcbField) (v : Nat) : State :=
  let d := s.die
  let s1 := if rcbDevice.contains f then
      { s with die := { d with regions := d.regions.map fun r =>
          if r.part = part && r.index = i then { r with fields := tset r.fields f.1 v } else r } }
    else s
  s1.rgnPut part i f.1 f.2 v

/-- Software's part of an RCB, at the head of the block (R304). -/
def rcbHead : Nat := 0x60

/-- The RCBs on a region's path are read at their home slices, for its effective values (R305, R324, R349). -/
def State.visitPath (s : State) (part : Nat) (path : List Nat) : State :=
  path.foldl (fun s i => s.visit part (s.rgnEntry part i) rcbHead) s

def stIdle : Nat := 0
def stActive : Nat := 1
def stRejected : Nat := 2
def stFaulted : Nat := 3
def stKilled : Nat := 4

/-- A region and its ancestors, itself first. -/
def State.rgnPathFrom (s : State) (part : Nat) : Nat → Nat → List Nat
  | 0, _ => []
  | k + 1, i =>
    if !s.rgnLive part i then []
    else
      let p := s.rgnGet part i fParent
      if p = 0xFFFF || p = i then [i] else i :: s.rgnPathFrom part k p

def State.rgnPath (s : State) (part i : Nat) : List Nat := s.rgnPathFrom part (s.part part).rgncnt i

/-- A live region in the subtree of another (R301). -/
def State.rgnWithin (s : State) (part root i : Nat) : Bool := (s.rgnPath part i).contains root

/-- Override bit of an inheritable field (R304). -/
def ovrBit (f : RcbField) : Option Nat :=
  if f = fCtxb then some 0 else if f = fPliesb then some 1 else if f = fSpadb then some 2
  else if f = fMemb then some 3 else if f = fPrio then some 4 else if f = fDomain then some 5 else none

/-- The effective value along a path, itself first (R305): the whole of each byte field, reserved bits that a store set in it
included (R4; notes/assumptions/117). -/
def State.rgnEffOn (s : State) (part : Nat) (f : RcbField) (b : Nat) : List Nat → Nat
  | [] => 0
  | [i] => s.rgnGet part i f
  | i :: rest => if bit (s.rgnGet part i fOvr) b then s.rgnGet part i f else s.rgnEffOn part f b rest

/-- The effective value of a field of a region (R305). -/
def State.rgnEff (s : State) (part i : Nat) (f : RcbField) : Nat :=
  match ovrBit f with
  | some b => s.rgnEffOn part f b (s.rgnPath part i)
  | none => s.rgnGet part i f

/-- Add to a usage field of a region and its ancestors (R304, R305). -/
def State.rgnCharge (s : State) (part i : Nat) (f : RcbField) (n : Nat) : State :=
  (s.rgnPath part i).foldl (fun s j => s.rgnSetField part j f (s.rgnGet part j f + n)) s

/-- Return a charge. -/
def State.rgnReturn (s : State) (part i : Nat) (f : RcbField) (n : Nat) : State :=
  (s.rgnPath part i).foldl (fun s j => s.rgnSetField part j f (s.rgnGet part j f - n)) s

/-- A charge fits every effective budget of the path (R305). -/
def State.rgnFits (s : State) (part i : Nat) (use budget : RcbField) (n : Nat) : Bool :=
  (s.rgnPath part i).all fun j => s.rgnGet part j use + n ≤ s.rgnEff part j budget

/-- A demand that no wait could satisfy (R309): it passes an effective budget of the path outright. -/
def State.rgnNever (s : State) (part i : Nat) (budget : RcbField) (n : Nat) : Bool :=
  (s.rgnPath part i).any fun j => s.rgnEff part j budget < n

/-- Add 1 to a saturating count of a region and its ancestors: usage fields cover descendants (R304). -/
def State.rgnCount (s : State) (part i : Nat) (f : RcbField) : State :=
  (s.rgnPath part i).foldl (fun s j => s.rgnSetField part j f (min (s.rgnGet part j f + 1) 0xFFFF_FFFF)) s

/-- A region whose STATE is final (R306). -/
def State.rgnDead (s : State) (part i : Nat) : Bool :=
  let st := s.rgnGet part i fState
  st = stFaulted || st = stKilled

/-- The entry of a region in its partition's table (R352); no write goes past LPDDR-6 (R362; notes/assumptions/128). -/
def State.tablePut (s : State) (part i v : Nat) : State :=
  let pa := (s.part part).rgntab + 8 * i
  if pa + 8 ≤ lpddrEnd then s.diePut pa 8 v else s

/-- Free a region's index (R306, R352). -/
def State.rgnFree (s : State) (part i : Nat) : State :=
  let s1 := s.tablePut part i 0
  let d := s1.die
  { s1 with die := { d with regions := d.regions.filter fun r => !(r.part = part && r.index = i) } }

/-- A new region takes an index: its table entry is written, and scratchpad pages that an earlier region of that index held count as
another region's (R150, R352). -/
def State.rgnOpen (s : State) (part i rcb : Nat) : State :=
  let s1 := s.tablePut part i rcb
  let d := s1.die
  { s1 with
    die := { d with regions := d.regions ++ [{ part, index := i, rcb, fields := [] }] }
    cores := s1.cores.map fun k => { k with spOwner := k.spOwner.map fun p => if p.2 = (part, i) then (p.1, (part, 0xFFFF)) else p } }

/-- Forget every region of a partition that is released or loaded (R424). -/
def State.rgnForget (s : State) (part : Nat) : State :=
  let d := s.die
  { s with die := { d with regions := d.regions.filter fun r => r.part ≠ part } }

/-- LIVE rises by 1 on a path, with the STATE it moves (R306). -/
def State.rgnLiveUp (s : State) (part i : Nat) : State :=
  (s.rgnPath part i).foldl (fun s j =>
    let s := s.rgnSetField part j fLive (s.rgnGet part j fLive + 1)
    if s.rgnDead part j || s.rgnGet part j fState = stRejected then s else s.rgnSetField part j fState stActive) s

/-- LIVE falls by 1 on a path: IDLE at 0; a dead region's index is freed at 0 unless it must stay (R306; 17 R423 step 4). -/
def State.rgnLiveDown (s : State) (part i : Nat) (keepRoots : Bool) : State :=
  (s.rgnPath part i).foldl (fun s j =>
    let v := s.rgnGet part j fLive - 1
    let s := s.rgnSetField part j fLive v
    if v ≠ 0 then s
    else if s.rgnDead part j then (if keepRoots && s.rgnGet part j fParent = 0xFFFF then s else s.rgnFree part j)
    else if s.rgnGet part j fState = stRejected then s
    else s.rgnSetField part j fState stIdle) s

/-- Live region indices of a partition, rising. -/
def State.rgnAll (s : State) (part : Nat) : List Nat := (List.range (s.part part).rgncnt).filter (s.rgnLive part)

/-- An index usable by a task's region (15 R365): the right partition, and in the subtree. -/
def State.idxUsable (s : State) (part region : Nat) (x : Index) : Bool := x.part = part && s.rgnWithin part x.region region

/-- A key-value block granted to a region for BTGATHER (15 R388). -/
def State.blockGranted (s : State) (part region pa : Nat) : Bool :=
  s.retr.indexes.any fun p =>
    let x := p.2
    bit x.rights 1 && s.idxUsable part region x && x.arenaBase ≤ pa && pa + 65536 ≤ x.arenaBase + x.arenaLen

end Sys2Proof.Machine
end

