-- ==== Sys2Proof/Machine/GangStart.lean ====
section
/-! DEFINITION. The gangs by the LAUNCH that names them, and the start of a committed one at its instant (13 R354). -/

namespace Sys2Proof.Machine

/-- The die timebase, in ns (R145). -/
def State.now (s : State) : Nat := s.time / 720720

def State.gang (s : State) (launch : Nat) : Option Gang := s.die.gangs.find? fun g => g.launch = launch
def State.setGang (s : State) (g : Gang) : State :=
  let d := s.die
  { s with die := { d with gangs := d.gangs.map fun x => if x.launch = g.launch then g else x } }
def State.dropGang (s : State) (launch : Nat) : State :=
  let d := s.die
  { s with die := { d with gangs := d.gangs.filter fun x => x.launch ≠ launch } }

def Gang.part (g : Gang) (i : Nat) : Option GangPart := g.parts[i]?
def Gang.setPart (g : Gang) (i : Nat) (p : GangPart) : Gang := { g with parts := g.parts.set i p }

/-- First part, in part order, that satisfies a condition. -/
def Gang.first (g : Gang) (p : GangPart → Bool) : Option (Nat × GangPart) :=
  (g.parts.zipIdx.map fun x => (x.2, x.1)).find? fun x => p x.2

/-- The place of a part's reserved context. -/
def State.gatedSlot (s : State) (p : GangPart) : Option (Nat × Nat) :=
  p.core.bind fun n => ((List.range 2).find? fun c => ((s.ctxAt n c).task.any fun t => t.gated && t.record = p.record && t.part = p.part)).map
    fun c => (n, c)

/-- A reserved task may run from now on. -/
def Task.begin (now : Nat) (t : Task) : Task := { t with gated := false, placed := now }

/-- Every part of a gang has its COMMIT, and its start instant has come (R354). -/
def Gang.starts (g : Gang) (now : Nat) : Bool :=
  (g.start.any fun t => t ≤ now) && g.parts.all fun p => p.phase = .committed || p.phase = .started

/-- A committed part starts at its instant (R354). -/
def State.startPart (s : State) (launch cluster : Nat) : State :=
  match s.gang launch with
  | none => s
  | some g =>
    if !g.starts s.now then s
    else match g.first fun p => p.phase = .committed && p.cluster = cluster with
      | none => s
      | some (i, p) =>
        let s1 := match s.gatedSlot p with
          | none => s
          | some (n, c) =>
            let x := s.ctxAt n c
            s.setCtxAt n c { x with task := x.task.map (Task.begin s.now) }
        let g := g.setPart i { p with phase := .started }
        if g.parts.all fun p => p.phase = .started then s1.dropGang launch else s1.setGang g

/-- The gangs whose instant has come start, every part in the first core cycle that finds it so (R354). -/
def State.startGangs (s : State) : State :=
  (s.die.gangs.filter fun g => g.starts s.now).foldl (fun s g => g.parts.foldl (fun s p => s.startPart g.launch p.cluster) s) s

end Sys2Proof.Machine
end

