-- ==== Sys2Proof/Machine/Format.lean ====
section
/-! DEFINITION. The format codes of 03_number_formats.md: widths, classes and encodings by 6-bit code (R85, R54). -/

namespace Sys2Proof.Machine

/-- The encodings of R85. -/
inductive FmtKind where
  | b1
  /-- unsigned, `w` bits (Nn, N1) -/
  | uint (w : Nat)
  /-- two's complement, `w` bits (Sn) -/
  | sint (w : Nat)
  /-- IEEE-style with exponent and fraction bits (R87) -/
  | ieee (eb fb : Nat)
  /-- tapered of width `w` with `e` exponent bits (R89) -/
  | tapered (w e : Nat)
  deriving DecidableEq, Repr

/-- The format of a code; none for UNTAGGED and the reserved codes (R85). -/
def fmtKind? : Nat → Option FmtKind
  | 0x01 => some .b1
  | 0x02 => some (.uint 1)
  | 0x03 => some (.sint 2)
  | 0x04 => some (.uint 2)
  | 0x05 => some (.sint 3)
  | 0x06 => some (.uint 3)
  | 0x07 => some (.sint 4)
  | 0x08 => some (.uint 4)
  | 0x09 => some (.sint 5)
  | 0x0A => some (.uint 5)
  | 0x0B => some (.sint 6)
  | 0x0C => some (.uint 6)
  | 0x0D => some (.sint 7)
  | 0x0E => some (.uint 7)
  | 0x0F => some (.sint 8)
  | 0x10 => some (.uint 8)
  | 0x11 => some (.sint 12)
  | 0x12 => some (.sint 16)
  | 0x13 => some (.uint 16)
  | 0x14 => some (.sint 32)
  | 0x15 => some (.tapered 6 0)
  | 0x16 => some (.tapered 6 1)
  | 0x17 => some (.tapered 6 2)
  | 0x18 => some (.tapered 8 0)
  | 0x19 => some (.tapered 8 1)
  | 0x1A => some (.tapered 8 2)
  | 0x1B => some (.tapered 8 3)
  | 0x1C => some (.ieee 5 10)
  | 0x1D => some (.ieee 8 7)
  | 0x1E => some (.ieee 8 23)
  | 0x1F => some (.ieee 8 27)
  | 0x20 => some (.tapered 16 1)
  | _ => none

/-- Width of an encoding in bits (R85, R87). -/
def FmtKind.width : FmtKind → Nat
  | .b1 => 1
  | .uint w => w
  | .sint w => w
  | .ieee eb fb => eb + fb + 1
  | .tapered w _ => w

/-- Format code of A36 (R85). -/
def fmtA36 : Nat := 0x1F
/-- Format code of S32 (R85). -/
def fmtS32 : Nat := 0x14

/-- The encoding of a code; codes with no value read as B1, which no check lets through (R94). -/
def fmtKind (f : Nat) : FmtKind := (fmtKind? f).getD .b1

/-- Width in bits of a format code (R85). -/
def fmtWidth (f : Nat) : Nat := (fmtKind f).width

/-- A code from 0x01 to 0x20 (R54, class any). -/
def fmtNamed (f : Nat) : Bool := (fmtKind? f).isSome
/-- Class I of R54. -/
def fmtClassI (f : Nat) : Bool := [0x0F, 0x10, 0x12, 0x13, 0x14].contains f
/-- Class F of R54. -/
def fmtClassF (f : Nat) : Bool := [0x1C, 0x1D, 0x1E].contains f
/-- Class T of R54. -/
def fmtClassT (f : Nat) : Bool := [0x18, 0x19, 0x1A, 0x1B, 0x20].contains f
/-- The byte-width formats of R195. -/
def fmtByteWidth (f : Nat) : Bool := fmtClassI f || fmtClassF f || fmtClassT f

/-- Planes of an operand at full precision, and whether a precision field may be non-zero (R207). -/
def fmtPlanes (f : Nat) : Nat × Bool :=
  match fmtKind f with
  | .b1 => (1, false)
  | .uint w => (w, w ≠ 1)
  | .sint w => (w, true)
  | .ieee 5 _ => (12, false)
  | .ieee _ 7 => (9, false)
  | .ieee _ 23 => (25, false)
  | .ieee _ _ => (29, false)
  | .tapered 16 _ => (14, false)
  | .tapered w _ => (w, false)

/-- The planes an operand reads with a precision field `p`; none when the field breaks R207. -/
def planesRead (f p : Nat) : Option Nat :=
  let (full, var) := fmtPlanes f
  if p = 0 then some full else if var && p ≤ full then some p else none

end Sys2Proof.Machine
end

