-- ==== Sys2Proof/Machine/Shape.lean ====
section
/-! DEFINITION. The opcode map (R68 to R72) and the encoding checks (R10 to R18, R32, R52 to R58, R207, R209):
for each opcode the tags it allows, its format class, its minimum bound, the operand kinds of each slot and the use of MOD
and IMM, as the descriptions of chapters 02, 04, 06, 07, 12 and 15 give them. -/

namespace Sys2Proof.Machine

/-- Why an encoding is turned away. Each names a check of chapter 02; `Reject.cause` gives the trap. -/
inductive Reject where
  /-- the bytes given end before the instruction does; no trap of the spec: the fetch supplies them (R65) -/
  | short
  /-- first byte ends in 0b1111 (R49) -/
  | reservedLength
  /-- tag 0b101 or 0b110 (R10) -/
  | reservedTag
  /-- an opcode that no table lists (R68) -/
  | unassigned
  /-- a listed opcode under another tag (R68) -/
  | tagNotAllowed
  /-- bits 31:4 of the 16-byte form (R62) -/
  | wideReserved
  /-- DST names what its slot does not take (R55, R57, R58, R63) -/
  | dstSlot
  /-- SA (R55, R56, R58) -/
  | saSlot
  /-- SB (R55, R56, R58) -/
  | sbSlot
  /-- SC (R55, R56, R58) -/
  | scSlot
  /-- PRED (R53, R181, R192) -/
  | predicate
  /-- token bits (R13, R32, R130) -/
  | tokens
  /-- tk without WF or WB (R32) -/
  | payload
  /-- a branch condition named against R17 -/
  | branchReg
  /-- FMT outside the class (R54) -/
  | format
  /-- MOD (R54, R117, R123) -/
  | modifier
  /-- IMM: an absent field that is not zero, or an immediate its opcode refuses (R55 and the descriptions) -/
  | immediate
  /-- precision or BFMT of a product (R207, R221) -/
  | precision
  /-- LAT below the minimum (R18) -/
  | bound
  deriving DecidableEq, Repr

/-- Trap cause of a rejected encoding (R48): 0x01 ILLEGAL-INSTRUCTION, 0x02 ILLEGAL-ENCODING. -/
def Reject.cause : Reject → Nat
  | .unassigned => 0x01
  | .tagNotAllowed => 0x01
  | _ => 0x02

/-- Destination kinds of a slot (R57, R58). -/
inductive DstSlot where
  | none | qx | optQx | qxb | v | k | kqx | z | n
  deriving DecidableEq, Repr

/-- Source kinds of a slot (R56, R58): `scalar` is q, x, tk, 0x91, zero; `base` is q, x; `vport` is v or a port;
`vscalar` is v, a port or a scalar. -/
inductive SrcSlot where
  | none | scalar | base | xOnly | bcond | v | vport | vscalar | k | kOrScalar | port | portAny | z | zZero
  | ring | optRing | gen | nest | cb | event
  deriving DecidableEq, Repr

/-- Format classes (R54). -/
inductive FmtClass where
  | none | any | I | F | IF | FT | IFT
  deriving DecidableEq, Repr

/-- Minimum bounds: one figure, one per format class (R70), or the step rule (R71, R209). -/
inductive MinBound where
  | fixed (n : Nat)
  | byClass (i f t : Nat)
  | tmma
  | tfmul
  deriving DecidableEq, Repr

/-- The use an opcode makes of MOD (R54, R70, R117, R123). -/
inductive ModUse where
  | zero | round | roundAll | anyFT | space | atomic | atomicMinMax
  deriving DecidableEq, Repr

/-- The use an opcode makes of IMM: absent (but for code 0x91), any value, a bounded value, or a rule of its own. -/
inductive ImmUse where
  | none | any | max (n : Nat) | sext | tzero | range (lo hi : Nat) | tmma | tfmul | rowsel
  deriving DecidableEq, Repr

/-- One row of the opcode map. -/
structure Shape where
  tags  : List Tag
  fcls  : FmtClass
  bound : MinBound
  dst   : DstSlot
  sa    : SrcSlot
  sb    : SrcSlot
  sc    : SrcSlot
  mod   : ModUse
  imm   : ImmUse
  deriving DecidableEq, Repr

def tagsAny : List Tag := [.S, .L, .M, .V, .W]
def tagsS : List Tag := [.S]
def tagsA : List Tag := [.A]
def tagsV : List Tag := [.V]
def tagsM : List Tag := [.M]
def tagsSL : List Tag := [.S, .L]
def tagsSW : List Tag := [.S, .W]
def tagsLV : List Tag := [.L, .V]
def tagsVW : List Tag := [.V, .W]
def tagsLMVW : List Tag := [.L, .M, .V, .W]

/-- A scalar row: no format, no MOD. -/
def rowS (tags : List Tag) (b : Nat) (dst : DstSlot) (sa sb sc : SrcSlot) (imm : ImmUse) : Shape :=
  { tags, fcls := .none, bound := .fixed b, dst, sa, sb, sc, mod := .zero, imm }

/-- A row with a format class and no IMM. -/
def rowF (tags : List Tag) (fcls : FmtClass) (bound : MinBound) (dst : DstSlot) (sa sb sc : SrcSlot) (mod : ModUse) : Shape :=
  { tags, fcls, bound, dst, sa, sb, sc, mod, imm := .none }

/-- A memory row: an offset in IMM and the space in MOD (R117). -/
def rowM (tags : List Tag) (fcls : FmtClass) (b : Nat) (dst : DstSlot) (sb sc : SrcSlot) (imm : ImmUse) : Shape :=
  { tags, fcls, bound := .fixed b, dst, sa := .base, sb, sc, mod := .space, imm }

/-- Scalar, control and system opcodes (R69, R113 to R147). -/
def scalarMap : List (Nat × Nat × Shape) :=
  [ (0x000, 0x000, rowS (tagsAny ++ tagsA) 1 .none .none .none .none .none),
    (0x001, 0x00D, rowS tagsAny 1 .qx .scalar .scalar .none .none),
    (0x00E, 0x00E, rowS tagsAny 1 .qx .scalar .scalar .scalar .none),
    (0x00F, 0x00F, rowS tagsAny 1 .qx .scalar .none .none .none),
    (0x010, 0x012, rowS tagsAny 3 .qx .scalar .scalar .none .none),
    (0x013, 0x016, rowS tagsAny 24 .qx .scalar .scalar .none .none),
    (0x017, 0x019, rowS tagsAny 1 .qx .scalar .none .none .none),
    (0x01A, 0x01A, rowS tagsAny 1 .qx .scalar .none .none .sext),
    (0x01B, 0x020, rowS tagsAny 1 .qxb .scalar .scalar .none .none),
    (0x021, 0x024, rowS tagsAny 1 .qx .scalar .none .none .any),
    (0x025, 0x027, rowS tagsAny 1 .qx .scalar .none .none (.max 63)),
    (0x028, 0x028, rowS tagsAny 1 .qx .none .none .none .any),
    (0x029, 0x029, rowS tagsAny 1 .qx .scalar .none .none .any),
    (0x02A, 0x02C, rowS tagsAny 1 .qxb .scalar .none .none .any),
    (0x02D, 0x02D, rowS tagsAny 3 .qx .scalar .none .none .any),
    (0x02E, 0x02E, rowS tagsAny 1 .qx .scalar .scalar .none (.max 7)),
    (0x02F, 0x02F, rowS tagsS 1 .qx .none .none .none .any) ] ++
  [ (0x030, 0x036, rowM tagsSL .none 6 .qx .none .none .any),
    (0x037, 0x03A, rowM tagsSW .none 2 .none .scalar .none .any),
    (0x03B, 0x03B, rowS tagsSL 6 .qx .base .none .none .any),
    (0x03C, 0x03C, rowS tagsSW 2 .none .base .scalar .none .any),
    (0x03D, 0x03D, rowS tagsSL 2 .none .base .none .none .any),
    (0x040, 0x043, { rowM tagsS .none 32 .qx .scalar .none .any with mod := .atomic }),
    (0x044, 0x045, { rowM tagsS .none 32 .qx .scalar .none .any with mod := .atomicMinMax }),
    (0x046, 0x046, { rowM tagsS .none 32 .qx .scalar .none .any with mod := .atomic }),
    (0x047, 0x047, { rowM tagsS .none 32 .qx .scalar .scalar .any with mod := .atomic }),
    (0x048, 0x048, rowS tagsA 1 .none .none .none .none .any),
    (0x049, 0x04A, rowS tagsA 1 .none .bcond .none .none .any),
    (0x04B, 0x04B, rowS tagsA 1 .none .xOnly .none .none .any),
    (0x04C, 0x04C, rowS tagsA 1 .none .none .none .none .any),
    (0x04D, 0x04F, rowS tagsA 1 .none .none .none .none .none) ] ++
  [ (0x050, 0x050, rowS tagsS 1 .none .none .none .none (.max 0xFFFF)),
    (0x051, 0x051, rowS tagsS 1 .none .none .none .none .none),
    (0x052, 0x052, rowS tagsAny 1 .none .none .none .none (.max 0xFFFF)),
    (0x053, 0x053, rowS tagsS 2 .qx .none .none .none (.max 0xFFF)),
    (0x054, 0x054, rowS tagsS 2 .none .scalar .none .none (.max 0xFFF)),
    (0x058, 0x05A, rowS tagsAny 1 .none .event .none .none (.max 65535)),
    (0x05B, 0x05B, rowS tagsLMVW 1 .none .scalar .none .none .none),
    (0x060, 0x060, rowS tagsS 4 .none .scalar .scalar .scalar .none),
    (0x061, 0x062, rowS tagsS 8 .optQx .scalar .none .none .none),
    (0x063, 0x063, rowS tagsS 4 .none .scalar .none .none .none),
    (0x064, 0x064, rowS tagsAny 1 .none .none .none .none (.max 5)),
    (0x065, 0x065, rowS tagsS 4 .optQx .none .none .none .any),
    (0x066, 0x066, rowS tagsS 4 .none .scalar .scalar .none .any),
    (0x067, 0x067, rowS tagsS 1 .none .none .none .none .none),
    (0x070, 0x070, rowS tagsS 8 .none .scalar .none .none (.max 0x1FFF)),
    (0x071, 0x071, rowS tagsS 1 .none .none .none .none .any),
    (0x072, 0x072, rowS tagsS 2 .none .ring .none .none .any),
    (0x073, 0x073, rowS tagsAny 1 .optQx .ring .none .none .any),
    (0x074, 0x074, rowS tagsAny 1 .none .ring .none .none .any),
    (0x075, 0x075, rowS tagsS 2 .qx .optRing .none .none .none) ]

/-- Vector opcodes (R70, R179 to R205). SB of VPERM takes no scalar (notes/assumptions/120). -/
def vectorMap : List (Nat × Nat × Shape) :=
  [ (0x100, 0x101, rowF tagsV .IFT (.byClass 1 4 6) .v .vport .vscalar .none .round),
    (0x102, 0x102, rowF tagsV .IFT (.byClass 3 4 6) .v .vport .vscalar .none .round),
    (0x103, 0x104, rowF tagsV .FT (.byClass 0 4 8) .v .vport .vscalar .vscalar .round),
    (0x105, 0x106, rowF tagsV .IFT (.byClass 1 2 2) .v .vport .vscalar .none .anyFT),
    (0x107, 0x108, rowF tagsV .IFT (.fixed 1) .v .vport .none .none .zero),
    (0x109, 0x10A, rowF tagsV .I (.fixed 1) .v .vport .vscalar .none .zero),
    (0x10B, 0x10B, rowF tagsV .I (.fixed 3) .v .vport .vscalar .none .zero),
    (0x10C, 0x10C, rowF tagsV .F (.fixed 16) .v .vport .vscalar .none .round),
    (0x10D, 0x10D, rowF tagsV .F (.fixed 16) .v .vport .none .none .round),
    (0x10E, 0x111, rowF tagsV .F (.fixed 8) .v .vport .none .none .round),
    (0x112, 0x117, rowF tagsV .I (.fixed 1) .v .vport .vscalar .none .zero),
    (0x118, 0x118, rowF tagsV .IFT (.fixed 1) .v .vport .vscalar .k .zero),
    (0x119, 0x11C, rowF tagsV .IFT (.byClass 1 2 2) .k .vport .vscalar .none .anyFT),
    (0x11D, 0x11D, { rowF tagsV .FT (.fixed 2) .k .vport .none .none .zero with imm := .max 0x1FF }),
    (0x11E, 0x11E, rowF tagsV .any (.fixed 4) .v .vport .none .none .roundAll),
    (0x11F, 0x11F, rowF tagsV .any (.fixed 1) .v .vport .none .none .zero),
    (0x120, 0x120, rowF tagsV .any (.fixed 1) .v .none .scalar .none .zero),
    (0x121, 0x121, rowF tagsV .any (.fixed 2) .qx .vport .scalar .none .zero),
    (0x122, 0x122, rowF tagsV .any (.fixed 2) .v .scalar .scalar .none .zero),
    (0x123, 0x124, rowF tagsV .any (.fixed 4) .v .vport .k .none .zero),
    (0x125, 0x125, rowF tagsV .any (.fixed 4) .v .vport .vport .none .zero) ] ++
  [ (0x126, 0x126, rowF tagsV .IFT (.byClass 8 12 16) .qx .vport .none .none .round),
    (0x127, 0x128, rowF tagsV .IFT (.fixed 8) .qx .vport .none .none .zero),
    (0x129, 0x129, rowF tagsV .I (.fixed 1) .v .k .none .none .zero),
    (0x12A, 0x12C, rowF tagsV .none (.fixed 1) .k .k .k .none .zero),
    (0x12D, 0x12D, rowF tagsV .none (.fixed 1) .k .k .none .none .zero),
    (0x12E, 0x12E, rowF tagsV .none (.fixed 2) .qx .k .none .none .zero),
    (0x12F, 0x12F, rowF tagsV .none (.fixed 1) .kqx .kOrScalar .none .none .zero),
    (0x130, 0x130, rowM tagsLV .any 8 .v .none .none .any),
    (0x131, 0x131, rowM tagsVW .any 2 .none .v .none .any),
    (0x132, 0x132, rowM tagsLV .any 16 .v .base .none .any),
    (0x133, 0x133, rowM tagsVW .any 4 .none .v .base .any),
    (0x134, 0x134, rowM tagsLV .any 32 .v .v .cb .any),
    (0x135, 0x135, rowM tagsVW .any 8 .none .v .cb .any),
    (0x136, 0x136, rowM tagsVW .IF 32 .none .v .cb .any),
    (0x137, 0x137, rowM tagsVW .none 16 .none .cb .none (.max 0xFFFF)),
    (0x138, 0x138, rowM tagsLV .none 16 .none .cb .none (.max 0xFFFF)),
    (0x139, 0x139, rowF tagsV .any (.fixed 2) .v .portAny .none .none .zero),
    (0x13A, 0x13A, rowF tagsV .any (.fixed 2) .none .port .v .none .zero),
    (0x13B, 0x13B, rowF tagsLMVW .none (.fixed 2) .none .port .gen .nest .zero),
    (0x13C, 0x13C, rowM tagsAny .none 8 .n .none .none .any),
    (0x13D, 0x13D, rowM tagsSW .none 2 .none .nest .none .any) ]

/-- Matrix opcodes (R71, R219 to R231). -/
def matrixMap : List (Nat × Nat × Shape) :=
  [ (0x180, 0x180, { rowF tagsM .any .tmma .z .portAny .portAny .zZero .zero with imm := .tmma }),
    (0x181, 0x181, { rowF tagsM .any .tfmul .z .z .portAny .none .zero with imm := .tfmul }),
    (0x182, 0x182, rowF tagsM .none (.fixed 4) .z .z .z .none .zero),
    (0x183, 0x183, rowF tagsM .none (.fixed 64) .z .z .z .none .zero),
    (0x184, 0x184, rowF tagsM .none (.fixed 8) .z .z .z .none .zero),
    (0x185, 0x185, rowS tagsM 1024 .z .z .none .none (.max 32)),
    (0x186, 0x186, rowS tagsM 4096 .z .z .none .none (.max 32)),
    (0x187, 0x187, rowS tagsM 1 .z .none .none .none .tzero),
    (0x188, 0x188, rowS tagsM 2 .z .z .none .none .none),
    (0x189, 0x189, rowM tagsM .any 16 .z .base .none .any),
    (0x18A, 0x18A, rowM tagsM .any 16 .none .z .base .any),
    (0x18B, 0x18B, { rowF tagsM .any (.fixed 4) .none .port .z .none .zero with imm := .rowsel }),
    (0x18C, 0x18C, { rowF tagsM .any (.fixed 4) .z .port .none .none .zero with imm := .rowsel }),
    (0x18D, 0x18D, rowS tagsM 64 .z .z .none .none .none),
    (0x18E, 0x18E, rowS tagsM 2 .qx .z .none .none .none),
    (0x18F, 0x18F, rowS tagsM 1 .z .none .none .none (.range 1 32)),
    (0x190, 0x190, rowS tagsM 2 .none .scalar .none .none .none),
    (0x191, 0x191, rowS tagsM 1 .z .none .none .none .none) ]

/-- Task, region and retrieval opcodes (R72, R316, R317, R319, R322, R393, R395). -/
def taskMap : List (Nat × Nat × Shape) :=
  [ (0x200, 0x200, rowS tagsS 8 .optQx .scalar .none .none .none),
    (0x201, 0x201, rowS tagsS 8 .optQx .scalar .scalar .none .none),
    (0x202, 0x202, rowS tagsS 4 .none .scalar .none .none .none),
    (0x203, 0x203, rowS tagsS 8 .optQx .scalar .scalar .none .none),
    (0x204, 0x204, rowS tagsS 2 .qx .scalar .none .none (.max 1)),
    (0x205, 0x205, rowS tagsS 1 .none .none .none .none .none),
    (0x206, 0x206, rowS tagsS 16 .qx .scalar .scalar .none .none),
    (0x207, 0x207, rowS tagsS 8 .none .scalar .scalar .none (.max 0x1FF)),
    (0x208, 0x208, rowS tagsS 4 .qx .scalar .none .none (.max 0x1FF)),
    (0x209, 0x209, rowS tagsS 8 .none .scalar .none .none .none),
    (0x20A, 0x20A, rowS tagsS 8 .none .scalar .scalar .none (.max 1)),
    (0x20B, 0x20B, rowS tagsS 8 .none .scalar .none .none .none),
    (0x240, 0x243, rowS tagsS 8 .optQx .scalar .scalar .none .none),
    (0x244, 0x244, rowS tagsS 4 .qx .scalar .none .none (.max 1)),
    (0x245, 0x245, rowS tagsS 2 .qx .scalar .none .none (.max 0xFFF)),
    (0x246, 0x246, rowS tagsS 2 .qx .scalar .none .none (.max 3)),
    (0x247, 0x247, rowS tagsS 8 .optQx .scalar .scalar .none .none) ]

/-- The row of the opcode map that lists an opcode (R68); none for the unassigned ones. -/
def shapeOf? (opc : Nat) : Option Shape :=
  ((scalarMap ++ vectorMap ++ matrixMap ++ taskMap).find? fun r => r.1 ≤ opc && opc ≤ r.2.1).map fun r => r.2.2

/-- Bound in cycles of a LAT code (R18). -/
def latBound (lat : BitVec 4) : Nat :=
  [1, 2, 3, 4, 6, 8, 12, 16, 24, 32, 64, 128, 256, 512, 1024, 4096].getD lat.toNat 4096

/-- A destination fits its slot (R57, R58); b0 to b7 only under tag S (R17). -/
def DstSlot.takes (t : Tag) : DstSlot → Dest → Bool
  | .none, .absent => true
  | .qx, .q | .qx, .x _ => true
  | .optQx, .q | .optQx, .x _ | .optQx, .absent => true
  | .qxb, .q | .qxb, .x _ => true
  | .qxb, .b _ => t == .S
  | .v, .v _ => true
  | .k, .k i => i ≠ 0
  | .kqx, .k i => i ≠ 0
  | .kqx, .q | .kqx, .x _ => true
  | .z, .z _ => true
  | .n, .n _ => true
  | _, _ => false

/-- The scalar operand kinds of R111. -/
def operandScalar : Operand → Bool
  | .q _ | .x _ | .tk | .imm | .zero => true
  | _ => false

/-- A source fits its slot (R56, R58). -/
def SrcSlot.takes : SrcSlot → Operand → Bool
  | .none, .absent => true
  | .scalar, o => operandScalar o
  | .base, .q _ | .base, .x _ => true
  | .xOnly, .x _ => true
  | .bcond, .b _ => true
  | .v, .v _ => true
  | .vport, .v _ | .vport, .p _ | .vport, .pk _ => true
  | .vscalar, .v _ | .vscalar, .p _ | .vscalar, .pk _ => true
  | .vscalar, o => operandScalar o
  | .k, .k _ => true
  | .kOrScalar, .k _ => true
  | .kOrScalar, o => operandScalar o
  | .port, .p _ => true
  | .portAny, .p _ | .portAny, .pk _ => true
  | .z, .z _ => true
  | .zZero, .z _ | .zZero, .zero => true
  | .ring, .h _ => true
  | .optRing, .h _ | .optRing, .absent => true
  | .gen, .g _ => true
  | .nest, .n _ => true
  | .cb, .cb _ => true
  | .event, .e _ => true
  | _, _ => false

/-- FMT lies in the class of the opcode (R54). -/
def FmtClass.takes : FmtClass → Nat → Bool
  | .none, f => f == 0
  | .any, f => fmtNamed f
  | .I, f => fmtClassI f
  | .F, f => fmtClassF f
  | .IF, f => fmtClassI f || fmtClassF f
  | .FT, f => fmtClassF f || fmtClassT f
  | .IFT, f => fmtClassI f || fmtClassF f || fmtClassT f

/-- MOD is one the opcode takes (R54, R70, R117, R123, R183). -/
def ModUse.takes (f : Nat) : ModUse → BitVec 2 → Bool
  | .zero, m => m == 0
  | .round, m => m == 0 || !fmtClassI f
  | .roundAll, _ => true
  | .anyFT, m => m == 0 || !fmtClassI f
  | .space, m => m.toNat < 2
  | .atomic, m => m.toNat < 2
  | .atomicMinMax, _ => true

/-- The precision and format fields of a TMMA control word (R207, R221). -/
def tmmaPlanes (fmt imm : Nat) : Option (Nat × Nat × Nat) :=
  let bf := bits imm 5 0
  let fb := if bf = 0 then fmt else bf
  if bits imm 31 18 ≠ 0 || !fmtNamed fb then none else
  match planesRead fmt (bits imm 11 6), planesRead fb (bits imm 17 12) with
  | some pa, some pb => some (fb, pa, pb)
  | _, _ => none

/-- Cycles of one TMMA step (R209). -/
def tmmaCost (fmt imm : Nat) : Option Nat :=
  (tmmaPlanes fmt imm).map fun (fb, pa, pb) =>
    if (fmt = 1 || fmt = 2) && (fb = 1 || fb = 2) then 2 else pa * pb

/-- Cycles of one TFMUL step (R209, R222). -/
def tfmulCost (fmt imm : Nat) : Option Nat :=
  if bits imm 31 6 ≠ 0 then none else (planesRead fmt (bits imm 5 0)).map fun pb => 29 * pb

/-- IMM obeys the opcode's rule; `named` says whether a source slot names code 0x91 (R55, R56). -/
def ImmUse.takes (fmt imm : Nat) (named : Bool) : ImmUse → Bool
  | .none => imm == 0 || named
  | .any => true
  | .max n => imm ≤ n
  | .sext => 1 ≤ imm && imm ≤ 64
  | .range lo hi => lo ≤ imm && imm ≤ hi
  | .tzero =>
    let form := bits imm 1 0
    let r := bits imm 13 8
    bits imm 7 2 == 0 && bits imm 31 14 == 0 &&
      (if form = 2 then 1 ≤ r && r ≤ 32 else form < 2 && r == 0)
  | .tmma => (tmmaCost fmt imm).isSome
  | .tfmul => (tfmulCost fmt imm).isSome
  | .rowsel => bits imm 31 8 == 0 && bits imm 7 6 != 3

/-- The minimum bound of the opcode and format (R69 to R72, R209). -/
def MinBound.cycles (fmt imm : Nat) : MinBound → Nat
  | .fixed n => n
  | .byClass i f t => if fmtClassI fmt then i else if fmtClassF fmt then f else t
  | .tmma => (tmmaCost fmt imm).getD 0 + 8
  | .tfmul => (tfmulCost fmt imm).getD 0 + 8

/-- Some source slot names the popped payload. -/
def insNamesTk (w : Ins) : Bool := w.sa == .tk || w.sb == .tk || w.sc == .tk
/-- Some source slot names code 0x91. -/
def insNamesImm (w : Ins) : Bool := w.sa == .imm || w.sb == .imm || w.sc == .imm

/-- PRED is one the tag allows (R53). -/
def predOk (t : Tag) (p : BitVec 4) : Bool :=
  match t with
  | .V | .S => p != 8
  | _ => p == 0

/-- Token bits are ones the tag allows (R13, R32). -/
def tokOk (t : Tag) (k : Tok) : Bool :=
  match t with
  | .S | .A => !(k.wb || k.wf || k.pb || k.pf)
  | .W => !(k.pf || k.wb)
  | .L => !(k.pb || k.wf)
  | _ => true

/-- Rules of single opcodes beyond their slots: TKSEND pushes (R130), VCOMP and VEXPD take no predicate (R181), nor
does a V-tagged instruction that acts on no lanes (R55, R112, R203, R204; notes/assumptions/17), the scalar
form of KMOV reads a mask without predicate (R192), the index pair starts even (R195). -/
def opRule (opc : Nat) (w : Ins) : Option Reject :=
  if opc = 0x05B && !(w.tok.pf || w.tok.pb) then some .tokens
  else if (opc = 0x123 || opc = 0x124 || (opc < 0x100 || opc = 0x13B || opc = 0x13C) && w.tag == .V) && w.pred != 0 then some .predicate
  else if opc = 0x12F && (match w.dst with | .k _ => false | _ => true) then
    if w.pred != 0 then some .predicate
    else match w.sa with
      | .k _ => none
      | _ => some .saSlot
  else if opc = 0x135 || opc = 0x136 then
    match w.sb with
    | .v n => if n.val % 2 = 0 then none else some .sbSlot
    | _ => none
  else none

/-- The encoding checks of a listed opcode, in one order; none when the word is legal (R12 to R18, R53 to R58). -/
def Shape.check (sh : Shape) (opc : Nat) (w : Ins) : Option Reject :=
  if !sh.tags.contains w.tag then some .tagNotAllowed
  else if !sh.dst.takes w.tag w.dst then some .dstSlot
  else if !sh.sa.takes w.sa then some .saSlot
  else if !sh.sb.takes w.sb then some .sbSlot
  else if !sh.sc.takes w.sc then some .scSlot
  else if !predOk w.tag w.pred then some .predicate
  else if !tokOk w.tag w.tok then some .tokens
  else if insNamesTk w && !(w.tok.wf || w.tok.wb) then some .payload
  else if !sh.fcls.takes w.fmt.toNat then some .format
  else if !sh.mod.takes w.fmt.toNat w.mod then some .modifier
  else if !sh.imm.takes w.fmt.toNat w.imm.toNat (insNamesImm w) then
    (if sh.imm = .tmma || sh.imm = .tfmul then some .precision else some .immediate)
  else if latBound w.lat < sh.bound.cycles w.fmt.toNat w.imm.toNat then some .bound
  else opRule opc w

/-- An operand fits five bits: q or x, or a slot the opcode does not use (R63). -/
def shortSrc (s : SrcSlot) (o : Operand) : Bool :=
  s == .none || (match o with | .q _ | .x _ => true | _ => false)

/-- A destination fits five bits (R63). -/
def shortDst (s : DstSlot) (d : Dest) : Bool :=
  s == .none || (match d with | .q | .x _ => true | _ => false)

/-- The stored length can hold the fields (R59 to R63, R78). -/
def Shape.fits (sh : Shape) (opc : Nat) (w : Ins) : Bool :=
  let short := opc < 0x80 && !w.tok.wb && !w.tok.pb && w.mod == 0 && shortDst sh.dst w.dst &&
    shortSrc sh.sa w.sa && shortSrc sh.sb w.sb
  match w.len with
  | .b4 => short && w.pred == 0 && w.fmt == 0 && sh.sc == .none && w.imm == 0
  | .b8 => short && shortSrc sh.sc w.sc && (w.imm.truncate 16).signExtend 32 == w.imm
  | .b12 => (w.imm.truncate 29).signExtend 32 == w.imm
  | .b16 => true

end Sys2Proof.Machine
end

