-- ==== Sys2Proof/WellFormed.lean ====
section
/-! DEFINITION. The opcode number and fields of an instruction, and when an instruction is well-formed: the encoding checks
of R10 to R18, R32 and R52 to R58 pass and the stored length holds its fields. The rows that are no code have no words; they
are well-formed when the places they name exist. -/

namespace Sys2Proof

/-- The opcode (R69 to R72) and the fields of an instruction of code; none for the events and commands. -/
def Instr.code? : Instr → Option (Nat × Ins)
  | .nop w => some (0x000, w)
  | .add w => some (0x001, w)
  | .sub w => some (0x002, w)
  | .and w => some (0x003, w)
  | .or w => some (0x004, w)
  | .xor w => some (0x005, w)
  | .andn w => some (0x006, w)
  | .shl w => some (0x007, w)
  | .shrl w => some (0x008, w)
  | .shra w => some (0x009, w)
  | .min w => some (0x00A, w)
  | .max w => some (0x00B, w)
  | .minn w => some (0x00C, w)
  | .maxn w => some (0x00D, w)
  | .sel w => some (0x00E, w)
  | .mov w => some (0x00F, w)
  | .mul w => some (0x010, w)
  | .mulh w => some (0x011, w)
  | .mulhn w => some (0x012, w)
  | .div w => some (0x013, w)
  | .divn w => some (0x014, w)
  | .rem w => some (0x015, w)
  | .remn w => some (0x016, w)
  | .clz w => some (0x017, w)
  | .ctz w => some (0x018, w)
  | .popc w => some (0x019, w)
  | .sext w => some (0x01A, w)
  | .cmpeq w => some (0x01B, w)
  | .cmpne w => some (0x01C, w)
  | .cmplt w => some (0x01D, w)
  | .cmple w => some (0x01E, w)
  | .cmpltn w => some (0x01F, w)
  | .cmplen w => some (0x020, w)
  | .addi w => some (0x021, w)
  | .andi w => some (0x022, w)
  | .ori w => some (0x023, w)
  | .xori w => some (0x024, w)
  | .shli w => some (0x025, w)
  | .shrli w => some (0x026, w)
  | .shrai w => some (0x027, w)
  | .movi w => some (0x028, w)
  | .movhi w => some (0x029, w)
  | .cmpeqi w => some (0x02A, w)
  | .cmplti w => some (0x02B, w)
  | .cmpltni w => some (0x02C, w)
  | .muli w => some (0x02D, w)
  | .lea w => some (0x02E, w)
  | .pcadd w => some (0x02F, w)
  | .ld8 w => some (0x030, w)
  | .ld8s w => some (0x031, w)
  | .ld16 w => some (0x032, w)
  | .ld16s w => some (0x033, w)
  | .ld32 w => some (0x034, w)
  | .ld32s w => some (0x035, w)
  | .ld64 w => some (0x036, w)
  | .st8 w => some (0x037, w)
  | .st16 w => some (0x038, w)
  | .st32 w => some (0x039, w)
  | .st64 w => some (0x03A, w)
  | .ldlk w => some (0x03B, w)
  | .stul w => some (0x03C, w)
  | .ldblk w => some (0x03D, w)
  | .amoadd w => some (0x040, w)
  | .amoand w => some (0x041, w)
  | .amoor w => some (0x042, w)
  | .amoxor w => some (0x043, w)
  | .amomin w => some (0x044, w)
  | .amomax w => some (0x045, w)
  | .amoswp w => some (0x046, w)
  | .amocas w => some (0x047, w)
  | .br w => some (0x048, w)
  | .bt w => some (0x049, w)
  | .bf w => some (0x04A, w)
  | .jr w => some (0x04B, w)
  | .loop w => some (0x04C, w)
  | .done w => some (0x04D, w)
  | .modex w => some (0x04E, w)
  | .modei w => some (0x04F, w)
  | .trap w => some (0x050, w)
  | .eret w => some (0x051, w)
  | .brk w => some (0x052, w)
  | .mfsr w => some (0x053, w)
  | .mtsr w => some (0x054, w)
  | .post w => some (0x058, w)
  | .await w => some (0x059, w)
  | .awaitp w => some (0x05A, w)
  | .tksend w => some (0x05B, w)
  | .bind w => some (0x060, w)
  | .acqX w => some (0x061, w)
  | .acqS w => some (0x062, w)
  | .rel w => some (0x063, w)
  | .fence w => some (0x064, w)
  | .publish w => some (0x065, w)
  | .icflush w => some (0x066, w)
  | .cbsync w => some (0x067, w)
  | .xsched w => some (0x070, w)
  | .xstage w => some (0x071, w)
  | .ringset w => some (0x072, w)
  | .awfill w => some (0x073, w)
  | .rlslot w => some (0x074, w)
  | .xstat w => some (0x075, w)
  | .vadd w => some (0x100, w)
  | .vsub w => some (0x101, w)
  | .vmul w => some (0x102, w)
  | .vfma w => some (0x103, w)
  | .vfms w => some (0x104, w)
  | .vmin w => some (0x105, w)
  | .vmax w => some (0x106, w)
  | .vabs w => some (0x107, w)
  | .vneg w => some (0x108, w)
  | .vadds w => some (0x109, w)
  | .vsubs w => some (0x10A, w)
  | .vmulh w => some (0x10B, w)
  | .vdiv w => some (0x10C, w)
  | .vsqrt w => some (0x10D, w)
  | .vrcp w => some (0x10E, w)
  | .vrsq w => some (0x10F, w)
  | .vexp2 w => some (0x110, w)
  | .vlog2 w => some (0x111, w)
  | .vand w => some (0x112, w)
  | .vor w => some (0x113, w)
  | .vxor w => some (0x114, w)
  | .vshl w => some (0x115, w)
  | .vshrl w => some (0x116, w)
  | .vshra w => some (0x117, w)
  | .vsel w => some (0x118, w)
  | .vcmpeq w => some (0x119, w)
  | .vcmpne w => some (0x11A, w)
  | .vcmplt w => some (0x11B, w)
  | .vcmple w => some (0x11C, w)
  | .vclass w => some (0x11D, w)
  | .vcvt w => some (0x11E, w)
  | .vmov w => some (0x11F, w)
  | .vbcast w => some (0x120, w)
  | .vextr w => some (0x121, w)
  | .vins w => some (0x122, w)
  | .vcomp w => some (0x123, w)
  | .vexpd w => some (0x124, w)
  | .vperm w => some (0x125, w)
  | .viota w => some (0x129, w)
  | .vredadd w => some (0x126, w)
  | .vredmax w => some (0x127, w)
  | .vredmin w => some (0x128, w)
  | .kand w => some (0x12A, w)
  | .kor w => some (0x12B, w)
  | .kxor w => some (0x12C, w)
  | .knot w => some (0x12D, w)
  | .kmov w => some (0x12F, w)
  | .kpop w => some (0x12E, w)
  | .vld w => some (0x130, w)
  | .vst w => some (0x131, w)
  | .vlds w => some (0x132, w)
  | .vsts w => some (0x133, w)
  | .vgath w => some (0x134, w)
  | .vscat w => some (0x135, w)
  | .vscatadd w => some (0x136, w)
  | .vspill w => some (0x137, w)
  | .vfill w => some (0x138, w)
  | .vldp w => some (0x139, w)
  | .vstp w => some (0x13A, w)
  | .pset w => some (0x13B, w)
  | .nld w => some (0x13C, w)
  | .nst w => some (0x13D, w)
  | .tmma w => some (0x180, w)
  | .tfmul w => some (0x181, w)
  | .tfadd w => some (0x182, w)
  | .tpmul w => some (0x183, w)
  | .tadd w => some (0x184, w)
  | .trecmp w => some (0x185, w)
  | .tfact w => some (0x186, w)
  | .tzero w => some (0x187, w)
  | .tmov w => some (0x188, w)
  | .tld w => some (0x189, w)
  | .tst w => some (0x18A, w)
  | .trdrow w => some (0x18B, w)
  | .twrrow w => some (0x18C, w)
  | .tdense w => some (0x18D, w)
  | .trank w => some (0x18E, w)
  | .tlimit w => some (0x18F, w)
  | .tpred w => some (0x190, w)
  | .tfree w => some (0x191, w)
  | .spawn w => some (0x200, w)
  | .spawnj w => some (0x201, w)
  | .sigj w => some (0x202, w)
  | .enq w => some (0x203, w)
  | .jstat w => some (0x204, w)
  | .yield w => some (0x205, w)
  | .rgnnew w => some (0x206, w)
  | .rgnset w => some (0x207, w)
  | .rgnget w => some (0x208, w)
  | .rgnkill w => some (0x209, w)
  | .pxpush w => some (0x20A, w)
  | .pxflush w => some (0x20B, w)
  | .srch w => some (0x240, w)
  | .ins w => some (0x241, w)
  | .del w => some (0x242, w)
  | .kvf w => some (0x243, w)
  | .darn w => some (0x247, w)
  | .rpop w => some (0x244, w)
  | .rstat w => some (0x245, w)
  | .genq w => some (0x246, w)
  | _ => none

/-- The cores, clusters, queues and other places an event names exist (R1, R9, R409, R422, R429). -/
def Instr.placed : Instr → Bool
  | .resultLand core => decide (core < 128)
  | .modeBarrierPass core => decide (core < 128)
  | .taskComplete core => decide (core < 128)
  | .eretReturn core => decide (core < 128)
  | .icacheFill core _ => decide (core < 128)
  | .timerFire core => decide (core < 128)
  | .trapEntry core => decide (core < 128)
  | .lockRetry core stream => decide (core < 128) && decide (stream < 2)
  | .blockCacheFill core _ => decide (core < 128)
  | .generatorRead core port => decide (core < 128) && decide (port < 8)
  | .matrixStep core => decide (core < 128)
  | .pageWalk core _ => decide (core < 128)
  | .recordStart core => decide (core < 128)
  | .sequencerUnit core => decide (core < 128)
  | .recordComplete core => decide (core < 128)
  | .preempt core => decide (core < 128)
  | .contextSave core => decide (core < 128)
  | .contextRestore core => decide (core < 128)
  | .arm core slot _ _ => decide (core < 128) && decide (slot < 2)
  | .disarm core slot => decide (core < 128) && decide (slot < 2)
  | .halt core slot => decide (core < 128) && decide (slot < 2)
  | .dbgRead core slot _ => decide (core < 128) && decide (slot < 2)
  | .dbgWrite core slot _ _ => decide (core < 128) && decide (slot < 2)
  | .resume core slot => decide (core < 128) && decide (slot < 2)
  | .dbgStep core slot _ => decide (core < 128) && decide (slot < 2)
  | .clrprof core slot => decide (core < 128) && decide (slot < 2)
  | .debugStop core => decide (core < 128)
  | .patch part _ _ => decide (part < 8)
  | .placement core => decide (core < 128)
  | .recordMove cluster => decide (cluster < 16)
  | .balanceEpoch cluster => decide (cluster < 16)
  | .proxyForward part _ => decide (part < 8)
  | .proxyAccept cluster _ => decide (cluster < 16)
  | .proxyLoss part _ => decide (part < 8)
  | .llcOperation addr _ => decide (addr < 0x60_0000_0000)
  | .ctrl slice _ => decide (slice < 128)
  | .reserve _ cluster => decide (cluster < 16)
  | .commit _ cluster _ => decide (cluster < 16)
  | .rollback _ cluster => decide (cluster < 16)
  | .gangStart _ cluster => decide (cluster < 16)
  | .flashRead controller _ => decide (controller < 16)
  | .traversalStep controller => decide (controller < 16)
  | .batchRelease controller => decide (controller < 16)
  | .appendCommit handle => decide (handle < 1024)
  | .darningPass handle => decide (handle < 1024)
  | .darnSwitch handle => decide (handle < 1024)
  | .versionReclaim handle => decide (handle < 1024)
  | .kvfFetch controller _ => decide (controller < 16)
  | .completionWrite controller => decide (controller < 16)
  | .doorbell queue _ => decide (queue < 1024)
  | .nopPacket queue => decide (queue < 1024)
  | .launch queue => decide (queue < 1024)
  | .ib queue => decide (queue < 1024)
  | .pktPred queue => decide (queue < 1024)
  | .loopPacket queue => decide (queue < 1024)
  | .waitmem queue => decide (queue < 1024)
  | .waitmemPoll queue => decide (queue < 1024)
  | .writemem queue => decide (queue < 1024)
  | .signal queue => decide (queue < 1024)
  | .timestamp queue => decide (queue < 1024)
  | .fetchfence queue => decide (queue < 1024)
  | .windowFetch queue => decide (queue < 1024)
  | .gauntletExpiry queue => decide (queue < 1024)
  | .resetTimeout part => decide (part < 8)
  | .partitionDrained part => decide (part < 8)
  | .lsgo part _ => decide (part < 8)
  | .runEntry link => decide (link < 16)
  | .linkEvent link _ => decide (link < 16)
  | _ => true

/-- Well-formed instructions: legal words that their stored length holds, and events that name places that exist. -/
def Instr.wellFormed (i : Instr) : Bool :=
  match i.code? with
  | some (opc, w) =>
    match Machine.shapeOf? opc with
    | some sh => (sh.check opc w).isNone && sh.fits opc w
    | none => false
  | none => i.placed

end Sys2Proof
end

