-- ==== Sys2Proof/Decode.lean ====
section
/-! DEFINITION. The decoder, total on any bytes: length (R49), expansion to the internal word (R59 to R63), the operand codes
(R56, R57) and the encoding checks, each failure with its name; and the encoder, written from the same tables. -/

namespace Sys2Proof

open Machine

/-- Tag of a code (R10). -/
def Tag.ofCode : BitVec 3 → Option Tag
  | 0 => some .S
  | 1 => some .L
  | 2 => some .M
  | 3 => some .V
  | 4 => some .W
  | 7 => some .A
  | _ => none

/-- Code of a tag (R10). -/
def Tag.toCode : Tag → BitVec 3
  | .S => 0
  | .L => 1
  | .M => 2
  | .V => 3
  | .W => 4
  | .A => 7

/-- Low bits of a code as a register number. -/
def regNum (n : Nat) (c : Nat) (h : 0 < n) : Fin n := ⟨c % n, Nat.mod_lt _ h⟩

/-- Source operand of a code (R56). -/
def Operand.ofCode (c : BitVec 8) : Option Operand :=
  let j := c.toNat
  if j < 0x10 then some (.q (regNum 16 j (by decide)))
  else if j < 0x20 then some (.x (regNum 16 j (by decide)))
  else if j < 0x30 then some (.v (regNum 16 j (by decide)))
  else if j < 0x40 then some (.z (regNum 16 j (by decide)))
  else if j < 0x48 then some (.p (regNum 8 j (by decide)))
  else if j < 0x50 then some (.pk (regNum 8 j (by decide)))
  else if j < 0x58 then some (.k (regNum 8 j (by decide)))
  else if j < 0x60 then some (.b (regNum 8 j (by decide)))
  else if j < 0x70 then some (.h (regNum 16 j (by decide)))
  else if j < 0x80 then some (.n (regNum 16 j (by decide)))
  else if j < 0x88 then some (.g (regNum 8 j (by decide)))
  else if j < 0x90 then some (.cb (regNum 8 j (by decide)))
  else if j = 0x90 then some .tk
  else if j = 0x91 then some .imm
  else if j = 0x92 then some .zero
  else if j < 0xA0 then none
  else if j < 0xC0 then some (.e (regNum 32 j (by decide)))
  else if j = 0xFF then some .absent
  else none

/-- Code of a source operand (R56). -/
def Operand.toCode : Operand → BitVec 8
  | .q i => BitVec.ofNat 8 i
  | .x i => BitVec.ofNat 8 (0x10 + i)
  | .v i => BitVec.ofNat 8 (0x20 + i)
  | .z i => BitVec.ofNat 8 (0x30 + i)
  | .p i => BitVec.ofNat 8 (0x40 + i)
  | .pk i => BitVec.ofNat 8 (0x48 + i)
  | .k i => BitVec.ofNat 8 (0x50 + i)
  | .b i => BitVec.ofNat 8 (0x58 + i)
  | .h i => BitVec.ofNat 8 (0x60 + i)
  | .n i => BitVec.ofNat 8 (0x70 + i)
  | .g i => BitVec.ofNat 8 (0x80 + i)
  | .cb i => BitVec.ofNat 8 (0x88 + i)
  | .tk => 0x90
  | .imm => 0x91
  | .zero => 0x92
  | .e i => BitVec.ofNat 8 (0xA0 + i)
  | .absent => 0xFF

/-- Destination of a code (R57). -/
def Dest.ofCode (c : BitVec 7) : Option Dest :=
  let j := c.toNat
  if j = 0 then some .q
  else if j = 1 then some .absent
  else if j < 0x10 then none
  else if j < 0x20 then some (.x (regNum 16 j (by decide)))
  else if j < 0x30 then some (.v (regNum 16 j (by decide)))
  else if j < 0x40 then some (.z (regNum 16 j (by decide)))
  else if j < 0x50 then none
  else if j < 0x58 then some (.k (regNum 8 j (by decide)))
  else if j < 0x60 then some (.b (regNum 8 j (by decide)))
  else if j < 0x70 then none
  else some (.n (regNum 16 j (by decide)))

/-- Code of a destination (R57). -/
def Dest.toCode : Dest → BitVec 7
  | .q => 0
  | .absent => 1
  | .x i => BitVec.ofNat 7 (0x10 + i)
  | .v i => BitVec.ofNat 7 (0x20 + i)
  | .z i => BitVec.ofNat 7 (0x30 + i)
  | .k i => BitVec.ofNat 7 (0x50 + i)
  | .b i => BitVec.ofNat 7 (0x58 + i)
  | .n i => BitVec.ofNat 7 (0x70 + i)

/-- Token bits, WB first (R31). -/
def Tok.ofCode (c : BitVec 4) : Tok := ⟨c.getLsbD 3, c.getLsbD 2, c.getLsbD 1, c.getLsbD 0⟩
/-- Code of token bits (R31). -/
def Tok.toCode (t : Tok) : BitVec 4 :=
  BitVec.ofBool t.wb ++ BitVec.ofBool t.wf ++ BitVec.ofBool t.pb ++ BitVec.ofBool t.pf

/-- The internal word of an opcode and its fields (R52). -/
def wordOf (opc : Nat) (w : Ins) : IWord :=
  w.imm ++ w.mod ++ w.fmt ++ w.sc.toCode ++ w.sb.toCode ++ w.sa.toCode ++ w.dst.toCode ++ w.lat ++ w.pred ++
    BitVec.ofNat 10 opc ++ w.tok.toCode ++ w.tag.toCode

/-- The internal word of an instruction; zero for the rows that are no code (they have no words). -/
def Instr.word (i : Instr) : IWord :=
  match i.code? with
  | some (opc, w) => wordOf opc w
  | none => 0

/-- The stored bytes of a list read as one little-endian integer (R3). -/
def leNat : List Byte → Nat
  | [] => 0
  | b :: bs => b.toNat + 256 * leNat bs

/-- The first `n` bytes of an integer, little-endian (R3). -/
def leBytes : Nat → Nat → List Byte
  | 0, _ => []
  | n + 1, v => BitVec.ofNat 8 v :: leBytes n (v / 256)

/-- Length of the instruction whose first byte is given (R49). -/
def lenOf (b0 : Byte) : Option Len :=
  if b0.getLsbD 0 = false then some .b4
  else if b0.getLsbD 1 = false then some .b8
  else if b0.getLsbD 2 = false then some .b12
  else if b0.getLsbD 3 = false then some .b16
  else none

/-- Expansion of the stored bits of each form to the internal word (R63), before absent slots are filled in. -/
def expand (l : Len) (s : BitVec 128) : IWord :=
  match l with
  | .b4 =>
    (0 : BitVec 32) ++ (0 : BitVec 8) ++ (0xFF : BitVec 8) ++
      ((0 : BitVec 3) ++ s.extractLsb' 27 5) ++ ((0 : BitVec 3) ++ s.extractLsb' 22 5) ++
      ((0 : BitVec 2) ++ s.extractLsb' 17 5) ++ s.extractLsb' 13 4 ++ (0 : BitVec 4) ++
      ((0 : BitVec 3) ++ s.extractLsb' 4 7) ++
      ((0 : BitVec 1) ++ s.extractLsb' 12 1 ++ (0 : BitVec 1) ++ s.extractLsb' 11 1) ++ s.extractLsb' 1 3
  | .b8 =>
    (s.extractLsb' 48 16).signExtend 32 ++ (0 : BitVec 2) ++ s.extractLsb' 22 6 ++
      ((0 : BitVec 3) ++ s.extractLsb' 43 5) ++ ((0 : BitVec 3) ++ s.extractLsb' 38 5) ++
      ((0 : BitVec 3) ++ s.extractLsb' 33 5) ++ ((0 : BitVec 2) ++ s.extractLsb' 28 5) ++
      s.extractLsb' 18 4 ++ s.extractLsb' 14 4 ++ ((0 : BitVec 3) ++ s.extractLsb' 5 7) ++
      ((0 : BitVec 1) ++ s.extractLsb' 13 1 ++ (0 : BitVec 1) ++ s.extractLsb' 12 1) ++ s.extractLsb' 2 3
  | .b12 => (s.extractLsb' 64 29).signExtend 32 ++ s.extractLsb' 3 61 ++ s.extractLsb' 93 3
  | .b16 => s.extractLsb' 96 32 ++ s.extractLsb' 32 64

/-- The two short forms (R59, R60). -/
def Len.isShort : Len → Bool
  | .b4 | .b8 => true
  | _ => false

/-- The opcode field of an internal word (R52). -/
def opcodeOf (w : IWord) : Nat := (w.extractLsb' 7 10).toNat

/-- The fields of an internal word (R52). In a short form, a slot the opcode does not use takes its absent value (R55, R63),
and the reserved destination code 1 names nothing an opcode could write. XSTAT uses SA whether or not it has a handle, so its short
forms carry the operand SA5 names (notes/assumptions/129). -/
def fieldsOf (l : Len) (sh : Shape) (tag : Tag) (w : IWord) : Except Reject Ins :=
  let short := l.isShort
  let dst := if short && sh.dst == .none then some .absent
    else if short && w.extractLsb' 25 7 == 1 then none else Dest.ofCode (w.extractLsb' 25 7)
  let src (s : SrcSlot) (c : BitVec 8) := if short && s == .none then some .absent else Operand.ofCode c
  match dst, src sh.sa (w.extractLsb' 32 8), src sh.sb (w.extractLsb' 40 8), src sh.sc (w.extractLsb' 48 8) with
  | none, _, _, _ => .error .dstSlot
  | _, none, _, _ => .error .saSlot
  | _, _, none, _ => .error .sbSlot
  | _, _, _, none => .error .scSlot
  | some dst, some sa, some sb, some sc =>
    .ok { len := l, tag, tok := Tok.ofCode (w.extractLsb' 3 4), pred := w.extractLsb' 17 4, lat := w.extractLsb' 21 4,
          dst, sa, sb, sc,
          fmt := if short && sh.fcls == .none then 0 else w.extractLsb' 56 6,
          mod := w.extractLsb' 62 2,
          imm := if short && sh.imm == .none then 0 else w.extractLsb' 64 32 }

/-- The instruction of an opcode with given fields (R69 to R72); none for an opcode that no table lists. -/
def ofOpcode (opc : Nat) (w : Ins) : Option Instr :=
  match opc with
  | 0x000 => some (.nop w)
  | 0x001 => some (.add w)
  | 0x002 => some (.sub w)
  | 0x003 => some (.and w)
  | 0x004 => some (.or w)
  | 0x005 => some (.xor w)
  | 0x006 => some (.andn w)
  | 0x007 => some (.shl w)
  | 0x008 => some (.shrl w)
  | 0x009 => some (.shra w)
  | 0x00A => some (.min w)
  | 0x00B => some (.max w)
  | 0x00C => some (.minn w)
  | 0x00D => some (.maxn w)
  | 0x00E => some (.sel w)
  | 0x00F => some (.mov w)
  | 0x010 => some (.mul w)
  | 0x011 => some (.mulh w)
  | 0x012 => some (.mulhn w)
  | 0x013 => some (.div w)
  | 0x014 => some (.divn w)
  | 0x015 => some (.rem w)
  | 0x016 => some (.remn w)
  | 0x017 => some (.clz w)
  | 0x018 => some (.ctz w)
  | 0x019 => some (.popc w)
  | 0x01A => some (.sext w)
  | 0x01B => some (.cmpeq w)
  | 0x01C => some (.cmpne w)
  | 0x01D => some (.cmplt w)
  | 0x01E => some (.cmple w)
  | 0x01F => some (.cmpltn w)
  | 0x020 => some (.cmplen w)
  | 0x021 => some (.addi w)
  | 0x022 => some (.andi w)
  | 0x023 => some (.ori w)
  | 0x024 => some (.xori w)
  | 0x025 => some (.shli w)
  | 0x026 => some (.shrli w)
  | 0x027 => some (.shrai w)
  | 0x028 => some (.movi w)
  | 0x029 => some (.movhi w)
  | 0x02A => some (.cmpeqi w)
  | 0x02B => some (.cmplti w)
  | 0x02C => some (.cmpltni w)
  | 0x02D => some (.muli w)
  | 0x02E => some (.lea w)
  | 0x02F => some (.pcadd w)
  | 0x030 => some (.ld8 w)
  | 0x031 => some (.ld8s w)
  | 0x032 => some (.ld16 w)
  | 0x033 => some (.ld16s w)
  | 0x034 => some (.ld32 w)
  | 0x035 => some (.ld32s w)
  | 0x036 => some (.ld64 w)
  | 0x037 => some (.st8 w)
  | 0x038 => some (.st16 w)
  | 0x039 => some (.st32 w)
  | 0x03A => some (.st64 w)
  | 0x03B => some (.ldlk w)
  | 0x03C => some (.stul w)
  | 0x03D => some (.ldblk w)
  | 0x040 => some (.amoadd w)
  | 0x041 => some (.amoand w)
  | 0x042 => some (.amoor w)
  | 0x043 => some (.amoxor w)
  | 0x044 => some (.amomin w)
  | 0x045 => some (.amomax w)
  | 0x046 => some (.amoswp w)
  | 0x047 => some (.amocas w)
  | 0x048 => some (.br w)
  | 0x049 => some (.bt w)
  | 0x04A => some (.bf w)
  | 0x04B => some (.jr w)
  | 0x04C => some (.loop w)
  | 0x04D => some (.done w)
  | 0x04E => some (.modex w)
  | 0x04F => some (.modei w)
  | 0x050 => some (.trap w)
  | 0x051 => some (.eret w)
  | 0x052 => some (.brk w)
  | 0x053 => some (.mfsr w)
  | 0x054 => some (.mtsr w)
  | 0x058 => some (.post w)
  | 0x059 => some (.await w)
  | 0x05A => some (.awaitp w)
  | 0x05B => some (.tksend w)
  | 0x060 => some (.bind w)
  | 0x061 => some (.acqX w)
  | 0x062 => some (.acqS w)
  | 0x063 => some (.rel w)
  | 0x064 => some (.fence w)
  | 0x065 => some (.publish w)
  | 0x066 => some (.icflush w)
  | 0x067 => some (.cbsync w)
  | 0x070 => some (.xsched w)
  | 0x071 => some (.xstage w)
  | 0x072 => some (.ringset w)
  | 0x073 => some (.awfill w)
  | 0x074 => some (.rlslot w)
  | 0x075 => some (.xstat w)
  | 0x100 => some (.vadd w)
  | 0x101 => some (.vsub w)
  | 0x102 => some (.vmul w)
  | 0x103 => some (.vfma w)
  | 0x104 => some (.vfms w)
  | 0x105 => some (.vmin w)
  | 0x106 => some (.vmax w)
  | 0x107 => some (.vabs w)
  | 0x108 => some (.vneg w)
  | 0x109 => some (.vadds w)
  | 0x10A => some (.vsubs w)
  | 0x10B => some (.vmulh w)
  | 0x10C => some (.vdiv w)
  | 0x10D => some (.vsqrt w)
  | 0x10E => some (.vrcp w)
  | 0x10F => some (.vrsq w)
  | 0x110 => some (.vexp2 w)
  | 0x111 => some (.vlog2 w)
  | 0x112 => some (.vand w)
  | 0x113 => some (.vor w)
  | 0x114 => some (.vxor w)
  | 0x115 => some (.vshl w)
  | 0x116 => some (.vshrl w)
  | 0x117 => some (.vshra w)
  | 0x118 => some (.vsel w)
  | 0x119 => some (.vcmpeq w)
  | 0x11A => some (.vcmpne w)
  | 0x11B => some (.vcmplt w)
  | 0x11C => some (.vcmple w)
  | 0x11D => some (.vclass w)
  | 0x11E => some (.vcvt w)
  | 0x11F => some (.vmov w)
  | 0x120 => some (.vbcast w)
  | 0x121 => some (.vextr w)
  | 0x122 => some (.vins w)
  | 0x123 => some (.vcomp w)
  | 0x124 => some (.vexpd w)
  | 0x125 => some (.vperm w)
  | 0x129 => some (.viota w)
  | 0x126 => some (.vredadd w)
  | 0x127 => some (.vredmax w)
  | 0x128 => some (.vredmin w)
  | 0x12A => some (.kand w)
  | 0x12B => some (.kor w)
  | 0x12C => some (.kxor w)
  | 0x12D => some (.knot w)
  | 0x12F => some (.kmov w)
  | 0x12E => some (.kpop w)
  | 0x130 => some (.vld w)
  | 0x131 => some (.vst w)
  | 0x132 => some (.vlds w)
  | 0x133 => some (.vsts w)
  | 0x134 => some (.vgath w)
  | 0x135 => some (.vscat w)
  | 0x136 => some (.vscatadd w)
  | 0x137 => some (.vspill w)
  | 0x138 => some (.vfill w)
  | 0x139 => some (.vldp w)
  | 0x13A => some (.vstp w)
  | 0x13B => some (.pset w)
  | 0x13C => some (.nld w)
  | 0x13D => some (.nst w)
  | 0x180 => some (.tmma w)
  | 0x181 => some (.tfmul w)
  | 0x182 => some (.tfadd w)
  | 0x183 => some (.tpmul w)
  | 0x184 => some (.tadd w)
  | 0x185 => some (.trecmp w)
  | 0x186 => some (.tfact w)
  | 0x187 => some (.tzero w)
  | 0x188 => some (.tmov w)
  | 0x189 => some (.tld w)
  | 0x18A => some (.tst w)
  | 0x18B => some (.trdrow w)
  | 0x18C => some (.twrrow w)
  | 0x18D => some (.tdense w)
  | 0x18E => some (.trank w)
  | 0x18F => some (.tlimit w)
  | 0x190 => some (.tpred w)
  | 0x191 => some (.tfree w)
  | 0x200 => some (.spawn w)
  | 0x201 => some (.spawnj w)
  | 0x202 => some (.sigj w)
  | 0x203 => some (.enq w)
  | 0x204 => some (.jstat w)
  | 0x205 => some (.yield w)
  | 0x206 => some (.rgnnew w)
  | 0x207 => some (.rgnset w)
  | 0x208 => some (.rgnget w)
  | 0x209 => some (.rgnkill w)
  | 0x20A => some (.pxpush w)
  | 0x20B => some (.pxflush w)
  | 0x240 => some (.srch w)
  | 0x241 => some (.ins w)
  | 0x242 => some (.del w)
  | 0x243 => some (.kvf w)
  | 0x247 => some (.darn w)
  | 0x244 => some (.rpop w)
  | 0x245 => some (.rstat w)
  | 0x246 => some (.genq w)
  | _ => none

/-- What every stream that passes an instruction reads: its tag and length (R12). -/
def decodeHead (bs : List Byte) : Except Reject (Tag × Len) :=
  match bs with
  | [] => .error .short
  | b0 :: _ =>
    match lenOf b0 with
    | none => .error .reservedLength
    | some l =>
      if bs.length < l.bytes then .error .short
      else
        match Tag.ofCode ((expand l (BitVec.ofNat 128 (leNat (bs.take l.bytes)))).extractLsb' 0 3) with
        | none => .error .reservedTag
        | some t => .ok (t, l)

/-- An internal word with the slots its opcode does not use at their absent values (R55, R63). -/
def fillAbsent (sh : Shape) (w : IWord) : IWord :=
  let src (s : SrcSlot) (lo : Nat) : BitVec 8 := if s == .none then 0xFF else w.extractLsb' lo 8
  (if sh.imm == .none then 0 else w.extractLsb' 64 32 : BitVec 32) ++ w.extractLsb' 62 2 ++
    (if sh.fcls == .none then 0 else w.extractLsb' 56 6 : BitVec 6) ++ src sh.sc 48 ++ src sh.sb 40 ++ src sh.sa 32 ++
    (if sh.dst == .none then 1 else w.extractLsb' 25 7 : BitVec 7) ++ w.extractLsb' 0 25

/-- The internal word of the first instruction in some bytes (R63), also where its fields name no instruction; the trap frame
holds it (R48). An opcode that no table lists has no slot that it does not use: its codes stay as they are expanded
(notes/assumptions/129). -/
def rawWord (l : Len) (bs : List Byte) : IWord :=
  let w := expand l (BitVec.ofNat 128 (leNat (bs.take l.bytes)))
  match shapeOf? (opcodeOf w) with
  | some sh => if l.isShort then fillAbsent sh w else w
  | none => w

/-- The first instruction in some bytes, or why it is turned away (R12, R48, R63).
A word that breaks several rules is turned away by the first of these checks (notes/assumptions/119). -/
def decode (bs : List Byte) : Except Reject Instr := do
  let (tag, l) ← decodeHead bs
  let s := BitVec.ofNat 128 (leNat (bs.take l.bytes))
  let w := expand l s
  let opc := opcodeOf w
  match shapeOf? opc with
  | none => .error .unassigned
  | some sh =>
    if !sh.tags.contains tag then .error .tagNotAllowed
    else if l == .b16 && s.extractLsb' 4 28 != 0 then .error .wideReserved
    else do
      let f ← fieldsOf l sh tag w
      match sh.check opc f with
      | some r => .error r
      | none =>
        match ofOpcode opc f with
        | some i => .ok i
        | none => .error .unassigned

/-- Five-bit code of a source; zero in a slot the opcode does not use (R63). -/
def shortSrcCode (s : SrcSlot) (o : Operand) : BitVec 5 := if s == .none then 0 else o.toCode.truncate 5
/-- Five-bit code of a destination (R63). -/
def shortDstCode (s : DstSlot) (d : Dest) : BitVec 5 := if s == .none then 0 else d.toCode.truncate 5

/-- The stored form of an opcode and its fields in the length they name (R59 to R62). -/
def store (opc : Nat) (sh : Shape) (w : Ins) : Nat :=
  let iw := wordOf opc w
  let op7 := BitVec.ofNat 7 opc
  match w.len with
  | .b4 =>
    (shortSrcCode sh.sb w.sb ++ shortSrcCode sh.sa w.sa ++ shortDstCode sh.dst w.dst ++ w.lat ++
      BitVec.ofBool w.tok.wf ++ BitVec.ofBool w.tok.pf ++ op7 ++ w.tag.toCode ++ (0 : BitVec 1)).toNat
  | .b8 =>
    ((w.imm.truncate 16 : BitVec 16) ++ shortSrcCode sh.sc w.sc ++ shortSrcCode sh.sb w.sb ++ shortSrcCode sh.sa w.sa ++
      shortDstCode sh.dst w.dst ++ w.fmt ++ w.lat ++ w.pred ++
      BitVec.ofBool w.tok.wf ++ BitVec.ofBool w.tok.pf ++ op7 ++ w.tag.toCode ++ (1 : BitVec 2)).toNat
  | .b12 => (w.tag.toCode ++ (w.imm.truncate 29 : BitVec 29) ++ iw.extractLsb' 3 61 ++ (3 : BitVec 3)).toNat
  | .b16 => (w.imm ++ iw.extractLsb' 0 64 ++ (0 : BitVec 28) ++ (7 : BitVec 4)).toNat

/-- The stored bytes of a well-formed instruction; the rows that are no code have none. -/
def encode (i : Instr) : Option (List Byte) :=
  match i.code? with
  | none => none
  | some (opc, w) =>
    match shapeOf? opc with
    | none => none
    | some sh => if i.wellFormed then some (leBytes w.len.bytes (store opc sh w)) else none

/-- The instruction the decoder reads from the bits `w` of an instruction, its first byte lowest; bits above `nbits` are
zero, up to the longest form of 16 bytes. -/
def decodeTableWord (nbits w : Nat) : Option Instr :=
  match decode (leBytes 16 (w % 2 ^ nbits)) with
  | .ok i => some i
  | .error _ => none

end Sys2Proof
end

