-- ==== Sys2Proof/Machine/Operands.lean ====
section
/-! DEFINITION. Operands: the registers an operand names, whether one has a write in flight, and the values read, undefined
where the spec makes them so (01 R15, R17, R20, R23; 04 R111; 06 R178, R179). -/

namespace Sys2Proof.Machine

/-- A register or other destination that an instruction in flight may be about to write. -/
inductive Res where
  | x (stream n : Nat)
  | q (stream alloc : Nat)
  | b (n : Nat)
  | mask (n : Nat)
  | sys (n : Nat)
  | v (n : Nat)
  | cb (n : Nat)
  | z (n : Nat)
  | nest (n : Nat)
  | port (n : Nat)
  | ring (n : Nat)
  | rowpred
  deriving DecidableEq, Repr

def Target.res : Target → Res
  | .x st n => .x st n
  | .q st a => .q st a
  | .b n => .b n
  | .sys n => .sys n

/-- What a command writes at its landing. -/
def Command.res : Command → List Res
  | .acquire _ _ _ (some t) => [t.res]
  | .acquired _ _ _ (some t) _ => [t.res]
  | .lock _ t => [t.res]
  | .pop _ t => [t.res]
  | .rgnNew _ _ (some t) => [t.res]
  | .retrieval _ (some t) => [t.res]
  | .deviceLoad _ _ _ t => [t.res]
  | .bindPort p _ _ => [.port p]
  | .rowpred _ => [.rowpred]
  | .clearBitmap n _ => [.cb n]
  | .ringset r _ => [.ring r]
  | _ => []

/-- What an effect writes at its landing. -/
def Effect.res : Effect → List Res
  | .reg t _ => [t.res]
  | .kreg n _ _ => [.mask n]
  | .vec n _ _ => [.v n]
  | .tile n _ => [.z n]
  | .nest n _ => [.nest n]
  | .command c => c.res
  | _ => []

/-- Some operation of the given stream that writes `r` has not landed. -/
def Ctx.pending (c : Ctx) (st : Nat) (r : Res) : Bool :=
  c.flights.any fun f => f.stream = st && f.eff.res.contains r

/-- Some operation of any stream that writes `r` has not landed (R178). -/
def Ctx.pendingAny (c : Ctx) (r : Res) : Bool := c.flights.any fun f => f.eff.res.contains r

/-- Allocation number of queue entry `qn` (R15); none while fewer than n+1 entries were allocated. -/
def Ctx.qAlloc (c : Ctx) (st n : Nat) : Option Nat :=
  let k := (c.stream st).qCount
  if n < k then some (k - 1 - n) else none

/-- The destinations whose latest write a read of an operand must see (R23). -/
def Ctx.srcRes (c : Ctx) (st : Nat) : Operand → List Res
  | .q n => (match c.qAlloc st n with
      | some a => [.q st a]
      | none => [])
  | .x n => [.x st n]
  | .v n => [.v n]
  | .z n => [.z n]
  | .p n => [.port n]
  | .pk n => [.port n]
  | .k n => [.mask n]
  | .b n => [.b n]
  | .n i => [.nest i]
  | .cb n => [.cb n]
  | _ => []

/-- In interlocked mode a read waits for the stream's own latest write to land (R23, R178). -/
def Ctx.blocked (c : Ctx) (st : Nat) (rs : List Res) : Bool := !c.exposed && rs.any (c.pending st)

/-- Address space of the running task (R336). -/
def State.asn (s : State) : Nat := s.partOf s.focus

/-- A byte that a task may read, chosen by a number: zero, or one of its scalar registers, of its scratchpad or of the memory its
translation lets it read (R7). -/
def State.readableByte (s : State) (core asn : Nat) (c : Ctx) (i : Nat) : Byte :=
  let n := i / 4
  match i % 4 with
  | 0 => 0
  | 1 => (vget 0 (c.stream (n % 5)).x (n / 5 % 16)).extractLsb' (8 * (n / 80 % 8)) 8
  | 2 => if c.spadGrant = 0 then 0 else (s.spadRead core (c.spbase + n % c.spadGrant) 1).headD 0
  | _ => match s.vaLook asn n .read with
    | some pa => BitVec.ofNat 8 (s.peek pa 1)
    | none => 0

/-- An undefined byte: each bit is that bit of some readable byte, no one can say which (R7; notes/assumptions/8). -/
def mixByte (src : Nat → Byte) (use place : Nat) : Byte :=
  (List.range 8).foldl (fun a j => a ||| (src (Config.freePick use (8 * place + j)) &&& BitVec.twoPow 8 j)) 0

/-- An undefined byte of the running context's task (R7). -/
def State.freeMix (s : State) (place : Nat) : Byte := mixByte (s.readableByte s.focus s.asn s.ctx) s.freeCount place

/-- The free value of a use: an operand slot of one issue (notes/assumptions/8). -/
def State.freeW (s : State) (slot : Nat) : Word :=
  (List.range 8).foldl (fun a i => a ||| ((s.freeMix (8 * slot + i)).setWidth 64 <<< (8 * i))) 0
def State.freeLanes (s : State) (slot : Nat) : Vector Lane 64 :=
  Vector.ofFn fun (j : Fin 64) =>
    (List.range 4).foldl (fun a i => a ||| ((s.freeMix (1024 * (slot + 1) + 4 * j.val + i)).setWidth 32 <<< (8 * i))) 0

/-- IMM sign-extended to 64 bits (R56 code 0x91, R111). -/
def immW (w : Ins) : Word := w.imm.signExtend 64

/-- A named scalar or queue entry of a stream as a read at issue finds it (R15, R20). -/
def State.readX (s : State) (st n slot : Nat) : Word :=
  if s.ctx.pending st (.x st n) then s.freeW slot else vget 0 (s.ctx.stream st).x n

def State.readQ (s : State) (st n slot : Nat) : Word :=
  match s.ctx.qAlloc st n with
  | none => 0
  | some a => if s.ctx.pending st (.q st a) then s.freeW slot else vget 0 (s.ctx.stream st).q n

/-- A scalar source (R111); `tk` is the popped payload (R33), `slot` numbers the free value of an undefined read. -/
def State.srcWord (s : State) (st : Nat) (tk : Word) (w : Ins) (slot : Nat) : Operand → Word
  | .q n => s.readQ st n slot
  | .x n => s.readX st n slot
  | .tk => tk
  | .imm => immW w
  | _ => 0

/-- The three scalar sources of an instruction. -/
def State.srcA (s : State) (st : Nat) (tk : Word) (w : Ins) : Word := s.srcWord st tk w 0 w.sa
def State.srcB (s : State) (st : Nat) (tk : Word) (w : Ins) : Word := s.srcWord st tk w 1 w.sb
def State.srcC (s : State) (st : Nat) (tk : Word) (w : Ins) : Word := s.srcWord st tk w 2 w.sc

/-- A branch condition as S reads it (R29, R53). -/
def State.readB (s : State) (n slot : Nat) : Bool :=
  if s.ctx.pending 0 (.b n) then (s.freeW slot).getLsbD 0 else s.ctx.b.getLsbD n

/-- A mask (R177): k0 reads as all ones. -/
def State.readMask (s : State) (st n slot : Nat) : Word :=
  if n = 0 then BitVec.allOnes 64
  else if s.ctx.pending st (.mask n) then s.freeW slot else vget 0 s.ctx.k n

/-- A completion bitmap; undefined against a write in flight (R178). -/
def State.readCb (s : State) (n slot : Nat) : Word :=
  if s.ctx.pendingAny (.cb n) then s.freeW slot else vget 0 s.ctx.cb n

def Ctx.vreg (c : Ctx) (n : Nat) : VReg := vget { lanes := Vector.replicate 64 0, tag := 0 } c.v n

/-- Vector lanes; undefined against a write in flight (R20, R178). -/
def State.readLanes (s : State) (n slot : Nat) : Vector Lane 64 :=
  if s.ctx.pendingAny (.v n) then s.freeLanes slot else (s.ctx.vreg n).lanes

/-- A nest register; undefined against a write in flight (R178). -/
def State.readNest (s : State) (n slot : Nat) : BitVec 512 :=
  if s.ctx.pendingAny (.nest n) then
    (List.range 8).foldl (fun (a : BitVec 512) i => a ||| ((s.freeW (slot + i)).setWidth 512 <<< (64 * i))) 0
  else vget 0 s.ctx.nests n

def Ctx.tile (c : Ctx) (n : Nat) : Tile := vget Tile.reset c.z n

/-- The target of a scalar destination; a new queue entry takes the next allocation number (R15, R57). -/
def Ctx.target (c : Ctx) (st : Nat) : Dest → Option Target
  | .q => some (.q st (c.stream st).qCount)
  | .x n => some (.x st n)
  | .b n => some (.b n)
  | _ => none

/-- The S predicate holds (R53, R112); other tags have none here. -/
def State.predHolds (s : State) (w : Ins) : Bool :=
  let n := (w.pred &&& 7).toNat
  if w.tag ≠ .S || n = 0 then true else s.readB n 9 != w.pred.getLsbD 3

/-- The lane predicate of tag V (R53, R181); every lane under L and W. -/
def State.lanePred (s : State) (w : Ins) : Word :=
  if w.tag ≠ .V then BitVec.allOnes 64
  else
    let m := s.readMask 3 (w.pred &&& 7).toNat 9
    if w.pred.getLsbD 3 then ~~~m else m

/-- The registers a predicate reads. -/
def predRes (w : Ins) : List Res :=
  let n := (w.pred &&& 7).toNat
  if n = 0 then [] else match w.tag with
    | .S => [.b n]
    | .V => [.mask n]
    | _ => []

/-- What an instruction's operands and predicate read. -/
def Ctx.readRes (c : Ctx) (st : Nat) (w : Ins) : List Res :=
  c.srcRes st w.sa ++ c.srcRes st w.sb ++ c.srcRes st w.sc ++ predRes w

end Sys2Proof.Machine
end

