-- ==== Sys2Proof/Machine/Ops.lean ====
section
/-! DEFINITION. The issue of an instruction of code: its waits, predicate, tokens, result-queue allocation and flights, the
trap it may raise instead, and the walk past it (01 R11 to R36; 04 R112, R125; 09 R268, R271, R287). -/

namespace Sys2Proof.Machine

/-- A trap an instruction raises (R41, R269, R270). -/
structure Trap where
  cause : Nat
  aux   : Nat := 0
  addr  : Option Nat := none
  straddle : Bool := false
  cbsel : Option Nat := none
  deriving DecidableEq, Repr

/-- What an instruction does at its issue: it waits, it traps, or it goes on in a state with the effects that land after a
latency, and the payload of a token it pushes (R35). -/
inductive IssueRes where
  | wait
  | trap (t : Trap)
  /-- a trap that leaves what the access did outside the context (a walk, a refused write counted by R334) -/
  | trapIn (s : State) (t : Trap)
  /-- the instruction does not issue and its stream stays, in a state it has brought about (a debug stop, R285) -/
  | stay (s : State)
  | ok (s : State) (effs : List Effect) (payload : Word) (lat : Nat)

/-- The stream that executes an instruction: its tag's, or under tag A (and at ERET) the one whose turn it is (R11, R142). -/
def State.streamOf (s : State) (w : Ins) : Nat :=
  if w.tag = .A then s.here.turn - 1 else tagStream w.tag

/-- The turn of a cycle passes to the stream after `st`. -/
def State.passTurn (s : State) (st : Nat) : State := s.setHere { s.here with turn := st + 2 }

/-- Token queues 0 to 5: LM, ML, MV, VM, VW, WV (R31). The queue a stream pushes forward on, pushes back on, pops the forward
token of, and pops the backward token of. -/
def pfQueue (st : Nat) : Nat := 2 * (st - 1)
def pbQueue (st : Nat) : Nat := 2 * (st - 2) + 1
def wfQueue (st : Nat) : Nat := 2 * (st - 2)
def wbQueue (st : Nat) : Nat := 2 * (st - 1) + 1

def Ctx.queue (c : Ctx) (n : Nat) : List Token := vget [] c.tokens n

/-- Payload of the oldest token of a queue, when it is visible (R33, R34). -/
def Ctx.headToken (c : Ctx) (n : Nat) : Option Word :=
  match c.queue n with
  | t :: _ => t.v
  | [] => none

/-- The waits of R33 and R34 are over: each popped queue has a visible token, each pushed one an entry to reserve. A
re-executed instruction finds its own work done (R43). -/
def Ctx.tokensReady (c : Ctx) (st : Nat) (k : Tok) (r : Option Redo) : Bool :=
  (!k.wf || (r.bind (·.wfd)).isSome || (c.headToken (wfQueue st)).isSome) &&
  (!k.wb || (r.bind (·.wbd)).isSome || (c.headToken (wbQueue st)).isSome) &&
  (!k.pf || (r.bind (·.pfr)).isSome || (c.queue (pfQueue st)).length < 16) &&
  (!k.pb || (r.bind (·.pbr)).isSome || (c.queue (pbQueue st)).length < 16)

/-- The payload an instruction reads as `tk`: the forward one when WF is set, else the backward one (R33, R43). -/
def Ctx.payload (c : Ctx) (st : Nat) (k : Tok) (r : Option Redo) : Word :=
  if k.wf then ((r.bind (·.wfd)).orElse fun _ => c.headToken (wfQueue st)).getD 0
  else if k.wb then ((r.bind (·.wbd)).orElse fun _ => c.headToken (wbQueue st)).getD 0
  else 0

/-- Drop the head of a queue. -/
def Ctx.popQueue (c : Ctx) (n : Nat) : Ctx := { c with tokens := vset c.tokens n (c.queue n).tail }

/-- Reserve an entry on a queue; its identity is answered (R34). -/
def Ctx.reserve (c : Ctx) (n : Nat) : Ctx × Nat :=
  ({ c with tokens := vset c.tokens n (c.queue n ++ [⟨c.tokenNext, none⟩]), tokenNext := c.tokenNext + 1 }, c.tokenNext)

/-- The issue work of R43: pops, with their payloads kept, and reserved entries. -/
def Ctx.issueWork (c : Ctx) (st : Nat) (k : Tok) (r : Option Redo) : Ctx × Redo :=
  let wfd := if k.wf then (r.bind (·.wfd)).orElse fun _ => c.headToken (wfQueue st) else none
  let wbd := if k.wb then (r.bind (·.wbd)).orElse fun _ => c.headToken (wbQueue st) else none
  let c := if k.wf && (r.bind (·.wfd)).isNone then c.popQueue (wfQueue st) else c
  let c := if k.wb && (r.bind (·.wbd)).isNone then c.popQueue (wbQueue st) else c
  let (c, pfr) := if k.pf then
      match r.bind (·.pfr) with
      | some i => (c, some i)
      | none => (let p := c.reserve (pfQueue st); (p.1, some p.2))
    else (c, none)
  let (c, pbr) := if k.pb then
      match r.bind (·.pbr) with
      | some i => (c, some i)
      | none => (let p := c.reserve (pbQueue st); (p.1, some p.2))
    else (c, none)
  (c, { awd := (r.map (·.awd)).getD false, pfr, pbr, wfd, wbd })

/-- Issued instructions of a stream whose landing has not come (R268). -/
def Ctx.issuedCount (c : Ctx) (st : Nat) : Nat :=
  (((c.flights.filter fun f => f.stream = st).map fun f => f.seq).eraseDups).length

/-- What orders two writes: effects on one destination, and stores and posts not at all (R23). -/
def Effect.shares (a b : Effect) : Bool := a.res.any fun r => b.res.contains r

/-- The landing cycle of an effect issued now with a latency: in interlocked mode no earlier than an earlier write of the same
destination (R19, R21, R23). -/
def Ctx.landCycle (c : Ctx) (e : Effect) (lat : Nat) : Nat :=
  let t := c.cycle + lat
  if c.exposed then t
  else c.flights.foldl (fun t f => if f.eff.shares e then max t f.land else t) t

/-- The format tag the destination of an effect takes (R20, R274). -/
def Ctx.tagFor (c : Ctx) : Effect → BitVec 6
  | .vec n _ _ => (vget { lanes := Vector.replicate 64 0, tag := 0 } c.v n).tag
  | .tile _ (.write _ _ _ _ _ _) => 0x1F
  | .tile n (.limit _) => (vget Tile.reset c.z n).tag
  | _ => 0

/-- Put the effects of one instruction in flight (R19, R274). -/
def Ctx.launch (c : Ctx) (st pc : Nat) (iw : IWord) (ops : Word × Word × Word) (bound lat : Nat)
    (effs : List Effect) : Ctx :=
  { c.setStream st { c.stream st with last := c.seqNext } with
    flights := c.flights ++ effs.map fun e =>
      { seq := c.seqNext, stream := st, issued := c.cycle, land := c.landCycle e lat, bound, pc, word := iw, tag := c.tagFor e, eff := e,
        a := ops.1, b := ops.2.1, c := ops.2.2, done := false, back := none,
        ready := if c.array.any (fun x => x.1 = c.seqNext) then none else some 0 }
    seqNext := c.seqNext + 1 }

/-- An operation that, once issued, may wait without bound (R449). -/
def Effect.unbounded : Effect → Bool
  | .command (.acquire _ _ _ _) => true
  | .command (.release _) => true
  | .command (.lock _ _) => true
  | .command (.pop _ _) => true
  | .command (.proxyPush _ _ _ _ _) => true
  | _ => false

/-- The instruction issued last keeps the stream as it stood before it, where its operation may be withdrawn (R449). -/
def Ctx.keepBack (c : Ctx) (back : Stream) : Ctx :=
  { c with flights := c.flights.map fun f => if f.seq + 1 = c.seqNext && f.eff.unbounded then { f with back := some back } else f }

/-- A new result-queue entry, holding zero until its result lands (R15). -/
def Stream.allocate (t : Stream) : Stream :=
  { t with q := Vector.ofFn fun (i : Fin 16) => if i.val = 0 then 0 else vget 0 t.q (i.val - 1), qCount := t.qCount + 1 }

/-- Flow that reaches `pc` by sequence: at a body end the innermost loops that end there count down or pop (R125). The loops
popped are answered, innermost first. -/
def bodyEnd (pc : Nat) : List LoopEntry → Nat × List LoopEntry × List LoopEntry
  | [] => (pc, [], [])
  | l :: ls =>
    if l.stop ≠ pc then (pc, l :: ls, [])
    else if 1 < l.trips then (l.start, { l with trips := l.trips - 1 } :: ls, [])
    else
      let r := bodyEnd pc ls
      (r.1, r.2.1, l :: r.2.2)

/-- A taken transfer pops the entries whose body does not hold the target (R28). -/
def popOutside (target : Nat) : List LoopEntry → List LoopEntry × List LoopEntry
  | [] => ([], [])
  | l :: ls =>
    -- an entry goes when the target lies outside it, and everything nested in an entry that goes
    let r := popOutside target ls
    if r.2.isEmpty && l.start ≤ target && target < l.stop then (l :: ls, [])
    else (r.1, l :: r.2)

/-- The stream passes one instruction of `len` bytes by sequence; the program counter has 48 bits (R14, R25, R125). -/
def Ctx.stepPast (c : Ctx) (st len : Nat) : Ctx × List LoopEntry :=
  let t := c.stream st
  let r := bodyEnd ((t.pc + len) % 2 ^ 48) t.loops
  (c.setStream st { t with pc := r.1, loops := r.2.1, pos := t.pos + 1, redo := none, passBrk := false }, r.2.2)

/-- The stream goes to a target, taken (R28). -/
def Ctx.jumpTo (c : Ctx) (st target : Nat) : Ctx × List LoopEntry :=
  let t := c.stream st
  let r := popOutside target t.loops
  (c.setStream st { t with pc := target, loops := r.1, pos := t.pos + 1, redo := none, passBrk := false }, r.2)

/-- The bank-conflict part of a profile record (R286, R287): overflow bits and counters. -/
def Ctx.profBytes (c : Ctx) (stop : Nat) : List Byte :=
  natBytes 8 c.profNext ++ natBytes 8 c.cycle ++ natBytes 8 stop ++ natBytes 8 c.freeze ++ natBytes 32 0 ++
    natBytes 64 (c.overflow.foldl (fun a i => a + 2 ^ i) 0) ++
    (List.range 512).flatMap fun i => natBytes 4 (tget 0 c.conflicts i)

/-- The banks that the rows of some bytes lie in, row by row (R151). -/
def banksOf (off n : Nat) : List Nat := if n = 0 then [] else (List.range ((off % 128 + n + 127) / 128)).map fun i => (off / 128 + i) % 32

/-- A requester asks for the banks of some bytes of the scratchpad, given as spans of the grant (R152). -/
def Ctx.askBanks (c : Ctx) (req : Nat) (spans : List (Nat × Nat)) : Ctx :=
  let bs := spans.flatMap fun x => banksOf x.1 x.2
  { c with wants := bs.eraseDups.foldl (fun ws b => let i := 32 * req + b; tset ws i (tget 0 ws i + bs.count b)) c.wants }
def State.askBanks (s : State) (req : Nat) (spans : List (Nat × Nat)) : State := s.setCtx (s.ctx.askBanks req spans)

/-- The requester that a stream's accesses count for (R152; notes/assumptions/126). -/
def streamReq (st : Nat) : Nat := match st with
  | 0 => 8
  | 1 => 9
  | 2 => 14
  | 3 => 11
  | _ => 10

/-- Core cycles the context has seen, frozen ones included (R210). -/
def Ctx.coreCycle (c : Ctx) : Nat := c.cycle + c.freeze

/-- Some request of a requester for a bank waits. -/
def Ctx.wantsBank (c : Ctx) (req bank : Nat) : Bool := tget 0 c.wants (32 * req + bank) ≠ 0

/-- The requester that a bank grants in a core cycle (R152; notes/assumptions/126). -/
def Ctx.granted1 (c : Ctx) (cycle bank : Nat) : Option Nat :=
  ((List.range 16).map fun i => (cycle + i) % 16).find? fun r => c.wantsBank r bank

/-- The counters of the requests that lose in a core cycle, LDLK retries among them (R152, R167, R286). -/
def Ctx.losers (c : Ctx) (cycle : Nat) : List Nat :=
  (((c.wants.map (·.1)).filter fun i => c.granted1 cycle (i % 32) ≠ some (i / 32)) ++ c.flights.filterMap fun f => match f.eff with
    | .command (.lock off _) => if f.issued < c.cycle then some (32 * (8 + f.stream) + bits off 11 7) else none
    | _ => none).eraseDups

/-- A bank-conflict counter adds one: it wraps at 32 bits and sets its overflow bit (R286). -/
def Ctx.countConflict (c : Ctx) (i : Nat) : Ctx :=
  let v := tget 0 c.conflicts i + 1
  { c with conflicts := tset c.conflicts i (v % 2 ^ 32),
           overflow := if v < 2 ^ 32 || c.overflow.contains i then c.overflow else c.overflow ++ [i] }

/-- The counters that pass their end in a core cycle (R286). -/
def Ctx.wraps (c : Ctx) (cycle : Nat) : List Nat := (c.losers cycle).filter fun i => tget 0 c.conflicts i + 1 = 2 ^ 32

/-- Each bank grants one request, and the others lose the cycle (R152, R286). -/
def Ctx.arbitrate (c : Ctx) (cycle : Nat) : Ctx :=
  let c1 := (c.losers cycle).foldl (fun c i => c.countConflict i) c
  { c1 with wants := (List.range 32).foldl (fun (ws : List (Nat × Nat)) bank => match c.granted1 cycle bank with
    | some r =>
      let i := 32 * r + bank
      if tget 0 c.wants i = 1 then tdel ws i else tset ws i (tget 0 c.wants i - 1)
    | none => ws) c.wants }

/-- The banks serve what still waits while the context stands stopped, from some core cycle on (R152). -/
def Ctx.serveBanks (c : Ctx) (cycle : Nat) : Nat → Ctx
  | 0 => { c with wants := [] }
  | k + 1 => if c.wants.all fun p => p.1 / 32 = 15 then { c with wants := [] } else (c.arbitrate cycle).serveBanks (cycle + 1) k

/-- The end of a core cycle for the profile counters: banks are granted, and a clear asked for in the cycle takes effect and
discards its increments, but for the overflow bits they set (R286). -/
def Ctx.endProfile (c : Ctx) : Ctx :=
  if c.wants.isEmpty && c.flights.isEmpty && !c.profBusy && !c.profClear then c
  else
    let c1 := { c.arbitrate c.coreCycle with profBusy := false }
    if !c.profClear then c1
    else { c1 with conflicts := [], overflow := c1.overflow.filter fun i => tget 0 c1.conflicts i < tget 0 c.conflicts i,
                   profClear := false }

/-- Counters of the running context that wrapped raise a notice to the leaf controller of the cluster, if the region enables it
(R286, R304): the core, the context and the counter. -/
def State.raiseNotices (s : State) (wraps : List Nat) : State :=
  if wraps.isEmpty || !(s.ctx.task.any fun t => bit t.profFlags 2) then s
  else
    let k := s.cluster (clusterOf s.focus)
    s.setCluster (clusterOf s.focus) { k with notices := k.notices ++ wraps.map fun i => (s.focus, s.here.running, i) }

/-- The end of a core cycle of the running context for the profile counters (R286). -/
def State.endProfile (s : State) : State := (s.setCtx s.ctx.endProfile).raiseNotices (s.ctx.wraps s.ctx.coreCycle)

/-- Scratchpad accesses of requester 15 at a core, save, restore or debug (R152, R175, R282): they contend with the context that runs
there, if one moves. -/
def State.askSave (s : State) (core : Nat) (spans : List (Nat × Nat)) : State :=
  let c := s.runCtx core
  if c.task.any (fun t => !t.gated) && !c.dbg.stopped then s.setRunCtx core (c.askBanks 15 spans) else s

/-- Record a fault of a stream; it is taken when the cycle ends (R41, R276). -/
def State.addFault (s : State) (f : Fault1) : State := s.setCtx { s.ctx with faults := s.ctx.faults ++ [f] }

/-- A trap raised at the walk or at an issue by stream `st` on the instruction at its pc. -/
def State.raise (s : State) (st : Nat) (iw : IWord) (t : Trap) (redo : Option Redo) : State :=
  (s.addFault { cause := t.cause, origin := st, pc := (s.ctx.stream st).pc, word := iw, aux := t.aux, addr := t.addr,
                straddle := t.straddle, imprecise := false, redo, cbsel := t.cbsel, seqPart := none }).passTurn st

/-- The first whole step of an issue: does it wait on registers it reads (R23, R268)? -/
def Ctx.holds (c : Ctx) (st : Nat) (rs : List Res) : Bool := c.blocked st rs || 64 ≤ c.issuedCount st

/-- A context that may move: it has a task that has started (R354) and stands under no debug stop (R149, R284). -/
def Ctx.moves (c : Ctx) : Bool := c.task.any (fun t => !t.gated) && !c.dbg.stopped

/-- Units of `time` in one nanosecond. -/
def timeUnit : Nat := 720720

/-- The die timebase in nanoseconds (R145). -/
def State.tbase (s : State) : Nat := s.time / timeUnit

/-- One core cycle in units of `time`: 1.6 GHz less the throttle's sixteenths (R2, R439). -/
def State.cycleTime (s : State) : Nat := 10 * timeUnit / (16 - min s.host.throttle 15)

/-- A core cycle of time passes: what takes effect at its end does (R330), and the gangs whose instant has come start (R354). -/
def State.passCycle (s : State) : State := { s with time := s.time + s.cycleTime, die := s.die.endCycle }.startGangs

/-- Pass the focus to the next core whose running context may move; when the round starts again, a core cycle of time has
passed (notes/assumptions/7). -/
def State.rotate (s : State) : State :=
  let order := (List.range 128).map fun i => (s.focus + 1 + i) % 128
  match order.find? fun n => (s.runCtx n).moves with
  | none => s.passCycle
  | some n => { (if n ≤ s.focus then s.passCycle else s) with focus := n }

/-- A context frozen at an issue: no schedule cycle passes, the turn stays, and the other cores go on (R19, R268). -/
def State.frozen (s : State) : State := (s.endProfile.setCtx { s.endProfile.ctx with freeze := s.ctx.freeze + 1 }).rotate

/-- The body's effects, tokens and queue allocation are entered and the stream passes the instruction (R19, R34, R35). -/
def State.commitIssue (s : State) (st : Nat) (iw : IWord) (w : Ins) (redo : Option Redo) (ops : Word × Word × Word)
    (effs : List Effect) (payload : Word) (lat : Nat) : State × List LoopEntry :=
  let (c, work) := s.ctx.issueWork st w.tok redo
  let push := (match work.pfr with
      | some i => [Effect.token (pfQueue st) i payload]
      | none => []) ++
    (match work.pbr with
      | some i => [Effect.token (pbQueue st) i payload]
      | none => [])
  let effs := effs ++ push
  let effs := if effs.isEmpty then [Effect.mark] else effs
  let back := { s.ctx.stream st with redo := some work }
  let c := (c.launch st (c.stream st).pc iw ops (latBound w.lat) lat effs).keepBack back
  let c := if w.dst = .q then c.setStream st (c.stream st).allocate else c
  let (c, popped) := c.stepPast st w.len.bytes
  (({ s with freeCount := s.freeCount + 1 }.setCtx c).passTurn st, popped)

/-- A profile snapshot where S pops a loop entry, if the region asks for it (R287): set in `Machine/Profile.lean`. -/
abbrev ProfileHook := State → Nat → List LoopEntry → State

/-- The issue of an instruction of code (R11 to R36, R112). `extra` names registers it reads beyond its operands, `early`
gives the traps raised at its issue before any issue work (R94, R271; notes/assumptions/73), `ready` the waits of its own, `body`
what it does. -/
def State.issue (s : State) (i : Instr) (w : Ins) (hook : ProfileHook) (extra : List Res) (early : State → Option Trap)
    (ready : State → Bool) (body : State → Nat → Word → IssueRes) : State :=
  let st := s.streamOf w
  let c := s.ctx
  let redo := (c.stream st).redo
  let tk := c.payload st w.tok redo
  let ops := (s.srcA st tk w, s.srcB st tk w, s.srcC st tk w)
  let done (s : State) (effs : List Effect) (payload : Word) (lat : Nat) : State :=
    let r := s.commitIssue st i.word w redo ops effs payload lat
    hook r.1 st r.2
  if 64 ≤ c.issuedCount st then (if c.exposed then s.frozen else s.passTurn st)
  else if c.blocked st (predRes w) then s.passTurn st
  else if !s.predHolds w then done s [] 0 (latBound w.lat)
  else if c.blocked st (c.readRes st w ++ extra) then s.passTurn st
  else if !c.tokensReady st w.tok redo || !ready s then s.passTurn st
  else
    match early s with
    | some t => s.raise st i.word t none
    | none =>
      match body s st tk with
      | .wait => s.passTurn st
      | .trap t =>
        let r := c.issueWork st w.tok redo
        (s.setCtx r.1).raise st i.word t (some r.2)
      | .stay s1 => s1
      | .trapIn s1 t =>
        let r := s1.ctx.issueWork st w.tok redo
        (s1.setCtx r.1).raise st i.word t (some r.2)
      | .ok s1 effs payload lat => done s1 effs payload lat

end Sys2Proof.Machine
end

