-- ==== Sys2Proof/Machine/Profile.lean ====
section
/-! DEFINITION. The profile snapshot at a loop exit of S (09 R286, R287), and the issue of an instruction with it. -/

namespace Sys2Proof.Machine

/-- Write bytes of normal memory through the core's cache; a page that cannot be written takes none of them. -/
def State.putBytes (s : State) (core asn va : Nat) (bs : List Byte) : State :=
  match s.translateRange core asn va .write (pageFuel bs.length) bs.length with
  | (.error _, s1) => s1
  | (.ok ps, s1) =>
    if (s1.pieceFault core asn false false ps).isSome then s1
    else (s1.performCells core asn (pieceCells ps (bs.map fun b => (b, 0xFF)))).1

/-- One snapshot of the loop that ends at `stop`: the record, then the sequence count (R287). It is being written until the end of
the core cycle, and one due before that is dropped and counted (notes/assumptions/113). -/
def State.snapshot (s : State) (stop : Nat) : State :=
  match s.ctx.task with
  | none => s
  | some t =>
    if !bit t.profFlags 0 || t.profSlots = 0 then s
    else if s.ctx.profBusy then
      let k := s.ctx.profDrops + 1
      let s1 := s.putBytes s.focus t.part (t.profBase + 8) (natBytes 8 k)
      s1.setCtx { s1.ctx with profDrops := k }
    else
      let n := s.ctx.profNext
      let rec1 := s.ctx.profBytes stop
      let s1 := s.putBytes s.focus t.part (t.profBase + 64 + 2176 * (n % t.profSlots)) rec1
      let s2 := s1.putBytes s.focus t.part t.profBase (natBytes 8 (n + 1))
      let c := s2.ctx
      s2.setCtx { c with profNext := n + 1, profBusy := true, profClear := c.profClear || bit t.profFlags 1 }

/-- After S popped loop entries: a snapshot for each whose depth after the pop is within the profile depth (R287). -/
def profileHook : ProfileHook := fun s st popped =>
  if st ≠ 0 then s
  else match s.ctx.task with
    | none => s
    | some t =>
      let left := (s.ctx.stream 0).loops.length
      (popped.zipIdx).foldl (fun s (p : LoopEntry × Nat) =>
        if left + (popped.length - 1 - p.2) ≤ t.profDepth then s.snapshot p.1.stop else s) s

/-- The issue of an instruction as every meaning of code uses it. -/
def State.run (s : State) (i : Instr) (w : Ins) (early : State → Option Trap) (body : State → Nat → Word → IssueRes) :
    Host.Outcome State Fault Refusal :=
  .next (s.issue i w profileHook [] early (fun _ => true) body)

/-- No trap before the issue work. -/
def noEarly : State → Option Trap := fun _ => none

end Sys2Proof.Machine
end

