-- ==== Sys2Proof/Machine/Flags.lean ====
section
/-! DEFINITION. Flag computations: Kalvel has no flag register. A compare gives 1 or 0 in its destination, a branch condition
takes bit 0 (R111, R115), and a lane compare gives one bit of a mask (R188). -/

namespace Sys2Proof.Machine

/-- The 64-bit result of a relation (R115). -/
def flagWord (b : Bool) : Word := if b then 1 else 0

/-- The bit a branch condition takes of a result (R111). -/
def flagBit (v : Word) : Bool := v.getLsbD 0

/-- Set bit `n` of b0 to b7. -/
def setFlag (b : BitVec 8) (n : Nat) (v : Bool) : BitVec 8 :=
  if v then b ||| BitVec.twoPow 8 n else b &&& ~~~(BitVec.twoPow 8 n)

/-- Bits 0 to `k-1` of a mask, bit `j` the answer for `j`. -/
def maskUpTo (p : Nat → Bool) : Nat → Word
  | 0 => 0
  | k + 1 => if p k then maskUpTo p k ||| BitVec.twoPow 64 k else maskUpTo p k

/-- The mask word whose bit `j` is the answer for lane `j` (R188). -/
def maskOf (p : Nat → Bool) : Word := maskUpTo p 64

/-- Relations of R115. -/
def relEq (a b : Word) : Bool := a == b
def relNe (a b : Word) : Bool := a != b
def relLt (a b : Word) : Bool := a.toInt < b.toInt
def relLe (a b : Word) : Bool := a.toInt ≤ b.toInt
def relLtn (a b : Word) : Bool := a.toNat < b.toNat
def relLen (a b : Word) : Bool := a.toNat ≤ b.toNat

end Sys2Proof.Machine
end

