-- ==== Sys2Proof/Machine/ScalarAlu.lean ====
section
/-! DEFINITION. Integer arithmetic (04 R113 to R116): one meaning per opcode over the shared issue. -/

namespace Sys2Proof.Machine

/-- The effect of a 64-bit result on its destination (R57, R111): none when it has no destination. -/
def Ctx.result (c : Ctx) (st : Nat) (d : Dest) (v : Word) : List Effect :=
  match c.target st d with
  | some t => [.reg t v]
  | none => []

/-- A scalar instruction that computes one result from its sources and traps on no value (R113). -/
def State.alu (s : State) (i : Instr) (w : Ins) (f : Word → Word → Word → Word) : Host.Outcome State Fault Refusal :=
  s.run i w noEarly fun s st tk =>
    let v := f (s.srcA st tk w) (s.srcB st tk w) (s.srcC st tk w)
    .ok s (s.ctx.result st w.dst v) v (latBound w.lat)

/-- Shift count b[5:0] (R113). -/
def shiftCount (b : Word) : Nat := b.toNat % 64

/-- 64 bits of an unbounded integer (R113). -/
def wordOfInt (y : Int) : Word := BitVec.ofInt 64 y

/-- Bits 127:64 of a product (R113). -/
def highWord (y : Int) : Word := BitVec.ofInt 64 (y / ((2 ^ 64 : Nat) : Int))

/-- Leading and trailing zeros, and ones (R113). -/
def countLeading (a : Word) : Nat := if a = 0 then 64 else 63 - Nat.log2 a.toNat
def countTrailing (a : Word) : Nat := ((List.range 64).find? fun i => a.getLsbD i).getD 64
def countOnes (a : Word) : Nat := ((List.range 64).filter fun i => a.getLsbD i).length

/-- Division and remainder on integers (R114). -/
def divResult (a b : Int) (signed wantRem : Bool) : Word :=
  if b = 0 then (if wantRem then wordOfInt a else BitVec.allOnes 64)
  else if signed && a = -((2 ^ 63 : Nat) : Int) && b = -1 then (if wantRem then 0 else BitVec.ofNat 64 (2 ^ 63))
  else
    let q := Int.tdiv a b
    if wantRem then wordOfInt (a - q * b) else wordOfInt q

/-- `s`-scaled sum of LEA (R116), 48 bits. -/
def leaResult (a b : Word) (s : Nat) : Word := BitVec.ofNat 64 ((a.toNat + b.toNat * 2 ^ s) % 2 ^ 48)

/-- ADD (R113). -/
def execAdd (w : Ins) (s : State) : Host.Outcome State Fault Refusal := s.alu (.add w) w fun a b _ => a + b
/-- SUB (R113). -/
def execSub (w : Ins) (s : State) : Host.Outcome State Fault Refusal := s.alu (.sub w) w fun a b _ => a - b
/-- AND (R113). -/
def execAnd (w : Ins) (s : State) : Host.Outcome State Fault Refusal := s.alu (.and w) w fun a b _ => a &&& b
/-- OR (R113). -/
def execOr (w : Ins) (s : State) : Host.Outcome State Fault Refusal := s.alu (.or w) w fun a b _ => a ||| b
/-- XOR (R113). -/
def execXor (w : Ins) (s : State) : Host.Outcome State Fault Refusal := s.alu (.xor w) w fun a b _ => a ^^^ b
/-- ANDN (R113). -/
def execAndn (w : Ins) (s : State) : Host.Outcome State Fault Refusal := s.alu (.andn w) w fun a b _ => a &&& ~~~b
/-- SHL (R113). -/
def execShl (w : Ins) (s : State) : Host.Outcome State Fault Refusal := s.alu (.shl w) w fun a b _ => a <<< shiftCount b
/-- SHRL (R113). -/
def execShrl (w : Ins) (s : State) : Host.Outcome State Fault Refusal := s.alu (.shrl w) w fun a b _ => a >>> shiftCount b
/-- SHRA (R113). -/
def execShra (w : Ins) (s : State) : Host.Outcome State Fault Refusal :=
  s.alu (.shra w) w fun a b _ => a.sshiftRight (shiftCount b)
/-- MIN (R113). -/
def execMin (w : Ins) (s : State) : Host.Outcome State Fault Refusal := s.alu (.min w) w fun a b _ => if relLt b a then b else a
/-- MAX (R113). -/
def execMax (w : Ins) (s : State) : Host.Outcome State Fault Refusal := s.alu (.max w) w fun a b _ => if relLt a b then b else a
/-- MINN (R113). -/
def execMinn (w : Ins) (s : State) : Host.Outcome State Fault Refusal :=
  s.alu (.minn w) w fun a b _ => if relLtn b a then b else a
/-- MAXN (R113). -/
def execMaxn (w : Ins) (s : State) : Host.Outcome State Fault Refusal :=
  s.alu (.maxn w) w fun a b _ => if relLtn a b then b else a
/-- SEL (R113). -/
def execSel (w : Ins) (s : State) : Host.Outcome State Fault Refusal := s.alu (.sel w) w fun a b c => if c ≠ 0 then a else b
/-- MOV (R113). -/
def execMov (w : Ins) (s : State) : Host.Outcome State Fault Refusal := s.alu (.mov w) w fun a _ _ => a
/-- MUL (R113). -/
def execMul (w : Ins) (s : State) : Host.Outcome State Fault Refusal := s.alu (.mul w) w fun a b _ => a * b
/-- MULH (R113). -/
def execMulh (w : Ins) (s : State) : Host.Outcome State Fault Refusal :=
  s.alu (.mulh w) w fun a b _ => highWord (a.toInt * b.toInt)
/-- MULHN (R113). -/
def execMulhn (w : Ins) (s : State) : Host.Outcome State Fault Refusal :=
  s.alu (.mulhn w) w fun a b _ => highWord (a.toNat * b.toNat : Nat)
/-- DIV (R114). -/
def execDiv (w : Ins) (s : State) : Host.Outcome State Fault Refusal :=
  s.alu (.div w) w fun a b _ => divResult a.toInt b.toInt true false
/-- DIVN (R114). -/
def execDivn (w : Ins) (s : State) : Host.Outcome State Fault Refusal :=
  s.alu (.divn w) w fun a b _ => divResult a.toNat b.toNat false false
/-- REM (R114). -/
def execRem (w : Ins) (s : State) : Host.Outcome State Fault Refusal :=
  s.alu (.rem w) w fun a b _ => divResult a.toInt b.toInt true true
/-- REMN (R114). -/
def execRemn (w : Ins) (s : State) : Host.Outcome State Fault Refusal :=
  s.alu (.remn w) w fun a b _ => divResult a.toNat b.toNat false true
/-- CLZ (R113). -/
def execClz (w : Ins) (s : State) : Host.Outcome State Fault Refusal :=
  s.alu (.clz w) w fun a _ _ => BitVec.ofNat 64 (countLeading a)
/-- CTZ (R113). -/
def execCtz (w : Ins) (s : State) : Host.Outcome State Fault Refusal :=
  s.alu (.ctz w) w fun a _ _ => BitVec.ofNat 64 (countTrailing a)
/-- POPC (R113). -/
def execPopc (w : Ins) (s : State) : Host.Outcome State Fault Refusal :=
  s.alu (.popc w) w fun a _ _ => BitVec.ofNat 64 (countOnes a)
/-- SEXT (R113). -/
def execSext (w : Ins) (s : State) : Host.Outcome State Fault Refusal :=
  s.alu (.sext w) w fun a _ _ => wordOfInt (signExtend a.toNat w.imm.toNat)
/-- CMPEQ (R115). -/
def execCmpeq (w : Ins) (s : State) : Host.Outcome State Fault Refusal := s.alu (.cmpeq w) w fun a b _ => flagWord (relEq a b)
/-- CMPNE (R115). -/
def execCmpne (w : Ins) (s : State) : Host.Outcome State Fault Refusal := s.alu (.cmpne w) w fun a b _ => flagWord (relNe a b)
/-- CMPLT (R115). -/
def execCmplt (w : Ins) (s : State) : Host.Outcome State Fault Refusal := s.alu (.cmplt w) w fun a b _ => flagWord (relLt a b)
/-- CMPLE (R115). -/
def execCmple (w : Ins) (s : State) : Host.Outcome State Fault Refusal := s.alu (.cmple w) w fun a b _ => flagWord (relLe a b)
/-- CMPLTN (R115). -/
def execCmpltn (w : Ins) (s : State) : Host.Outcome State Fault Refusal :=
  s.alu (.cmpltn w) w fun a b _ => flagWord (relLtn a b)
/-- CMPLEN (R115). -/
def execCmplen (w : Ins) (s : State) : Host.Outcome State Fault Refusal :=
  s.alu (.cmplen w) w fun a b _ => flagWord (relLen a b)
/-- ADDI (R116). -/
def execAddi (w : Ins) (s : State) : Host.Outcome State Fault Refusal := s.alu (.addi w) w fun a _ _ => a + immW w
/-- ANDI (R116). -/
def execAndi (w : Ins) (s : State) : Host.Outcome State Fault Refusal := s.alu (.andi w) w fun a _ _ => a &&& immW w
/-- ORI (R116). -/
def execOri (w : Ins) (s : State) : Host.Outcome State Fault Refusal := s.alu (.ori w) w fun a _ _ => a ||| immW w
/-- XORI (R116). -/
def execXori (w : Ins) (s : State) : Host.Outcome State Fault Refusal := s.alu (.xori w) w fun a _ _ => a ^^^ immW w
/-- SHLI (R116). -/
def execShli (w : Ins) (s : State) : Host.Outcome State Fault Refusal :=
  s.alu (.shli w) w fun a _ _ => a <<< shiftCount (immW w)
/-- SHRLI (R116). -/
def execShrli (w : Ins) (s : State) : Host.Outcome State Fault Refusal :=
  s.alu (.shrli w) w fun a _ _ => a >>> shiftCount (immW w)
/-- SHRAI (R116). -/
def execShrai (w : Ins) (s : State) : Host.Outcome State Fault Refusal :=
  s.alu (.shrai w) w fun a _ _ => a.sshiftRight (shiftCount (immW w))
/-- MOVI (R116). -/
def execMovi (w : Ins) (s : State) : Host.Outcome State Fault Refusal := s.alu (.movi w) w fun _ _ _ => immW w
/-- MOVHI (R116). -/
def execMovhi (w : Ins) (s : State) : Host.Outcome State Fault Refusal :=
  s.alu (.movhi w) w fun a _ _ => w.imm ++ a.extractLsb' 0 32
/-- CMPEQI (R116). -/
def execCmpeqi (w : Ins) (s : State) : Host.Outcome State Fault Refusal :=
  s.alu (.cmpeqi w) w fun a _ _ => flagWord (relEq a (immW w))
/-- CMPLTI (R116). -/
def execCmplti (w : Ins) (s : State) : Host.Outcome State Fault Refusal :=
  s.alu (.cmplti w) w fun a _ _ => flagWord (relLt a (immW w))
/-- CMPLTNI (R116). -/
def execCmpltni (w : Ins) (s : State) : Host.Outcome State Fault Refusal :=
  s.alu (.cmpltni w) w fun a _ _ => flagWord (relLtn a (immW w))
/-- MULI (R116). -/
def execMuli (w : Ins) (s : State) : Host.Outcome State Fault Refusal := s.alu (.muli w) w fun a _ _ => a * immW w
/-- LEA (R116). -/
def execLea (w : Ins) (s : State) : Host.Outcome State Fault Refusal :=
  s.alu (.lea w) w fun a b _ => leaResult a b w.imm.toNat

/-- An address `4·i` past a pc, 48 bits (R116, R124). -/
def pcRelative (pc : Nat) (w : Ins) : Nat := wrapInt (pc + 4 * w.imm.toInt) 48

/-- PCADD (R116): the address of the PCADD plus 4·i. -/
def execPcadd (w : Ins) (s : State) : Host.Outcome State Fault Refusal :=
  s.run (.pcadd w) w noEarly fun s st _ =>
    let v := BitVec.ofNat 64 (pcRelative (s.ctx.stream st).pc w)
    .ok s (s.ctx.result st w.dst v) v (latBound w.lat)

end Sys2Proof.Machine
end

