-- ==== Sys2Proof/Machine/Stores.lean ====
section
/-! DEFINITION. Bytes as a stream of a context sees them: the stores it has in flight laid over memory (05 R172), scratchpad
grants (R150), and the performing of stores at core scope, at their landing or where an instruction asks for it earlier
(notes/assumptions/11). -/

namespace Sys2Proof.Machine

/-- Merge written bits into a byte. -/
def mergeByte (old v mask : Byte) : Byte := (old &&& ~~~mask) ||| (v &&& mask)

/-- Everything a context has issued that has not landed, oldest first: what a trap captured, which waits for the return (R141), and
what is in flight. -/
def Ctx.allFlights (c : Ctx) : List Flight := (c.saved.map (·.flights)).getD [] ++ c.flights

/-- The cells of a stream's stores not yet performed, oldest first; a handler sees those of its task (R119, R172; notes/assumptions/125). -/
def Ctx.ownCells (c : Ctx) (st : Nat) (spad : Bool) : List StoreCell :=
  c.allFlights.flatMap fun f => if f.stream = st && !f.done then
      (match f.eff with
        | .store sp cs => if sp = spad then cs else []
        | _ => [])
    else []

/-- Bytes at physical places with a stream's stores in flight laid over them (R119, R172). -/
def Ctx.overlay (c : Ctx) (st : Nat) (spad : Bool) (places : List Nat) (bs : List Byte) : List Byte :=
  let cells := c.ownCells st spad
  if cells.isEmpty then bs
  else (places.zip bs).map fun (p, b) => cells.foldl (fun b x => if x.pa = p then mergeByte b x.val x.mask else b) b

/-- Bytes the scratchpad offsets of a context reach: below its grant and below 2 MiB (R117, R150). -/
def Ctx.spadLimit (c : Ctx) : Nat := min c.spadGrant 0x20_0000

/-- The first offset of a range outside the grant (R117, R150). -/
def Ctx.spadOut (c : Ctx) (off n : Nat) : Option Nat :=
  if off + n ≤ c.spadLimit then none else some (max off c.spadLimit)

/-- The places of some pieces, byte by byte. -/
def piecePlaces (ps : List Piece) : List Nat := ps.flatMap fun p => (List.range p.len).map fun i => p.ph.pa + i

/-- Scratchpad bytes of the running context as a stream sees them. -/
def State.loadSpad (s : State) (st off n : Nat) : List Byte :=
  let c := s.ctx
  c.overlay st true ((List.range n).map fun i => c.spbase + off + i) (s.spadRead s.focus (c.spbase + off) n)

/-- Virtual bytes as a stream sees them; device registers are no bytes of memory and answer PROTECTION (R335). -/
def State.loadVirt (s : State) (st va n : Nat) : Except MemFault (List Byte) × State :=
  match s.translateRange s.focus s.asn va .read (pageFuel n) n with
  | (.error f, s1) => (.error f, s1)
  | (.ok ps, s1) =>
    match s1.pieceFault s1.focus s1.asn false true ps with
    | some f => (.error f, s1)
    | none =>
      let r := s1.readPieces s1.focus s1.asn ps
      (.ok (s1.ctx.overlay st false (piecePlaces ps) r.1), r.2)

/-- The cells of a store of bytes with masks to the scratchpad. -/
def Ctx.spadCells (c : Ctx) (off : Nat) (bs : List (Byte × Byte)) : List StoreCell :=
  bs.zipIdx.map fun (b, i) => { va := off + i, pa := c.spbase + off + i, val := b.1, mask := b.2 }

/-- The cells of a store to virtual memory, or the fault of its first failing byte (R196, R338). -/
def State.storeCells (s : State) (va : Nat) (bs : List (Byte × Byte)) : Except MemFault (List StoreCell) × State :=
  match s.translateRange s.focus s.asn va .write (pageFuel bs.length) bs.length with
  | (.error f, s1) => (.error f, s1)
  | (.ok ps, s1) =>
    match s1.pieceFault s1.focus s1.asn false false ps with
    | some f => (.error f, s1)
    | none => (.ok (pieceCells ps bs), s1)

/-- The trap of a failed access. -/
def MemFault.trap (f : MemFault) : Trap := { cause := f.cause, addr := some f.addr }

/-- Every byte of a mask set. -/
def wholeBytes (bs : List Byte) : List (Byte × Byte) := bs.map fun b => (b, 0xFF)

/-- The writer that a flight of the running context is (R334). -/
def State.writerOf (s : State) (f : Flight) : Writer := { slot := s.here.running, origin := f.stream, pc := f.pc, word := f.word }

/-- The imprecise fault of a store whose read-modify-write met a poisoned word (R120, R277). -/
def Flight.rmwFault (f : Flight) (pa : Nat) : Fault1 := ({ slot := 0, origin := f.stream, pc := f.pc, word := f.word } : Writer).rmwFault pa

/-- The first register of a set of IMM[15:0] (R200). -/
def firstOfSet (imm : Nat) : Option Nat := (List.range 16).find? fun j => bit imm j

/-- A store has a byte in a host window (R335). -/
def Effect.toHost : Effect → Bool
  | .store false cs => cs.any fun x => hostWinBase ≤ x.pa
  | _ => false

/-- A cell without the bits that some later cells have written. -/
def StoreCell.under (x : StoreCell) (later : List StoreCell) : StoreCell :=
  later.foldl (fun x y => if y.pa = x.pa then { x with mask := x.mask &&& ~~~y.mask } else x) x

/-- A store in flight that issued before one now performed no longer writes the bytes that this has written (R119, R346). -/
def Flight.under (f : Flight) (st seq : Nat) (spad : Bool) (cs : List StoreCell) : Flight :=
  if f.stream = st && f.seq < seq then
    (match f.eff with
    | .store sp old => if sp = spad then { f with eff := .store sp (old.map fun x => x.under cs) } else f
    | _ => f)
  else f

/-- Cells that a stream's issue of a number has written prevail over its earlier stores, wherever these stand (R119, R173). -/
def Ctx.prevail (c : Ctx) (st seq : Nat) (spad : Bool) (cs : List StoreCell) : Ctx :=
  { c with
    flights := c.flights.map fun f => f.under st seq spad cs
    saved := c.saved.map fun v => { v with flights := v.flights.map fun f => f.under st seq spad cs } }

/-- Write cells of the scratchpad for a requester, a bank access for each row they touch (R151, R152, R172). -/
def State.spadPerform (s : State) (req : Nat) (cs : List StoreCell) : State :=
  (s.spadWrite s.focus (cs.map fun c => (c.pa, c.val, c.mask))).askBanks req
    ((((cs.filter fun c => c.mask ≠ 0).map fun c => c.va / 128).eraseDups).map fun r => (128 * r, 1))

/-- The requester of a store in flight: the address generator of the port a vector was pushed to, else its stream's, for STUL too
(R152, R163; notes/assumptions/126). -/
def Ctx.storeReq (c : Ctx) (f : Flight) : Nat :=
  if opcodeOf f.word = 0x13A || opcodeOf f.word = 0x18B then
    (vget Port.reset c.ports (((f.word.extractLsb' 32 8).toNat) % 8)).gen
  else streamReq f.stream

/-- The cells of a store that a stream issued under a number are performed at core scope (R172), or none of them is: the physical
addresses of its first bytes in words that its read-modify-write may not merge are answered, the lowest first (R120, R196). -/
def State.performFor (s : State) (who : Writer) (seq req : Nat) (spad : Bool) (cs : List StoreCell) : State × List Nat :=
  if spad then ((s.spadPerform req cs).setCtx ((s.spadPerform req cs).ctx.prevail who.origin seq true cs), [])
  else
    match s.performCells s.focus s.asn cs (some who) with
    | (s1, []) => (s1.setCtx (s1.ctx.prevail who.origin seq false cs), [])
    | r => r

/-- Perform the store of a flight at core scope (R172); one that meets a word its read-modify-write cannot merge is not
performed (R120, R277). -/
def State.performStore (s : State) (f : Flight) : State :=
  match f.eff with
  | .store spad cs =>
    (match s.performFor (s.writerOf f) f.seq (s.ctx.storeReq f) spad cs with
    | (s1, []) => s1
    | (s1, a :: _) => s1.addFault (f.rmwFault a))
  | _ => s

/-- A flight is a store not yet performed. -/
def Flight.waitsStore (f : Flight) : Bool := !f.done && (match f.eff with
  | .store _ _ => true
  | _ => false)

/-- Perform some stores, in the order given, ahead of their landing. -/
def State.forceList (s : State) (fs : List Flight) : State :=
  let s := fs.foldl (fun s f => s.performStore f) s
  let mark (f : Flight) : Flight := if fs.any fun g => g.seq = f.seq && f.waitsStore then { f with done := true } else f
  let c := s.ctx
  s.setCtx { c with flights := c.flights.map mark, saved := c.saved.map fun v => { v with flights := v.flights.map mark } }

/-- Perform, in issue order, the stores in flight that `sel` names, ahead of their landing. -/
def State.forceStores (s : State) (sel : Flight → Bool) : State :=
  s.forceList (s.ctx.flights.filter fun f => f.waitsStore && sel f)

/-- Before a stream writes to a host window, its earlier stores to host windows are performed: they are posted in issue order
(R335; notes/assumptions/125). -/
def State.forceHost (s : State) (st seq : Nat) : State :=
  s.forceList (s.ctx.allFlights.filter fun g => g.waitsStore && g.stream = st && g.seq < seq && g.eff.toHost)

/-- A store lands: performed at core scope if it is not yet (R172); its bytes prevail over those of the stream's earlier stores, and
a store to a host window comes after the earlier ones (R119, R173, R335). -/
def State.landStore (s : State) (f : Flight) : State :=
  if f.done then s else (if f.eff.toHost then s.forceHost f.stream f.seq else s).performStore f

/-- One read-modify-write of `n` bytes at their home slice for a stream (R123, R198, R348): the word refused, the old value, and the
state. A store of the stream that a trap has captured is seen, and its bytes are done with (notes/assumptions/125). -/
def State.homeUpdate (s : State) (st pa n : Nat) (op : Nat → Nat) : Option Nat × Nat × State :=
  let s1 := s.writeBack s.focus fun l => l = pa / 128
  let old := bytesNat (s1.ctx.overlay st false ((List.range n).map (pa + ·)) (natBytes n (s1.peek pa n)))
  let cells := dieBytes pa (natBytes n (op old))
  match s1.dieWrite cells with
  | (s2, word :: _) => (some word, old, s2)
  | (s2, []) =>
    let k := s2.here
    let s3 := if (k.lineOf (pa / 128)).isSome then
        s2.setHere (cells.foldl (fun k x => match k.lineOf (x.pa / 128) with
          | some l => k.putLine { l with data := l.data.set (x.pa % 128) x.val }
          | none => k) k)
      else s2
    (none, old, s3.setCtx (s3.ctx.prevail st s3.ctx.seqNext false (cells.map fun x => { va := x.pa, pa := x.pa, val := x.val, mask := 0xFF })))

/-- Replace the effect of the flights of one issue: a command that has its value becomes the value's write, and the tokens
pushed with it carry it (R35). -/
def Ctx.resolve (c : Ctx) (seq : Nat) (dst : Option Target) (v : Word) : Ctx :=
  { c with flights := c.flights.map fun f =>
      if f.seq ≠ seq then f
      else match f.eff with
        | .command _ => { f with eff := match dst with
            | some t => .reg t v
            | none => .mark }
        | .token q i _ => { f with eff := .token q i v }
        | _ => f }

end Sys2Proof.Machine
end

