-- ==== Sys2Proof/Machine/ScalarMem.lean ====
section
/-! DEFINITION. Scalar memory access (04 R117 to R123): loads, stores, locks, LDBLK and far atomics. -/

namespace Sys2Proof.Machine

/-- Effective address (R117). -/
def effAddr (a : Word) (w : Ins) : Nat := (a + immW w).toNat

def causeMisaligned : Nat := 0x0C
def causeSync : Nat := 0x11
def causeOperand : Nat := 0x03

/-- MISALIGNED-ACCESS of an access of `n` bytes (R117). -/
def alignTrap (ea n : Nat) : Option Trap := if ea % n = 0 then none else some { cause := causeMisaligned, addr := some ea }

/-- DATA-FAULT of a scratchpad access outside the grant (R117, R150). -/
def Ctx.spadTrap (c : Ctx) (off n : Nat) : Option Trap :=
  (c.spadOut off n).map fun a => { cause := causeData, addr := some a }

/-- The value of some loaded bytes, zero- or sign-extended (R118). -/
def loadedWord (n : Nat) (signed : Bool) (bs : List Byte) : Word :=
  if signed then wordOfInt (signExtend (bytesNat bs) (8 * n)) else BitVec.ofNat 64 (bytesNat bs)

/-- The place of an aligned scalar access that lies in a device window (R335). -/
def State.deviceAt (s : State) (va : Nat) (acc : Acc) : Option Nat :=
  match (s.translate s.focus s.asn va acc).1 with
  | .ok ph => if ph.attr = 1 then some ph.pa else none
  | .error _ => none

/-- A scalar load of `n` bytes (R117 to R120). -/
def State.scalarLoad (s : State) (i : Instr) (w : Ins) (n : Nat) (signed : Bool) : Host.Outcome State Fault Refusal :=
  s.run i w noEarly fun s st tk =>
    let ea := effAddr (s.srcA st tk w) w
    let lat := latBound w.lat
    let done (s : State) (bs : List Byte) : IssueRes :=
      let v := loadedWord n signed bs
      .ok s (s.ctx.result st w.dst v) v lat
    match alignTrap ea n with
    | some t => .trap t
    | none =>
      if w.mod = 1 then
        match s.ctx.spadTrap ea n with
        | some t => .trap t
        | none => done (s.askBanks (streamReq st) [(ea, n)]) (s.loadSpad st ea n)
      else
        match s.deviceAt ea .read, s.ctx.target st w.dst with
        | some pa, some t => .ok s [.command (.deviceLoad pa n signed t)] 0 lat
        | _, _ =>
          match s.loadVirt st ea n with
          | (.error f, s1) => .trapIn s1 f.trap
          | (.ok bs, s1) => done s1 bs

/-- A scalar store of the low `n` bytes of b (R117 to R119). -/
def State.scalarStore (s : State) (i : Instr) (w : Ins) (n : Nat) : Host.Outcome State Fault Refusal :=
  s.run i w noEarly fun s st tk =>
    let ea := effAddr (s.srcA st tk w) w
    let lat := latBound w.lat
    let v := (s.srcB st tk w).toNat
    let bs := wholeBytes (natBytes n v)
    match alignTrap ea n with
    | some t => .trap t
    | none =>
      if w.mod = 1 then
        match s.ctx.spadTrap ea n with
        | some t => .trap t
        | none => .ok s [.store true (s.ctx.spadCells ea bs)] 0 lat
      else
        match s.deviceAt ea .write with
        | some pa => .ok s [.command (.deviceStore pa n (v % 2 ^ (8 * n)))] 0 lat
        | none =>
          match s.storeCells ea bs with
          | (.error f, s1) => .trapIn s1 f.trap
          | (.ok cs, s1) => .ok s1 [.store false cs] 0 lat

/-- LD8 (R118). -/
def execLd8 (w : Ins) (s : State) : Host.Outcome State Fault Refusal := s.scalarLoad (.ld8 w) w 1 false
/-- LD8S (R118). -/
def execLd8s (w : Ins) (s : State) : Host.Outcome State Fault Refusal := s.scalarLoad (.ld8s w) w 1 true
/-- LD16 (R118). -/
def execLd16 (w : Ins) (s : State) : Host.Outcome State Fault Refusal := s.scalarLoad (.ld16 w) w 2 false
/-- LD16S (R118). -/
def execLd16s (w : Ins) (s : State) : Host.Outcome State Fault Refusal := s.scalarLoad (.ld16s w) w 2 true
/-- LD32 (R118). -/
def execLd32 (w : Ins) (s : State) : Host.Outcome State Fault Refusal := s.scalarLoad (.ld32 w) w 4 false
/-- LD32S (R118). -/
def execLd32s (w : Ins) (s : State) : Host.Outcome State Fault Refusal := s.scalarLoad (.ld32s w) w 4 true
/-- LD64 (R118). -/
def execLd64 (w : Ins) (s : State) : Host.Outcome State Fault Refusal := s.scalarLoad (.ld64 w) w 8 false
/-- ST8 (R118). -/
def execSt8 (w : Ins) (s : State) : Host.Outcome State Fault Refusal := s.scalarStore (.st8 w) w 1
/-- ST16 (R118). -/
def execSt16 (w : Ins) (s : State) : Host.Outcome State Fault Refusal := s.scalarStore (.st16 w) w 2
/-- ST32 (R118). -/
def execSt32 (w : Ins) (s : State) : Host.Outcome State Fault Refusal := s.scalarStore (.st32 w) w 4
/-- ST64 (R118). -/
def execSt64 (w : Ins) (s : State) : Host.Outcome State Fault Refusal := s.scalarStore (.st64 w) w 8

/-- The lock bit of a grant offset: its bank and hash (R166). -/
def lockBit (o : Nat) : Nat :=
  bits o 11 7 * 16 + ((bits o 6 3 ^^^ bits o 15 12 ^^^ bits o 19 16 ^^^ bits o 20 20) % 16)

/-- The lock a stream holds (R121). -/
def Ctx.lockOf (c : Ctx) (st : Nat) : Option Nat := if st = 0 then c.lockS else c.lockL

/-- A stream has an LDLK that still waits. -/
def Ctx.lockWaits (c : Ctx) (st : Nat) : Bool := c.flights.any fun f => f.stream = st && (match f.eff with
  | .command (.lock _ _) => true
  | _ => false)

/-- The context holds a lock of an offset (R121). -/
def Ctx.holdsLock (c : Ctx) (off : Nat) : Bool := c.lockS = some off || c.lockL = some off

/-- LDLK (R121): the lock is taken by the retries of R167. -/
def execLdlk (w : Ins) (s : State) : Host.Outcome State Fault Refusal :=
  s.run (.ldlk w) w noEarly fun s st tk =>
    let ea := effAddr (s.srcA st tk w) w
    match (alignTrap ea 8).orElse fun _ =>
        if (s.ctx.lockOf st).isSome || s.ctx.lockWaits st then some { cause := causeSync } else s.ctx.spadTrap ea 8 with
    | some t => .trap t
    | none =>
      match s.ctx.target st w.dst with
      | some t => .ok s [.command (.lock ea t)] 0 (latBound w.lat)
      | none => .ok s [] 0 (latBound w.lat)

/-- STUL (R121): a store and the release of the lock at its landing. A second one in flight writes and releases
again (notes/assumptions/121). -/
def execStul (w : Ins) (s : State) : Host.Outcome State Fault Refusal :=
  s.run (.stul w) w noEarly fun s st tk =>
    let ea := effAddr (s.srcA st tk w) w
    match (alignTrap ea 8).orElse fun _ =>
        if s.ctx.holdsLock ea then s.ctx.spadTrap ea 8 else some { cause := causeSync } with
    | some t => .trap t
    | none =>
      .ok s [.store true (s.ctx.spadCells ea (wholeBytes (natBytes 8 (s.srcB st tk w).toNat))), .command (.unlock ea)] 0
        (latBound w.lat)

/-- LDBLK (R122, R169): every line is translated at the issue, and the block is allocated. -/
def execLdblk (w : Ins) (s : State) : Host.Outcome State Fault Refusal :=
  s.run (.ldblk w) w noEarly fun s st tk =>
    let a := (s.srcA st tk w).toNat
    let n := w.imm.toNat
    if n < 1 || 64 < n then .trap { cause := causeOperand }
    else
      match alignTrap a 128 with
      | some t => .trap t
      | none =>
        match s.translateRange s.focus s.asn a .read (pageFuel (128 * n)) (128 * n) with
        | (.error f, s1) => .trapIn s1 f.trap
        | (.ok ps, s1) =>
          match ps.find? fun p => p.ph.attr ≠ 0 with
          | some p => .trapIn s1 { cause := causeProtection, addr := some p.va }
          | none =>
            let plines := ps.flatMap fun p => (List.range (p.len / 128)).map fun i => p.ph.pa / 128 + i
            .ok (s1.declareBlock s1.focus s1.asn (a / 128) plines) [] 0 (latBound w.lat)

/-- Operations of R123 on numbers of `n` bits: `b` and `c` are the operands. -/
abbrev AtomicOp := Nat → Bool → Nat → Nat → Nat → Nat

/-- A number of `n` bits below another, signed or not (R123). -/
def atomicLt (n : Nat) (unsigned : Bool) (x y : Nat) : Bool :=
  if unsigned then x < y else signExtend x n < signExtend y n

/-- A far atomic (R123, R348): performed at the home slice, in the order of the stream's own accesses. In a poisoned word it records
the physical address of its access (R120; notes/assumptions/20). -/
def State.atomic (s : State) (i : Instr) (w : Ins) (op : AtomicOp) : Host.Outcome State Fault Refusal :=
  s.run i w noEarly fun s st tk =>
    let n := if w.mod.getLsbD 0 then 4 else 8
    let ea := effAddr (s.srcA st tk w) w
    match alignTrap ea n with
    | some t => .trap t
    | none =>
      match s.translate s.focus s.asn ea .read with
      | (.error c, s1) => .trapIn s1 { cause := c, addr := some ea }
      | (.ok _, s1) =>
        match s1.translate s1.focus s1.asn ea .write with
        | (.error c, s2) => .trapIn s2 { cause := c, addr := some ea }
        | (.ok ph, s2) =>
          if ph.attr ≠ 0 then .trapIn s2 { cause := causeProtection, addr := some ea }
          else
            let m := 2 ^ (8 * n)
            let b := (s.srcB st tk w).toNat % m
            let c := (s.srcC st tk w).toNat % m
            match (s2.forceStores fun f => f.stream = st).homeUpdate st ph.pa n fun old => op (8 * n) (w.mod.getLsbD 1) old b c % m with
            | (some _, _, s3) =>
              -- the refused write is counted (R334) and the trap is precise; the access lies in one word
              .trapIn s3 { cause := causeRmw, addr := some ph.pa }
            | (none, old, s3) =>
              let v := BitVec.ofNat 64 old
              .ok s3 (s3.ctx.result st w.dst v) v (latBound w.lat)

/-- AMOADD (R123). -/
def execAmoadd (w : Ins) (s : State) : Host.Outcome State Fault Refusal := s.atomic (.amoadd w) w fun _ _ o b _ => o + b
/-- AMOAND (R123). -/
def execAmoand (w : Ins) (s : State) : Host.Outcome State Fault Refusal := s.atomic (.amoand w) w fun _ _ o b _ => o &&& b
/-- AMOOR (R123). -/
def execAmoor (w : Ins) (s : State) : Host.Outcome State Fault Refusal := s.atomic (.amoor w) w fun _ _ o b _ => o ||| b
/-- AMOXOR (R123). -/
def execAmoxor (w : Ins) (s : State) : Host.Outcome State Fault Refusal := s.atomic (.amoxor w) w fun _ _ o b _ => o ^^^ b
/-- AMOMIN (R123). -/
def execAmomin (w : Ins) (s : State) : Host.Outcome State Fault Refusal :=
  s.atomic (.amomin w) w fun n u o b _ => if atomicLt n u b o then b else o
/-- AMOMAX (R123). -/
def execAmomax (w : Ins) (s : State) : Host.Outcome State Fault Refusal :=
  s.atomic (.amomax w) w fun n u o b _ => if atomicLt n u o b then b else o
/-- AMOSWP (R123). -/
def execAmoswp (w : Ins) (s : State) : Host.Outcome State Fault Refusal := s.atomic (.amoswp w) w fun _ _ _ b _ => b
/-- AMOCAS (R123). -/
def execAmocas (w : Ins) (s : State) : Host.Outcome State Fault Refusal :=
  s.atomic (.amocas w) w fun _ _ o b c => if o = b then c else o

end Sys2Proof.Machine
end

