-- ==== Sys2Proof/Machine/Control.lean ====
section
/-! DEFINITION. Control transfers, loops, barriers and NOP (01 R24 to R30; 04 R124 to R128, R142; 02 R50). -/

namespace Sys2Proof.Machine

def causeEncoding : Nat := 0x02
def causeLoopDepth : Nat := 0x04
def causeMisalignedTarget : Nat := 0x07
def causePrivilege : Nat := 0x0D

/-- What a control transfer does. -/
inductive Flow where
  | wait
  /-- a trap; `late` says that it stands past the classes that leave RX 0 (R271) -/
  | trap (t : Trap) (late : Bool)
  /-- passed by sequence, the loop stack pushed where `push` says so -/
  | seq (s : State) (push : Option LoopEntry)
  /-- the stream goes to the end of a body it never enters (R125) -/
  | skip (s : State) (stop : Nat)
  | jump (s : State) (target : Nat)
  /-- the stream stops here (R24, R126, R142) -/
  | stop (status : StreamStatus)

/-- No issue work was done (R271). -/
def Redo.blank : Redo := { awd := false, pfr := none, pbr := none, wfd := none, wbd := none }

/-- A landing with no value for a passed control transfer (R19, R268). -/
def Ctx.launchMark (c : Ctx) (st : Nat) (iw : IWord) (w : Ins) : Ctx :=
  c.launch st (c.stream st).pc iw (0, 0, 0) (latBound w.lat) (latBound w.lat) [.mark]

/-- The walk of a stream over a control transfer (R11, R25, R28). -/
def State.control (s : State) (i : Instr) (w : Ins) (body : State → Nat → Flow) : Host.Outcome State Fault Refusal :=
  let st := s.streamOf w
  let pass (s : State) (r : Ctx × List LoopEntry) : State :=
    profileHook (({ s with freeCount := s.freeCount + 1 }.setCtx r.1).passTurn st) st r.2
  .next <|
    if 64 ≤ s.ctx.issuedCount st then (if s.ctx.exposed then s.frozen else s.passTurn st)
    else match body s st with
      | .wait => s.passTurn st
      | .trap t late => s.raise st i.word t (if late then some Redo.blank else none)
      | .seq s1 push =>
        let c := s1.ctx.launchMark st i.word w
        let t := c.stream st
        let c := match push with
          | some l => c.setStream st { t with loops := l :: t.loops, pc := (t.pc + w.len.bytes) % 2 ^ 48, pos := t.pos + 1, redo := none }
          | none => c
        match push with
        | some _ => pass s1 (c, [])
        | none => pass s1 (c.stepPast st w.len.bytes)
      | .skip s1 stop =>
        let c := s1.ctx.launchMark st i.word w
        let t := c.stream st
        let r := bodyEnd stop t.loops
        pass s1 (c.setStream st { t with pc := r.1, loops := r.2.1, pos := t.pos + 1, redo := none }, r.2.2)
      | .jump s1 target =>
        let c := s1.ctx.launchMark st i.word w
        pass s1 (c.jumpTo st target)
      | .stop status =>
        let c := s.ctx
        (s.setCtx (c.setStream st { c.stream st with status, redo := none })).passTurn st

/-- NOP (R128): one issue cycle. -/
def execNop (w : Ins) (s : State) : Host.Outcome State Fault Refusal :=
  s.run (.nop w) w noEarly fun s _ _ => .ok s [] 0 (latBound w.lat)

/-- A jump to a target the stream resolves (R50). -/
def takeJump (s : State) (target : Nat) : Flow :=
  if target % 4 = 0 then .jump s target
  else .trap { cause := causeMisalignedTarget, addr := some target } true

/-- BR (R124). -/
def execBr (w : Ins) (s : State) : Host.Outcome State Fault Refusal :=
  s.control (.br w) w fun s st => takeJump s (pcRelative (s.ctx.stream st).pc w)

/-- Instance numbers are 32 bits and wrap (R14): the distance from a count to an instance. -/
def instAhead (inst count : Nat) : Nat := (inst + 2 ^ 32 - count % 2 ^ 32) % 2 ^ 32

/-- Keep the outcomes that some stream has not consumed (R30). -/
def Ctx.pruneOutcomes (c : Ctx) : Ctx :=
  { c with outcomes := c.outcomes.filter fun o => [1, 2, 3, 4].any fun k =>
      let d := instAhead o.inst (c.stream k).brCount
      1 ≤ d && d ≤ 64 }

/-- Count a branch instance (R29). -/
def Ctx.countInstance (c : Ctx) (st : Nat) : Ctx :=
  let t := c.stream st
  c.setStream st { t with brCount := (t.brCount + 1) % 2 ^ 32 }

/-- The outcome recorded for a stream's next instance (R29). -/
def Ctx.outcomeFor (c : Ctx) (st : Nat) : Option Outcome :=
  c.outcomes.find? fun o => o.inst = ((c.stream st).brCount + 1) % 2 ^ 32

/-- A branch instance (R29, R30): S resolves it with `resolve`, every other stream takes what S recorded. The instance counts
when the stream passes it (notes/assumptions/118). -/
def State.branch (s : State) (i : Instr) (w : Ins) (reads : List Res) (resolve : State → Except Trap (Bool × Nat)) :
    Host.Outcome State Fault Refusal :=
  s.control i w fun s st =>
    let go (s : State) (taken : Bool) (target : Nat) : Flow := if taken then .jump s target else .seq s none
    if st = 0 then
      if 64 ≤ s.ctx.outcomes.length || s.ctx.blocked 0 reads then .wait
      else match resolve s with
        | .error t => .trap t (t.cause ≠ causeFetch)
        | .ok (taken, target) =>
          if taken && target % 4 ≠ 0 then .trap { cause := causeMisalignedTarget, addr := some target } true
          else
            let c := s.ctx.countInstance 0
            let o : Outcome := { inst := (c.stream 0).brCount, taken, target }
            go (s.setCtx { c with outcomes := c.outcomes ++ [o] }) taken target
    else match s.ctx.outcomeFor st with
      | none => .wait
      | some o => go (s.setCtx (s.ctx.countInstance st).pruneOutcomes) o.taken o.target

/-- The branch condition an A-tagged transfer names. -/
def condOf (w : Ins) : Nat := match w.sa with
  | .b n => n
  | _ => 0

/-- BT (R124). -/
def execBt (w : Ins) (s : State) : Host.Outcome State Fault Refusal :=
  s.branch (.bt w) w [.b (condOf w)] fun s => .ok (s.readB (condOf w) 0, pcRelative (s.ctx.stream 0).pc w)
/-- BF (R124). -/
def execBf (w : Ins) (s : State) : Host.Outcome State Fault Refusal :=
  s.branch (.bf w) w [.b (condOf w)] fun s => .ok (!s.readB (condOf w) 0, pcRelative (s.ctx.stream 0).pc w)
/-- JR (R124): the target is a + i, of S's scalar. -/
def execJr (w : Ins) (s : State) : Host.Outcome State Fault Refusal :=
  s.branch (.jr w) w (s.ctx.srcRes 0 w.sa) fun s =>
    let target := (s.srcA 0 0 w + immW w).toNat
    if 2 ^ 48 ≤ target then .error { cause := causeFetch, addr := some target } else .ok (true, target)

/-- LOOP (R125, R28). -/
def execLoop (w : Ins) (s : State) : Host.Outcome State Fault Refusal :=
  s.control (.loop w) w fun s st =>
    let t := s.ctx.stream st
    let trips := bits w.imm.toNat 31 16
    let l := bits w.imm.toNat 15 0
    let stop := t.pc + 4 * l
    let after := t.pc + w.len.bytes
    let beyond := match t.loops with
      | top :: _ => top.stop < stop
      | [] => false
    if l = 0 || stop ≤ after || beyond then .trap { cause := causeEncoding } false
    else if 8 ≤ t.loops.length then .trap { cause := causeLoopDepth } true
    else if trips = 0 then .skip s (stop % 2 ^ 48)
    else .seq s (some { trips, stop := stop % 2 ^ 48, start := after % 2 ^ 48 })

/-- DONE (R126): the stream stops. -/
def execDone (w : Ins) (s : State) : Host.Outcome State Fault Refusal := s.control (.done w) w fun _ _ => .stop .done
/-- MODEX (R24, R127). -/
def execModex (w : Ins) (s : State) : Host.Outcome State Fault Refusal :=
  s.control (.modex w) w fun _ _ => .stop (.barrier true w.len.bytes)
/-- MODEI (R24, R127). -/
def execModei (w : Ins) (s : State) : Host.Outcome State Fault Refusal :=
  s.control (.modei w) w fun _ _ => .stop (.barrier false w.len.bytes)

/-- The stream that reaches an ERET: no stream skips it (R142). -/
def eretWord (w : Ins) : Ins := { w with tag := .A }

/-- ERET (R142): every stream that reaches it stops; in task mode it raises PRIVILEGE. It acts whatever its
predicate says (notes/assumptions/122). -/
def execEret (w : Ins) (s : State) : Host.Outcome State Fault Refusal :=
  s.control (.eret w) (eretWord w) fun s st =>
    if s.ctx.handler then .stop .eret
    else if st = 0 then .trap { cause := causePrivilege } false
    else .stop .eret

end Sys2Proof.Machine
end

