-- ==== Sys2Proof/Machine/HostLog.lean ====
section
/-! DEFINITION. The host's side of the module: host and device words, grades, the fault log, queue stops and the reports of
LAUNCH packets (17 R411 to R416, R426, R430, R442). -/

namespace Sys2Proof.Machine

/-- Grade of a cause (R426): 0 REQUEUE-SAFE, 1 REQUEUE-AFTER-DRAIN, 2 REQUEUE-UNSAFE, 3 RETIRE. -/
def gradeOf (cause : Nat) : Nat :=
  if [0x12, 0x13, 0x31].contains cause then 2
  else if [0x52, 0x53].contains cause then 1
  else if cause = 0x55 then 3 else 0

def causeWatchdog : Nat := 0x50
def causePartReset : Nat := 0x51
def causeAbort : Nat := 0x52
def causeLink : Nat := 0x53
def causePacket : Nat := 0x54
def causeHw : Nat := 0x55
def causeDeviceReset : Nat := 0x56

def State.setHost (s : State) (h : Host1) : State := { s with host := h }

/-- Write bytes of host memory. -/
def State.hostPut (s : State) (a n v : Nat) : State :=
  s.setHost { s.host with mem := s.host.mem.store a (natBytes n v) }
def State.hostNat (s : State) (a n : Nat) : Nat := bytesNat (s.host.mem.load a n)

def State.pstat (s : State) (p : Nat) : PStat :=
  vget { launches := 0, faults := 0, resets := 0, tbase := 0, lastCause := 0, lastGrade := 0, resetAt := none, expired := [],
         draining := false, emptied := false } s.host.pstats p
def State.setPstat (s : State) (p : Nat) (x : PStat) : State := s.setHost { s.host with pstats := vset s.host.pstats p x }

/-- The mirror is being written (R427). -/
def Host1.mirrorOn (h : Host1) : Bool := bit h.mirrorBase 0
def Host1.mirrorAt (h : Host1) (off : Nat) : Nat := h.mirrorBase / 4096 * 4096 + off

/-- Scopes of a log entry (R430). -/
def scopeTask : Nat := 0
def scopeQueue : Nat := 1
def scopePart : Nat := 2
def scopeModule : Nat := 3
def scopeHost : Nat := 4

/-- Write a fault-log entry, then NLOG (R430); the partition it names counts it (R442). The Crown keeps the entries that a mirror set
later shows (R427). -/
def State.logFault (s : State) (scope cause : Nat) (part : Option Nat) (queue region ident addr : Nat) : State :=
  let g := gradeOf cause
  let w1 := region % 65536 * 2 ^ 32 + queue % 2048 * 2 ^ 20 + part.getD 0 % 8 * 2 ^ 16 + scope * 2 ^ 12 + g * 2 ^ 8 + cause
  let h := s.host
  let place := h.nlog % 254
  let entry := natBytes 8 s.now ++ natBytes 8 w1 ++ natBytes 8 ident ++ natBytes 8 addr
  let s1 := if h.mirrorOn then
      (s.setHost { h with mem := h.mem.store (h.mirrorAt (0x5040 + 32 * place)) entry }).hostPut (h.mirrorAt 0x5000) 8 (h.nlog + 1)
    else s
  let s2 := s1.setHost { s1.host with nlog := h.nlog + 1, log := tset h.log place entry }
  match part with
  | some p => s2.setPstat p { s2.pstat p with faults := (s2.pstat p).faults + 1, lastCause := cause, lastGrade := g }
  | none => s2

/-- No queue (R430). -/
def noQueue : Nat := 0x7FF

def State.queueOf (s : State) (q : Nat) : Option Queue := (s.host.queues.find? fun p => p.1 = q).map (·.2)
def State.setQueue (s : State) (q : Nat) (x : Queue) : State := s.setHost { s.host with queues := tset s.host.queues q x }

/-- An address word (R410): bit 63 is the host's memory. -/
def wordHost (w : Nat) : Bool := bit w 63
def wordAddr (w : Nat) : Nat := bits w 47 0
def wordOk (w : Nat) : Bool := bits w 62 48 = 0

/-- The cause of a device address a queue may not use (R410): a failed walk, or a page that is no normal memory. -/
def State.pktFault (s : State) (part va : Nat) (acc : Acc) : Option Nat :=
  match (s.translateDie part va acc).1 with
  | .error c => some c
  | .ok ph => if ph.attr = 0 then none else some causeProtection

/-- Read a word of a command stream's address (R410, R412). -/
def State.pktRead (s : State) (part w n : Nat) : Except Nat Nat × State :=
  if wordHost w then (.ok (s.hostNat (wordAddr w) n), s)
  else match s.translateDie part (wordAddr w) .read with
    | (.error c, s1) => (.error c, s1)
    | (.ok ph, s1) =>
      if ph.attr ≠ 0 then (.error causeProtection, s1)
      else if (s1.die.poisonIn ph.pa n).isSome then (.error causePoisoned, s1)
      else
        let r := s1.dieNat ph.pa n
        (.ok r.1, r.2)

/-- Write a word of a command stream's address: at die scope, or at the host in posted order (R410, R412). -/
def State.pktWrite (s : State) (part w n v : Nat) : Option Nat × State :=
  if wordHost w then (none, s.hostPut (wordAddr w) n v)
  else match s.translateDie part (wordAddr w) .write with
    | (.error c, s1) => (some c, s1)
    | (.ok ph, s1) =>
      if ph.attr ≠ 0 then (some causeProtection, s1)
      else match s1.dieWrite (dieBytes ph.pa (natBytes n v)) with
        | (s2, []) => (none, s2)
        | (s2, _ :: _) => (some causeRmw, s2)

/-- Outcomes of R413. -/
def outCompleted : Nat := 0
def outFaulted : Nat := 1
def outKilled : Nat := 2
def outRejected : Nat := 3
def outAbandoned : Nat := 4

/-- The part a report names: the first that did not complete, else part 0 (R413). -/
def Launch1.reported (l : Launch1) : Nat × LaunchPart :=
  let all := l.parts.zipIdx.map fun p => (p.2, p.1)
  match all.find? fun p => (p.2.outcome.getD (0, 0, 0)).1 ≠ outCompleted with
  | some p => p
  | none => (0, l.parts.headD { record := 0, handed := false, outcome := none })

/-- The two words of a report (R413). -/
def Launch1.words (l : Launch1) : Nat × Nat :=
  let (i, p) := l.reported
  let (o, c, r) := p.outcome.getD (0, 0, 0)
  (i * 2 ^ 32 + r * 2 ^ 24 + gradeOf c * 2 ^ 16 + c * 2 ^ 8 + o, p.record)

/-- A queue's last cause and grade (R442). -/
def State.queueCause (s : State) (q cause : Nat) : State :=
  match s.queueOf q with
  | some x => s.setQueue q { x with lastCause := cause, lastGrade := gradeOf cause }
  | none => s

/-- Every part has ended. -/
def Launch1.ended (l : Launch1) : Bool := l.parts.all fun p => p.outcome.isSome

/-- The packet in progress of a queue stops it (R416): its state, a log entry, its RPTR at the packet. -/
def State.stopQueue (s : State) (q : Nat) (state : QState) (cause addr : Nat) : State :=
  match s.queueOf q with
  | none => s
  | some x =>
    let s1 := s.setQueue q { x with state, began := none, progress := .none, current := none, lastCause := cause, lastGrade := gradeOf cause }
    s1.logFault scopeQueue cause (some x.part) q 0 addr 0

/-- A LAUNCH leaves the table. -/
def State.dropLaunch (s : State) (ident : Nat) : State :=
  s.setHost { s.host with launches := s.host.launches.filter fun x => x.ident ≠ ident }

/-- A report that cannot be written stops the LAUNCH's queue (R410, R416), where it has not stopped already. -/
def State.reportFault (s : State) (l : Launch1) (cause : Nat) : State :=
  match s.queueOf l.queue with
  | none => s
  | some x => if x.state = .stopped || x.state = .faulted then s else s.stopQueue l.queue .faulted cause l.packet

/-- The report of a LAUNCH at its address (R413). -/
def State.putReport (s : State) (l : Launch1) : Option Nat × State :=
  if l.report = 0 then (none, s)
  else match s.pktWrite l.part l.report 8 l.words.1 with
    | (some c, s1) => (some c, s1)
    | (none, s1) => s1.pktWrite l.part (l.report + 8) 8 l.words.2

/-- A LAUNCH whose parts have all ended writes its report (R413), and leaves the table unless its packet still waits for it. -/
def State.reportLaunch (s : State) (l : Launch1) : State :=
  let c := (l.reported.2.outcome.getD (0, 0, 0))
  let noted (s : State) : State := if c.1 = outCompleted then s else s.queueCause l.queue c.2.1
  match s.putReport l with
  | (some f, s1) => ((noted s1).reportFault l f).dropLaunch l.ident
  | (none, s1) => if l.wait then noted s1 else (noted s1).dropLaunch l.ident

/-- The first part of a record that has not ended takes its outcome. -/
def endPart (record : Nat) (o : Nat × Nat × Nat) : List LaunchPart → List LaunchPart
  | [] => []
  | p :: ps => if p.record = record && p.outcome.isNone then { p with outcome := some o } :: ps else p :: endPart record o ps

/-- The end of a part of a LAUNCH (R413); a reset's kills carry WATCHDOG where the LAUNCH's own queue expired (R423, R425). -/
def State.launchEnd (s : State) (launch : Option Nat) (record outcome cause reason : Nat) : State :=
  match launch with
  | none => s
  | some k =>
    match s.host.launches.find? fun l => l.ident = k with
    | none => s
    | some l =>
      if l.ended then s
      else
        let cause := if outcome = outKilled && cause = causePartReset && (s.pstat l.part).expired.any (fun e => e.1 = l.queue) then
          causeWatchdog else cause
        let l := { l with parts := endPart record (outcome, cause, reason) l.parts }
        let s1 := s.setHost { s.host with launches := s.host.launches.map fun x => if x.ident = k then l else x }
        if l.ended then s1.reportLaunch l else s1

end Sys2Proof.Machine
end

