-- ==== Sys2Proof/Machine/Num.lean ====
section
/-! DEFINITION. Number formats and arithmetic (03): decoding, rounding, encoding, conversion policy, block alignment, and the
lane operations of 06 R184 to R187. Magnitudes are exact dyadic numbers `m` times two to the `e`; a quotient, root or series
carries one sticky bit below enough exact bits, so one rounding gives the result of the exact value. -/

namespace Sys2Proof.Machine

/-- Class of a decoded value (R96). -/
inductive Cls where
  | num | inf | nan
  deriving DecidableEq, Repr

/-- A decoded value: class, sign, and magnitude `m * 2^e` (R96). -/
structure Val where
  cls : Cls
  s   : Bool
  m   : Nat
  e   : Int
  deriving DecidableEq, Repr

def Val.nan : Val := ⟨.nan, false, 0, 0⟩
def Val.zero (s : Bool) : Val := ⟨.num, s, 0, 0⟩
def Val.ofNat (s : Bool) (m : Nat) (e : Int) : Val := ⟨.num, s, m, e⟩

/-- Two to a power that may not be negative. -/
def pow2 (n : Int) : Nat := 2 ^ n.toNat

/-- `m1 * 2^e1 < m2 * 2^e2`. -/
def dyLt (m1 : Nat) (e1 : Int) (m2 : Nat) (e2 : Int) : Bool := m1 * pow2 (e1 - e2) < m2 * pow2 (e2 - e1)

/-- floor_log2 of a non-zero magnitude (R96). -/
def floorLog2 (m : Nat) (e : Int) : Int := (Nat.log2 m : Int) + e

/-- The rounding test (R95) on a remainder `rem / den`. -/
def roundIncr (v rem den rm : Nat) (s : Bool) : Bool :=
  if rem = 0 then false
  else match rm with
    | 0 => den < 2 * rem || (2 * rem = den && v % 2 = 1)
    | 1 => false
    | 2 => s
    | _ => !s

/-- Integer part and remainder of `m * 2^e` in units of `2^q`, rounded by R95. -/
def roundTo (m : Nat) (e q : Int) (rm : Nat) (s : Bool) : Nat :=
  let num := m * pow2 (e - q)
  let den := pow2 (q - e)
  let v := num / den
  if roundIncr v (num % den) den rm s then v + 1 else v

/-- decode_ieee (R96). -/
def decodeIeee (b eb fb : Nat) (subn : Bool) : Val :=
  let s := b.testBit (eb + fb)
  let ex := b / 2 ^ fb % 2 ^ eb
  let fr := b % 2 ^ fb
  let bias : Int := 2 ^ (eb - 1) - 1
  if ex = 2 ^ eb - 1 then (if fr = 0 then ⟨.inf, s, 0, 0⟩ else ⟨.nan, s, 0, 0⟩)
  else if ex = 0 then (if subn then ⟨.num, s, fr, 1 - bias - fb⟩ else ⟨.num, s, 0, 0⟩)
  else ⟨.num, s, 2 ^ fb + fr, (ex : Int) - bias - fb⟩

/-- Length of the run of bits equal to `lead` from bit `i` down (R89). -/
def runLength (b : Nat) (lead : Bool) : Nat → Nat
  | 0 => if b.testBit 0 == lead then 1 else 0
  | i + 1 => if b.testBit (i + 1) == lead then 1 + runLength b lead i else 0

/-- decode_tapered (R89). -/
def decodeTapered (b0 w e : Nat) : Val :=
  if b0 = 0 then ⟨.num, false, 0, 0⟩
  else if b0 = 2 ^ (w - 1) then ⟨.nan, false, 0, 0⟩
  else
    let s := b0.testBit (w - 1)
    let b := if s then 2 ^ w - b0 else b0
    let lead := b.testBit (w - 2)
    let m := runLength b lead (w - 2)
    let k : Int := if lead then (m : Int) - 1 else -(m : Int)
    -- bits left below the terminating bit
    let left := (w - 1) - m - 1
    let ebits := b % 2 ^ left
    let ex := if e ≤ left then ebits / 2 ^ (left - e) else ebits * 2 ^ (e - left)
    let n := left - e
    ⟨.num, s, 2 ^ n + ebits % 2 ^ n, k * 2 ^ e + ex - n⟩

/-- decode_value (R96) of stored bits. -/
def decodeValue (b f : Nat) (subn : Bool) : Val :=
  match fmtKind f with
  | .b1 => ⟨.num, !b.testBit 0, 1, 0⟩
  | .uint w => ⟨.num, false, b % 2 ^ w, 0⟩
  | .sint w =>
    let v := signExtend b w
    ⟨.num, v < 0, v.natAbs, 0⟩
  | .ieee eb fb => decodeIeee (b % 2 ^ (eb + fb + 1)) eb fb subn
  | .tapered w e => decodeTapered (b % 2 ^ w) w e

/-- encode_int (R97). -/
def encodeInt (s : Bool) (m : Nat) (e : Int) (n : Nat) (sgn : Bool) (rm : Nat) : Nat × Bool × Bool :=
  let v := roundTo m e 0 rm s
  let y : Int := if s then -(v : Int) else v
  let ovf := if sgn then y < -(2 ^ (n - 1) : Nat) || (2 ^ (n - 1) : Nat) - 1 < y else y < 0 || (2 ^ n : Nat) - 1 < y
  (wrapInt y n, ovf, false)

/-- encode_ieee (R97). -/
def encodeIeee (s : Bool) (m : Nat) (e : Int) (eb fb rm : Nat) (subn : Bool) : Nat × Bool × Bool :=
  let bias : Int := 2 ^ (eb - 1) - 1
  let emin := 1 - bias
  let z := if s then 2 ^ (eb + fb) else 0
  if m = 0 then (z, false, false)
  else if !subn && floorLog2 m e < emin then (z, false, true)
  else
    let q := max (floorLog2 m e) emin - fb
    let v := roundTo m e q rm s
    if v = 0 then (z, false, true)
    else if dyLt (2 ^ (fb + 1) - 1) (bias - fb) v q then
      if rm = 0 || (rm = 2 && s) || (rm = 3 && !s) then (z + (2 ^ eb - 1) * 2 ^ fb, true, false)
      else (z + (2 ^ eb - 1) * 2 ^ fb - 1, true, false)
    else if floorLog2 v q < emin then (z + v, false, false)
    else
      let c := floorLog2 v q
      (z + (c + bias).toNat * 2 ^ fb + v / pow2 (c - fb - q) - 2 ^ fb, false, false)

/-- encode_tapered (R91). -/
def encodeTapered (s : Bool) (m : Nat) (e : Int) (w es rm : Nat) : Nat × Bool × Bool :=
  if m = 0 then (0, false, false)
  else
    let l := Nat.log2 m
    let sc := floorLog2 m e
    let k := sc / (2 ^ es : Nat)
    let ex := (sc - k * (2 ^ es : Nat)).toNat
    let (reg, rl) : Nat × Nat := if 0 ≤ k then (2 ^ (k.toNat + 2) - 2, k.toNat + 2) else (1, (1 - k).toNat)
    -- str * 2^(w-1) = num / 2^(l + rl + es - (w-1))
    let num := (reg * 2 ^ es + ex) * 2 ^ l + (m - 2 ^ l)
    let v := roundTo num (-(l : Int)) ((rl + es : Nat) - (w - 1 : Nat)) rm s
    let v := if v = 0 then 1 else v
    let v := if 2 ^ (w - 1) ≤ v then 2 ^ (w - 1) - 1 else v
    let top : Int := ((w - 2) * 2 ^ es : Nat)
    (if s then 2 ^ w - v else v, dyLt 1 top m e, dyLt m e 1 (-top))

/-- Conversion of a value to B1 (R103). -/
def encodeB1 (v : Val) : Nat :=
  match v.cls with
  | .nan => 1
  | .inf => if v.s then 0 else 1
  | .num => if v.s && v.m ≠ 0 then 0 else 1

/-- encode_value (R97) of a finite value. -/
def encodeValue (s : Bool) (m : Nat) (e : Int) (f rm : Nat) (subn : Bool) : Nat × Bool × Bool :=
  match fmtKind f with
  | .b1 => (encodeB1 ⟨.num, s, m, e⟩, false, false)
  | .uint w => encodeInt s m e w false rm
  | .sint w => encodeInt s m e w true rm
  | .ieee eb fb => encodeIeee s m e eb fb rm subn
  | .tapered w es => encodeTapered s m e w es rm

/-- Canonical NaN or NaR (R87, R89); zero for formats with neither. -/
def nanBits (f : Nat) : Nat :=
  match fmtKind f with
  | .ieee eb fb => (2 ^ eb - 1) * 2 ^ fb + 2 ^ (fb - 1)
  | .tapered w _ => 2 ^ (w - 1)
  | _ => 0

/-- An infinity of a sign (R87); NaR in a tapered format. -/
def infBits (f : Nat) (s : Bool) : Nat :=
  match fmtKind f with
  | .ieee eb fb => (if s then 2 ^ (eb + fb) else 0) + (2 ^ eb - 1) * 2 ^ fb
  | .tapered w _ => 2 ^ (w - 1)
  | _ => 0

/-- A zero of a sign; the zero word where the format has no negative zero. -/
def zeroBits (f : Nat) (s : Bool) : Nat :=
  match fmtKind f with
  | .ieee eb fb => if s then 2 ^ (eb + fb) else 0
  | _ => 0

/-- Largest finite magnitude of a sign (R88, R90); the top or bottom of an integer range (R86). -/
def maxBits (f : Nat) (s : Bool) : Nat :=
  match fmtKind f with
  | .ieee eb fb => (if s then 2 ^ (eb + fb) else 0) + (2 ^ eb - 1) * 2 ^ fb - 1
  | .tapered w _ => if s then 2 ^ w - (2 ^ (w - 1) - 1) else 2 ^ (w - 1) - 1
  | .sint w => if s then 2 ^ (w - 1) else 2 ^ (w - 1) - 1
  | .uint w => if s then 0 else 2 ^ w - 1
  | .b1 => if s then 0 else 1

/-- Smallest non-zero magnitude of a sign (R102, underflow saturate). -/
def minBits (f : Nat) (s subn : Bool) : Nat :=
  match fmtKind f with
  | .ieee eb fb => (if s then 2 ^ (eb + fb) else 0) + (if subn then 1 else 2 ^ fb)
  | .tapered w _ => if s then 2 ^ w - 1 else 1
  | _ => 0

/-- The conditions of R101, numbered as R270 numbers them. -/
inductive Cond where
  | nan | inf | ovf | unf
  deriving DecidableEq, Repr

/-- Number of a condition in AUX (R270). -/
def Cond.code : Cond → Nat
  | .nan => 0
  | .inf => 1
  | .ovf => 2
  | .unf => 3

/-- The field of a policy byte that governs a condition (R100). -/
def Cond.policy (pol : Nat) : Cond → Nat
  | .nan => bits pol 1 0
  | .inf => bits pol 3 2
  | .ovf => bits pol 5 4
  | .unf => bits pol 7 6

/-- The entry of R102 for a code other than 0b11; `y` supplies the wrapped and encoder results. -/
def policyResult (code : Nat) (c : Cond) (s : Bool) (y f : Nat) (subn : Bool) : Nat :=
  match c, code with
  | .nan, 0 => maxBits f false
  | .nan, 1 => 0
  | .nan, _ => (match fmtKind f with
      | .sint w => 2 ^ (w - 1)
      | .uint _ => 0
      | _ => nanBits f)
  | .inf, 0 => maxBits f s
  | .inf, 1 => zeroBits f s
  | .inf, _ => (match fmtKind f with
      | .sint _ => maxBits f s
      | .uint _ => maxBits f s
      | _ => infBits f s)
  | .ovf, 0 => maxBits f s
  | .ovf, 1 => zeroBits f s
  | .ovf, _ => (match fmtKind f with
      | .sint _ => y
      | .uint _ => y
      | _ => infBits f s)
  | .unf, 0 => minBits f s subn
  | .unf, 1 => zeroBits f s
  | .unf, _ => y

/-- convert_value (R104): the converted bits, or the condition whose field is 0b11 (R105). -/
def convertValue (b src dst pol rm : Nat) (subn : Bool) : Except Cond Nat :=
  let v := decodeValue b src subn
  let govern (c : Cond) (y : Nat) : Except Cond Nat :=
    let code := c.policy pol
    if code = 3 then .error c
    else .ok (if fmtKind dst = .b1 then encodeB1 v else policyResult code c v.s y dst subn)
  match v.cls with
  | .nan => govern .nan 0
  | .inf => govern .inf 0
  | .num =>
    let (y, ovf, unf) := encodeValue v.s v.m v.e dst rm subn
    if ovf then govern .ovf y else if unf then govern .unf y else .ok y

/-- Lane form of stored bits (R93). -/
def laneForm (f y : Nat) : Lane :=
  match fmtKind f with
  | .sint w => BitVec.ofInt 32 (signExtend y w)
  | k => BitVec.ofNat 32 (y % 2 ^ k.width)

/-- Stored bits of a lane: bits w-1:0 (R93). -/
def laneBits (f : Nat) (l : Lane) : Nat := l.toNat % 2 ^ fmtWidth f

/-- A finite value as a signed multiple of `2^q`, for `q` at most its exponent. -/
def Val.scaled (v : Val) (q : Int) : Int :=
  let k : Int := (v.m * pow2 (v.e - q) : Nat)
  if v.s then -k else k

/-- The exact sum of finite values as a signed integer and its exponent. -/
def sumExact (vs : List Val) : Int × Int :=
  let q := vs.foldl (fun q v => if v.m = 0 then q else min q v.e) (0 : Int)
  (vs.foldl (fun a v => if v.m = 0 then a else a + v.scaled q) 0, q)

/-- Round a signed exact value in a format; a zero takes the given sign. -/
def roundSigned (y : Int) (q : Int) (zs : Bool) (f rm : Nat) (subn : Bool) : Nat :=
  if y = 0 then zeroBits f zs
  else (encodeValue (y < 0) y.natAbs q f rm subn).1

/-- Sign of an exact zero sum (R98, R186): two zeros of one sign keep it, otherwise plus, or minus when rounding down. -/
def zeroSumSign (a b : Val) (rm : Nat) : Bool :=
  if a.m = 0 && b.m = 0 && a.s = b.s then a.s else rm = 2

/-- Exact product, with the sign rule of R186; infinities and NaN follow the table. -/
def mulVal (a b : Val) : Val :=
  let s := a.s != b.s
  match a.cls, b.cls with
  | .nan, _ => Val.nan
  | _, .nan => Val.nan
  | .inf, .inf => ⟨.inf, s, 0, 0⟩
  | .inf, .num => if b.m = 0 then Val.nan else ⟨.inf, s, 0, 0⟩
  | .num, .inf => if a.m = 0 then Val.nan else ⟨.inf, s, 0, 0⟩
  | .num, .num => ⟨.num, s, a.m * b.m, a.e + b.e⟩

/-- Stored bits of a value, rounded once. -/
def encodeVal (v : Val) (f rm : Nat) (subn : Bool) : Nat :=
  match v.cls with
  | .nan => nanBits f
  | .inf => infBits f v.s
  | .num => if v.m = 0 then zeroBits f v.s else (encodeValue v.s v.m v.e f rm subn).1

/-- Sum of two values rounded once (R186, R98). -/
def addVals (a b : Val) (f rm : Nat) (subn : Bool) : Nat :=
  match a.cls, b.cls with
  | .nan, _ => nanBits f
  | _, .nan => nanBits f
  | .inf, .inf => if a.s = b.s then infBits f a.s else nanBits f
  | .inf, .num => infBits f a.s
  | .num, .inf => infBits f b.s
  | .num, .num =>
    let (y, q) := sumExact [a, b]
    roundSigned y q (zeroSumSign a b rm) f rm subn

/-- A value with its sign inverted. -/
def Val.negate (v : Val) : Val := { v with s := !v.s }

/-- Quotient of finite magnitudes to 400 bits and a sticky bit. -/
def divMag (am : Nat) (ae : Int) (bm : Nat) (be : Int) : Nat × Int :=
  let n := am * 2 ^ 400
  (2 * (n / bm) + (if n % bm = 0 then 0 else 1), ae - be - 401)

/-- Quotient (R186). -/
def divVal (a b : Val) : Val :=
  let s := a.s != b.s
  match a.cls, b.cls with
  | .nan, _ => Val.nan
  | _, .nan => Val.nan
  | .inf, .inf => Val.nan
  | .inf, .num => ⟨.inf, s, 0, 0⟩
  | .num, .inf => Val.zero s
  | .num, .num =>
    if b.m = 0 then (if a.m = 0 then Val.nan else ⟨.inf, s, 0, 0⟩)
    else
      let (m, e) := divMag a.m a.e b.m b.e
      ⟨.num, s, m, e⟩

/-- Integer square root by bits, from bit `i` down. -/
def isqrtBits (n : Nat) : Nat → Nat → Nat
  | 0, r => r
  | i + 1, r =>
    let t := r + 2 ^ i
    isqrtBits n i (if t * t ≤ n then t else r)

/-- Integer square root. -/
def isqrt (n : Nat) : Nat := isqrtBits n (Nat.log2 n / 2 + 1) 0

/-- Square root of a finite positive magnitude with a sticky bit. -/
def sqrtMag (m : Nat) (e : Int) : Nat × Int :=
  let (m1, e1) := if e % 2 = 0 then (m, e) else (2 * m, e - 1)
  let n := m1 * 2 ^ 400
  let r := isqrt n
  (2 * r + (if r * r = n then 0 else 1), (e1 - 400) / 2 - 1)

/-- Square root (R186). -/
def sqrtVal (a : Val) : Val :=
  match a.cls with
  | .nan => Val.nan
  | .inf => if a.s then Val.nan else a
  | .num =>
    if a.m = 0 then a
    else if a.s then Val.nan
    else
      let (m, e) := sqrtMag a.m a.e
      ⟨.num, false, m, e⟩

/-- One over the square root (R186). -/
def rsqrtVal (a : Val) : Val :=
  match a.cls with
  | .nan => Val.nan
  | .inf => if a.s then Val.nan else Val.zero false
  | .num =>
    if a.m = 0 then ⟨.inf, a.s, 0, 0⟩
    else if a.s then Val.nan
    else
      let (m1, e1) := if a.e % 2 = 0 then (a.m, a.e) else (2 * a.m, a.e - 1)
      -- 2^800 / m1 keeps its square root to hundreds of bits
      let n := 2 ^ 800
      let r := isqrt (n / m1)
      ⟨.num, false, 2 * r + (if r * r * m1 = n then 0 else 1), -(e1 / 2) - 401⟩

/-- The natural logarithm of 2, times 2^320. -/
def ln2Fix : Nat := 0xb17217f7d1cf79abc9e3b39803f2f6af40f343267298b62d8a0d175b8baafa2be7b876206debac98

/-- Sum of `y^k / k!` in fixed point of 320 bits, from term `t` of index `k`. -/
def expSeries (y : Nat) : Nat → Nat → Nat → Nat → Nat
  | 0, _, _, acc => acc
  | n + 1, k, t, acc => expSeries y n (k + 1) (t * y / 2 ^ 320 / k) (acc + t)

/-- Two to a value (R185, R186). A power that is no integer gives an irrational number, so the sticky bit is set. -/
def exp2Val (a : Val) : Val :=
  match a.cls with
  | .nan => Val.nan
  | .inf => if a.s then Val.zero false else ⟨.inf, false, 0, 0⟩
  | .num =>
    if a.m = 0 then ⟨.num, false, 1, 0⟩
    else if dyLt (2 ^ 12) 0 a.m a.e then ⟨.num, false, 1, if a.s then -5000 else 5000⟩
    else
      let x := a.scaled (min a.e (-320))
      let q := pow2 (-(min a.e (-320)))
      let n := x / (q : Int)
      let f := (x - n * q).toNat
      if f = 0 then ⟨.num, false, 1, n⟩
      else ⟨.num, false, 2 * expSeries (f * ln2Fix / q) 90 1 (2 ^ 320) 0 + 1, n - 321⟩

/-- Sum of `z^(2i+1) / (2i+1)` in fixed point of 320 bits. -/
def atanhSeries (z2 : Nat) : Nat → Nat → Nat → Nat → Nat
  | 0, _, _, acc => acc
  | n + 1, k, t, acc => atanhSeries z2 n (k + 2) (t * z2 / 2 ^ 320) (acc + t / k)

/-- Binary logarithm (R185, R186). A value that is no power of two has an irrational logarithm. -/
def log2Val (a : Val) : Val :=
  match a.cls with
  | .nan => Val.nan
  | .inf => if a.s then Val.nan else a
  | .num =>
    if a.m = 0 then ⟨.inf, true, 0, 0⟩
    else if a.s then Val.nan
    else
      let l := Nat.log2 a.m
      let k := floorLog2 a.m a.e
      if a.m = 2 ^ l then (if k = 0 then Val.zero false else ⟨.num, k < 0, k.natAbs, 0⟩)
      else
        let z := (a.m - 2 ^ l) * 2 ^ 320 / (a.m + 2 ^ l)
        let lnm := 2 * atanhSeries (z * z / 2 ^ 320) 220 1 z 0
        let y := k * (2 ^ 320 : Nat) + (lnm * 2 ^ 320 / ln2Fix : Nat)
        ⟨.num, y < 0, 2 * y.natAbs + 1, -321⟩

/-- Fused multiply-add rounded once (R185, R186); `neg` subtracts the third operand. -/
def fmaBits (a b c : Val) (neg : Bool) (f rm : Nat) (subn : Bool) : Nat :=
  let c := if neg && c.cls ≠ .nan then c.negate else c
  addVals (mulVal a b) c f rm subn

/-- One below another, with -0 below +0 (R187, R193). -/
def valLt (a b : Val) : Bool :=
  match a.cls, b.cls with
  | .inf, .inf => a.s && !b.s
  | .inf, _ => a.s
  | _, .inf => !b.s
  | _, _ =>
    if a.s != b.s then a.s
    else if a.s then dyLt b.m b.e a.m a.e else dyLt a.m a.e b.m b.e

/-- Numeric equality, +0 equal to -0 (R188). -/
def valEq (a b : Val) : Bool :=
  match a.cls, b.cls with
  | .inf, .inf => a.s = b.s
  | .num, .num => (a.m = 0 && b.m = 0) || (a.s = b.s && !dyLt a.m a.e b.m b.e && !dyLt b.m b.e a.m a.e)
  | _, _ => false

/-- Numeric order, +0 equal to -0 (R188). -/
def valBelow (a b : Val) : Bool := valLt a b && !valEq a b

/-- A36 operations of the matrix engine (R217): nearest even, eb 8, fb 27. -/
def a36Add (subn : Bool) (a b : Nat) : Nat := addVals (decodeValue a fmtA36 subn) (decodeValue b fmtA36 subn) fmtA36 0 subn
def a36Sub (subn : Bool) (a b : Nat) : Nat :=
  let y := decodeValue b fmtA36 subn
  addVals (decodeValue a fmtA36 subn) (if y.cls = .nan then y else y.negate) fmtA36 0 subn
def a36Mul (subn : Bool) (a b : Nat) : Nat :=
  encodeVal (mulVal (decodeValue a fmtA36 subn) (decodeValue b fmtA36 subn)) fmtA36 0 subn
def a36Div (subn : Bool) (a b : Nat) : Nat :=
  encodeVal (divVal (decodeValue a fmtA36 subn) (decodeValue b fmtA36 subn)) fmtA36 0 subn
def a36Sqrt (subn : Bool) (a : Nat) : Nat := encodeVal (sqrtVal (decodeValue a fmtA36 subn)) fmtA36 0 subn

/-- An A36 pattern that is an infinity or a NaN. -/
def a36Special (b : Nat) : Bool := bits b 34 27 = 255

/-- An aligned row (R107, R208): integers, their scale, and whether some element was special. -/
structure Aligned where
  m       : List Int
  g       : Int
  special : Bool
  deriving DecidableEq, Repr

/-- W of R107. -/
def alignWidth (f : Nat) : Nat := (fmtPlanes f).1

/-- block_align (R107). -/
def blockAlign (row : List Nat) (f : Nat) (subn : Bool) : Aligned :=
  let vs := row.map fun b => decodeValue b f subn
  let special := vs.any fun v => v.cls ≠ .num
  let emax := vs.foldl (fun (acc : Option Int) v =>
    if v.cls = .num && v.m ≠ 0 then
      some (match acc with
        | none => floorLog2 v.m v.e
        | some x => max x (floorLog2 v.m v.e))
    else acc) none
  let g : Int := match emax with
    | none => 0
    | some x => x - alignWidth f + 2
  { m := vs.map fun v => if v.cls = .num then
        let r : Int := roundTo v.m v.e g 0 false
        if v.s then -r else r
      else 0,
    g, special }

/-- The alignment of a row of an operand tile read with `p` planes (R208). -/
def alignRow (row : List Nat) (f p : Nat) (subn : Bool) : Aligned :=
  match fmtKind f with
  | .b1 => { m := row.map fun b => if b.testBit 0 then 1 else -1, g := 0, special := false }
  | .uint n => { m := row.map fun b => ((b % 2 ^ n / 2 ^ (n - p) : Nat) : Int), g := (n : Int) - p, special := false }
  | .sint n => { m := row.map fun b => signExtend b n / ((2 ^ (n - p) : Nat) : Int), g := (n : Int) - p, special := false }
  | _ => blockAlign row f subn

end Sys2Proof.Machine
end

