-- ==== Sys2Proof/Machine/Nest.lean ====
section
/-! DEFINITION. Loop-nest records, packed groups and compressed operand tiles (05 R153 to R159; 03 R92). -/

namespace Sys2Proof.Machine

/-- A loop-nest record (R156). -/
structure Nest where
  rows    : Nat
  cols    : Nat
  dstride : List Int
  sstride : List Int
  trips   : List Nat
  dbase   : Nat
  sbase   : Nat
  count   : Nat
  oob     : Bool
  last    : Bool
  subn    : Bool
  vmask   : Bool
  stage   : Nat
  ring    : Nat
  dfmt    : Nat
  sfmt    : Nat
  policy  : Nat
  op      : Nat
  deriving DecidableEq, Repr

/-- The fields of 512 bits (R156). -/
def Nest.ofNat (r : Nat) : Nest :=
  { rows := bits r 511 496, cols := bits r 495 480,
    dstride := (List.range 4).map fun i => signExtend (bits r (383 + 32 * i) (352 + 32 * i)) 32,
    sstride := (List.range 4).map fun i => signExtend (bits r (255 + 32 * i) (224 + 32 * i)) 32,
    trips := (List.range 4).map fun i => bits r (175 + 16 * i) (160 + 16 * i),
    dbase := bits r 159 112, sbase := bits r 111 64, count := bits r 63 48, oob := bit r 47, last := bit r 46,
    subn := bit r 45, vmask := bit r 44, stage := bits r 43 32, ring := bits r 31 28, dfmt := bits r 27 22,
    sfmt := bits r 21 16, policy := bits r 15 8, op := bits r 7 0 }

/-- The record a nest register or a schedule slot holds. -/
def Nest.ofBits (r : BitVec 512) : Nest := Nest.ofNat r.toNat

/-- Elements of the walk (R157). -/
def Nest.total (r : Nest) : Nat := r.trips.foldl (· * ·) r.count

/-- The loop indices i0 to i3 and e of walk element `n` (R157). -/
def Nest.indices (r : Nest) (n : Nat) : List Nat × Nat :=
  let t := n / r.count
  let t0 := r.trips.getD 0 1
  let t1 := r.trips.getD 1 1
  let t2 := r.trips.getD 2 1
  ([t % t0, t / t0 % t1, t / t0 / t1 % t2, t / t0 / t1 / t2], n % r.count)

/-- Stride sum of some indices (R157). -/
def strideSum (is : List Nat) (ss : List Int) : Int := ((is.zip ss).map fun p => (p.1 : Int) * p.2).foldl (· + ·) 0

/-- Bit 47 of a base: the scratchpad (R158). -/
def baseSpad (b : Nat) : Bool := bit b 47
/-- The address or offset a base holds (R158). -/
def baseAddr (b : Nat) : Nat := bits b 46 0
/-- The reserved bits of a scratchpad base are zero (R158). -/
def baseOk (b : Nat) : Bool := !baseSpad b || bits b 46 21 = 0

/-- The run address and element index of a walk element on the source and destination sides (R157). -/
def Nest.srcAt (r : Nest) (n : Nat) : Int × Nat :=
  let (is, e) := r.indices n
  ((baseAddr r.sbase : Int) + strideSum is r.sstride, e)
def Nest.dstAt (r : Nest) (n : Nat) : Int × Nat :=
  let (is, e) := r.indices n
  ((baseAddr r.dbase : Int) + strideSum is r.dstride, e)

/-- First byte of element `e` of a run (R92): `a` plus the whole bytes of `w·e` bits. -/
def elemByte (a : Int) (w e : Nat) : Int := a + ((w * e / 8 : Nat) : Int)
/-- Bit of that byte the element begins at. -/
def elemBit (w e : Nat) : Nat := w * e % 8
/-- Bytes the element touches. -/
def elemBytes (w e : Nat) : Nat := (elemBit w e + w + 7) / 8

/-- The stored bits of an element from the bytes it touches. -/
def elemOf (w e : Nat) (bs : List Byte) : Nat := bytesNat bs / 2 ^ elemBit w e % 2 ^ w

/-- The bytes and masks that write an element (R196). -/
def elemCells (w e v : Nat) : List (Byte × Byte) :=
  let n := elemBytes w e
  (natBytes n (v % 2 ^ w * 2 ^ elemBit w e)).zip (natBytes n ((2 ^ w - 1) * 2 ^ elemBit w e))

/-- Elements packed in groups from a base, unpacked (R92). -/
def unpackElems (w n : Nat) (bs : List Byte) : List Nat :=
  if w % 8 = 0 then (List.range n).map fun i => bytesNat ((bs.drop (w / 8 * i)).take (w / 8))
  else
    let g := bytesNat bs
    (List.range n).map fun i => g / 2 ^ (w * i) % 2 ^ w

/-- Elements packed (R92). -/
def packElems (w : Nat) (vs : List Nat) : List Byte :=
  natBytes ((w * vs.length + 7) / 8) (vs.foldr (fun v a => v % 2 ^ w + 2 ^ w * a) 0)

def causeOperandBad : Nat := 0x03
def causePolicy : Nat := 0x09
def causePort : Nat := 0x14
def causeTile : Nat := 0x15

/-- A walk or tile that cannot be read (R155, R162): cause, scratchpad offset and AUX. -/
structure WalkFault where
  cause : Nat
  addr  : Nat
  aux   : Nat
  deriving DecidableEq, Repr

/-- The plane rows of an expanded tile as rows of stored elements (R153): `planes` holds 64 rows of 512 bits per plane. -/
def planesToRows (planes : List (List Nat)) : List Nat :=
  (List.range 64).flatMap fun r =>
    let ps := planes.map fun p => p.getD r 0
    (List.range 512).map fun k => ps.foldl (fun (a : Nat) p => 2 * a + (if p.testBit k then 1 else 0)) 0

/-- The plane rows of rows of stored elements (R153). -/
def rowsToPlanes (w : Nat) (rows : List (List Nat)) : List (List Nat) :=
  (List.range w).map fun j => rows.map fun row =>
    row.foldr (fun v a => 2 * a + (if v.testBit (w - 1 - j) then 1 else 0)) 0

/-- Chunks of some plane rows: two rows of a plane each (R153). -/
def chunkBytes (planes : List (List Nat)) : List (List Byte) :=
  planes.flatMap fun p => (List.range 32).map fun h => natBytes 64 (p.getD (2 * h) 0) ++ natBytes 64 (p.getD (2 * h + 1) 0)

/-- A compressed operand tile in memory (R154): the chunks' sectors contiguous, in chunk order. -/
def tileEncode (fmt : Nat) (rows : List (List Nat)) : List Byte :=
  let w := fmtWidth fmt
  let encs := (chunkBytes (rowsToPlanes w rows)).map pleatEncode
  let tab := encs.foldl (fun (acc : List Byte × Nat) (x : Nat × Nat × List Byte) =>
    (acc.1 ++ natBytes 4 (x.1 * 2 ^ 20 + x.2.1 * 2 ^ 16 + acc.2), acc.2 + x.2.1)) ([], 0)
  natBytes 1 fmt ++ natBytes 1 w ++ natBytes 2 0 ++ natBytes 4 tab.2 ++ natBytes 8 0 ++ tab.1 ++ natBytes 112 0 ++
    encs.flatMap fun x => x.2.2

/-- The chunks of a tile, expanded in order; `lim` is the grant (R154, R155). -/
def tileChunks (mem : Nat → Nat → List Byte) (t lim nsect data : Nat) (tab : List Byte) : Nat → Nat →
    Except WalkFault (List (List Byte))
  | 0, _ => .ok []
  | k + 1, c =>
    let e := bytesNat ((tab.drop (4 * c)).take 4)
    let kind := bits e 21 20
    let scnt := bits e 19 16
    let soff := bits e 15 0
    let body := mem (data + 16 * soff) (16 * scnt)
    if e / 2 ^ 22 ≠ 0 || (scnt ≠ 0 && (nsect < soff + scnt || lim < data + 16 * (soff + scnt))) || !pleatOk kind scnt body then
      .error ⟨causeTile, t, c⟩
    else match tileChunks mem t lim nsect data tab k (c + 1) with
      | .error f => .error f
      | .ok cs => .ok (pleatDecode kind body :: cs)

/-- Group the chunks of each plane into its 64 rows. -/
def chunksToPlanes (w : Nat) (cs : List (List Byte)) : List (List Nat) :=
  (List.range w).map fun j => ((cs.drop (32 * j)).take 32).flatMap fun b => [bytesNat (b.take 64), bytesNat (b.drop 64)]

/-- Expand the compressed operand tile at offset `t` (R154, R155): its 64 rows of 512 stored elements, flat. -/
def tileDecode (mem : Nat → Nat → List Byte) (t lim expect : Nat) : Except WalkFault (List Nat) :=
  let whole : WalkFault := ⟨causeTile, t, 0xFFFF⟩
  if lim ≤ t then .error ⟨causeData, t, 0⟩
  else if lim < t + 16 then .error whole
  else
    let h := mem t 16
    let fmt := bytesNat (h.take 1)
    let p := bytesNat ((h.drop 1).take 1)
    let nsect := bytesNat ((h.drop 4).take 4)
    if !fmtNamed fmt || p ≠ fmtWidth fmt || bytesNat ((h.drop 2).take 2) ≠ 0 || bytesNat (h.drop 8) ≠ 0 then .error whole
    else if lim < t + 128 * (p + 1) then .error whole
    else if bytesNat (mem (t + 16 + 128 * p) 112) ≠ 0 || fmt ≠ expect then .error whole
    else
      let data := t + 128 * (p + 1)
      match tileChunks mem t lim nsect data (mem (t + 16) (128 * p)) (32 * p) 0 with
      | .error f => .error f
      | .ok cs => if lim < data + 16 * nsect then .error whole else .ok (planesToRows (chunksToPlanes p cs))

end Sys2Proof.Machine
end

