-- ==== Sys2Proof/Machine/Devices.lean ====
section
/-! DEFINITION. Device registers as the cores reach them (13 R335): the slice counters (R330), the invalidation registers
(R342) and LSGO with its link schedules (17 R433 to R436); the operations of a slice and of the TLBs that other agents ask for. -/

namespace Sys2Proof.Machine

def pTlbinv : Nat := 0x3F00_0000_0000
def pTlbinvst : Nat := 0x3F00_0000_0008
def pLsgo : Nat := 0x3F00_0000_0100
def pCounters : Nat := 0x3F00_0001_0000
/-- End of the counter blocks of 128 slices. -/
def pCountersEnd : Nat := 0x3F00_0001_4000

/-- A write of TLBINV (R342): queued, or discarded when 16 are queued. -/
def State.queueInval (s : State) (v : Nat) : State :=
  let d := s.die
  if 16 ≤ d.tlbQueue.length then { s with die := { d with tlbDrop := true } }
  else { s with die := { d with tlbQueue := d.tlbQueue ++ [v % 2 ^ 64] } }

/-- TLBINVST as read (R342). -/
def Die.invalStatus (d : Die) : Nat :=
  d.tlbSeq % 2 ^ 62 * 4 + (if d.tlbDrop then 2 else 0) + (if d.tlbQueue.isEmpty then 0 else 1)

/-- A write of TLBINVST: 1 in DROP clears it (R342). -/
def State.clearDrop (s : State) (v : Nat) : State :=
  if bit v 1 then { s with die := { s.die with tlbDrop := false } } else s

/-- A virtual byte lies in the pages an invalidation names (R342). -/
def invalNames (v asn va : Nat) : Bool :=
  asn = invalAsn v && (bit v 63 || (bits v 47 12 ≤ va / 4096 && va / 4096 < bits v 47 12 + bits v 59 48 + 1))

/-- The virtual addresses that an operation in flight reaches by a translation it holds, beside those of stores (R342): the guard of
an acquire or release, and the block that the operands of a waiting RPOP, PXPUSH, PXFLUSH or retrieval command name. -/
def Ctx.heldVas (c : Ctx) (f : Flight) : List Nat := match f.eff with
  | .command (.acquire va _ _ _) => [va]
  | .command (.release pa) =>
    (c.guards.filter fun h => h.pa = pa).map (·.addr) ++ c.allFlights.filterMap fun g => match g.eff with
      | .command (.acquired va p _ _ _) => if p = pa then some va else none
      | _ => none
  | .command (.pop _ _) => [f.a.toNat]
  | .command (.proxyFlush _ _) => [f.a.toNat]
  | .command (.proxyPush _ _ _ _ _) => [f.a.toNat]
  | _ => []

/-- An operation in flight was translated for pages an invalidation names (R342); an access to a device register keeps no virtual
address, so that any of the address space counts (notes/assumptions/112). -/
def Ctx.through (c : Ctx) (f : Flight) (v asn : Nat) : Bool := match f.eff with
  | .store false cells => !f.done && cells.any fun x => invalNames v asn x.va
  | .command (.deviceLoad _ _ _ _) => asn = invalAsn v
  | .command (.deviceStore _ _ _) => asn = invalAsn v
  | _ => (c.heldVas f).any fun va => invalNames v asn va

/-- Some access of a context that used an old translation is not yet performed: of an operation in flight, or a write that its
sequencer holds (R342). -/
def Ctx.oldAccess (c : Ctx) (v : Nat) : Bool := match c.task with
  | some t => (c.allFlights.any fun f => c.through f v t.part) || c.seq.held.any fun x => !x.1 && invalNames v t.part x.2.va
  | none => false

/-- Some access that used an old translation is not yet performed: of a context on a core or of a saved one, or of a retrieval command
(R342). -/
def State.oldAccess (s : State) (v : Nat) : Bool :=
  (s.cores.any fun k => k.ctx.any (Ctx.oldAccess · v) || k.ready.any fun r => r.saved.any fun x => x.ctx.oldAccess v) ||
    s.retr.cmds.any fun c => c.vas.any fun va => invalNames v c.part va

/-- A block of the cache holds a line of pages an invalidation names. -/
def BlockTag.meets (t : BlockTag) (v : Nat) : Bool := (List.range t.count).any fun i => invalNames v t.asn (128 * (t.first + i))

/-- Every core writes back and forgets its blocks of pages an invalidation names: their tags hold old translations, and no other
state than the TLBs may keep one (R168, R340, R342; notes/assumptions/112). -/
def State.dropBlocks (s : State) (v : Nat) : State :=
  (List.range 128).foldl (fun s n =>
    (((s.core n).blocks).filter fun t => t.meets v).foldl (fun s t => s.evictBlock n t) s) s

/-- The oldest queued invalidation: the TLBs drop what it names and the caches write back; it completes once no access through an
old translation is under way (R342). -/
def State.invalidate (s : State) : State :=
  match s.die.tlbQueue with
  | [] => s
  | v :: rest =>
    let s1 := (s.tlbDropMatching v).dropBlocks v
    if s1.oldAccess v then s1
    else
      let d := s1.die
      { s1 with die := { d with tlbQueue := rest, tlbSeq := (d.tlbSeq + 1) % 2 ^ 62 } }

/-- TLBINV (R342). -/
def execTlbinv (value : Nat) (s : State) : Host.Outcome State Fault Refusal := .next (s.queueInval value)
/-- TLBINVST (R342). -/
def execTlbinvst (value : Nat) (s : State) : Host.Outcome State Fault Refusal := .next (s.clearDrop value)
/-- TLB_INVALIDATION (R342). -/
def execTlbInvalidation (s : State) : Host.Outcome State Fault Refusal := .next s.invalidate

/-- A write of CTRL of a slice (R330). -/
def State.writeCtrl (s : State) (slice v : Nat) : State :=
  if bit v 0 then { s with die := s.die.clearCounters slice } else s

/-- CTRL (R330): slices 0 to 127. -/
def execCtrl (slice value : Nat) (s : State) : Host.Outcome State Fault Refusal :=
  if slice < 128 then .next (s.writeCtrl slice value) else .refused .noSuchPlace

/-- A corrected error of a word (R331). -/
def Die.corrected (d : Die) (word : Nat) (memory : Bool) : Die :=
  let d1 := d.count (homeSlice (word / 128)) cCecc 1
  if memory then { d1 with eccMemC := d1.eccMemC + 1 } else { d1 with eccLlcC := d1.eccLlcC + 1 }

/-- An uncorrectable error of a word: its poison bit (R331). -/
def Die.poisoned (d : Die) (word : Nat) : Die := { d with poison := addSorted word d.poison }

/-- UECC and ERRADDR of an uncorrectable error (R331); one met in the read of a read-modify-write is counted with its refusal
(R334). -/
def Die.uncorrected (d : Die) (word : Nat) (memory : Bool) : Die :=
  let sl := homeSlice (word / 128)
  let d1 := (d.count sl cUecc 1).errAddr sl word
  if memory then { d1 with eccMemU := d1.eccMemU + 1 } else { d1 with eccLlcU := d1.eccLlcU + 1 }

/-- The last refusal's error was found in LPDDR-6, not in the cache (R334; 17 R428). -/
def Die.ofMemory (d : Die) (memory : Bool) : Die :=
  if memory then { d with eccLlcU := d.eccLlcU - 1, eccMemU := d.eccMemU + 1 } else d

/-- What an operation of a slice does: a read of the line, or a write of bytes within it; the words refused. -/
def State.sliceOp (s : State) (addr : Nat) : Option (List Byte) → State × List Nat
  | none => ((s.dieRead (addr / 128 * 128) 128).2, [])
  | some bs => s.dieWrite (dieBytes addr (bs.take (128 - addr % 128)))

/-- LLC_OPERATION (R329, R331, R334): an agent outside the cores reads the line at an address, or writes bytes within it; `found`
is the ECC error that it meets in the word at the address. -/
def execLlcOperation (addr : Nat) (access : LlcAccess) (s : State) : Host.Outcome State Fault Refusal :=
  if lpddrEnd ≤ addr then .refused .noSuchPlace
  else
    let word := addr / 32 * 32
    match access.found with
    | .clean => .next (s.sliceOp addr access.write).1
    | .corrected memory => .next ({ s with die := s.die.corrected word memory }.sliceOp addr access.write).1
    | .uncorrectable memory =>
      let r := { s with die := s.die.poisoned word }.sliceOp addr access.write
      .next { r.1 with die := if r.2.contains word then r.1.die.ofMemory memory else r.1.die.uncorrected word memory }

/-- DONE of a link schedule (R434). -/
def State.schedDone (s : State) (pa : Nat) (error : Option Nat) (done : Nat) : State :=
  s.diePut (pa + 16) 8 ((match error with
    | some c => 2 ^ 63 + c * 2 ^ 40
    | none => 0) + done)

/-- Bytes at a physical address lie in LPDDR-6 (R362). -/
def inLpddr (pa n : Nat) : Bool := n = 0 || pa + n ≤ lpddrEnd

/-- A store to LSGO (R434, R435): one that starts no schedule leaves the register as it is. A schedule's
block is read once, when it starts (R349); one that breaks R434 stops at once, and so does one whose entries run past LPDDR-6 (R362;
notes/assumptions/60). -/
def State.startLinks (s : State) (part pa : Nat) : State :=
  let h := s.host
  if h.sched.isSome then s.setHost { h with lsgoRefused := true }
  else if lpddrEnd ≤ pa || pa % 32 ≠ 0 then s
  else
      let s1 := s.setHost { h with lsgoRefused := false, lsgoPart := part }
      let (bs, s2) := s1.dieRead pa 32
      let t0 := bytesNat (bs.take 8)
      let n := bytesNat ((bs.drop 8).take 8)
      if n < 1 || 4096 < n || bytesNat (bs.drop 24) ≠ 0 then s2.schedDone pa (some 0x18) 0
      else if !inLpddr (pa + 32) (32 * n) then s2.schedDone pa (some causeData) 0
      else
        let (block, s3) := s2.dieRead (pa + 32) (32 * n)
        s3.setHost { s3.host with sched := some { pa, t0, n, next := 0, block } }

/-- LSGO as read (R435). -/
def Host1.lsgo (h : Host1) : Nat := h.lsgoPart * 256 + (if h.lsgoRefused then 2 else 0) + (if h.sched.isSome then 1 else 0)

/-- LSGO (R435): a task's store. -/
def execLsgo (part value : Nat) (s : State) : Host.Outcome State Fault Refusal :=
  if part < 8 then .next (s.startLinks part value) else .refused .noSuchPlace

/-- A load of LSGO clears REFUSED; the value goes to the reader (R435). -/
def State.loadLsgo (s : State) : Nat × State := (s.host.lsgo, s.setHost { s.host with lsgoRefused := false })

/-- LSGO_LOAD (R435): the value is kept among the replies. -/
def execLsgoLoad (s : State) : Host.Outcome State Fault Refusal :=
  let (v, s1) := s.loadLsgo
  .next (s1.setHost { s1.host with replies := s1.host.replies ++ [[v]] })

/-- Formats a link entry may name (R434). -/
def linkFormat (f : Nat) : Bool := [0x0F, 0x18, 0x19, 0x1A, 0x1B, 0x1C, 0x1D].contains f

/-- An entry of a link schedule (R434). -/
structure LinkEntry where
  t     : Nat
  pol   : Nat
  count : Nat
  req   : Bool
  nfmt  : Nat
  link  : Nat
  op    : Nat
  buf   : Nat
  acc   : Nat
  ok    : Bool
  deriving DecidableEq, Repr

def LinkEntry.ofBytes (bs : List Byte) : LinkEntry :=
  let w1 := bytesNat ((bs.drop 8).take 8)
  { t := bytesNat (bs.take 8), pol := bits w1 63 56, count := bits w1 47 32, req := bit w1 24, nfmt := bits w1 17 12,
    link := bits w1 11 8, op := bits w1 7 0, buf := bytesNat ((bs.drop 16).take 8), acc := bytesNat ((bs.drop 24).take 8),
    ok := bits w1 55 48 = 0 && bits w1 31 25 = 0 && bits w1 23 18 = 0 && bits w1 7 0 ≤ 2 && linkFormat (bits w1 17 12) &&
      bits w1 47 32 % 64 = 0 }

/-- The result of an entry: it waits, it ends, or it stops the schedule with a cause; what it has done by then stands (R436). -/
inductive LinkRun where
  | wait
  | done (s : State)
  | error (cause : Nat) (s : State)

/-- Elements of a buffer at a physical address. -/
def State.linkRead (s : State) (pa w n : Nat) : List Nat × State :=
  let r := s.dieRead pa ((w * n + 7) / 8)
  (unpackElems w n r.1, r.2)
def State.linkWrite (s : State) (pa w : Nat) (vs : List Nat) : State := (s.dieWrite (dieBytes pa (packElems w vs))).1

/-- The received elements of RECVADD added to ACC (R436). -/
def accumulate (nfmt : Nat) (acc xs : List Nat) : List Nat :=
  (acc.zip xs).map fun p =>
    match convertValue p.2 nfmt fmtA36 0xAA 0 true with
    | .ok y => a36Add true p.1 y
    | .error _ => p.1

/-- The elements of BUF that a RECVADD with REQ writes, up to one whose policy is a fault (R436). -/
def requantise (nfmt pol : Nat) : List Nat → List Nat
  | [] => []
  | a :: rest => match convertValue a fmtA36 nfmt pol 0 true with
    | .ok b => b :: requantise nfmt pol rest
    | .error _ => []

def State.linkOf (s : State) (l : Nat) : Link := vget Link.reset s.host.links l
def State.setLink (s : State) (l : Nat) (x : Link) : State := s.setHost { s.host with links := vset s.host.links l x }

/-- The buffers an entry uses lie in LPDDR-6 (R362, R434). -/
def LinkEntry.inMemory (e : LinkEntry) : Bool :=
  (e.op = 2 && !e.req || inLpddr e.buf ((fmtWidth e.nfmt * e.count + 7) / 8)) && (e.op ≠ 2 || inLpddr e.acc ((36 * e.count + 7) / 8))

/-- RECVADD of some received elements (R436): an element whose policy is a fault stops it, with its own ACC and what came before
written. -/
def State.recvAdd (s : State) (e : LinkEntry) (xs : List Nat) : LinkRun :=
  let w := fmtWidth e.nfmt
  let (old, s1) := s.linkRead e.acc 36 e.count
  let new := accumulate e.nfmt old xs
  if !e.req then .done (s1.linkWrite e.acc 36 new)
  else
    let bs := requantise e.nfmt e.pol new
    let j := bs.length
    if j = new.length then .done ((s1.linkWrite e.acc 36 new).linkWrite e.buf w bs)
    else
      let (was, s2) := s1.linkRead e.buf w e.count
      .error 0x09 ((s2.linkWrite e.acc 36 (new.take (j + 1) ++ old.drop (j + 1))).linkWrite e.buf w (bs ++ was.drop j))

/-- One entry (R436). BUF or ACC outside LPDDR-6 stops the schedule before any effect (notes/assumptions/60). -/
def State.runLink (s : State) (e : LinkEntry) : LinkRun :=
  let l := s.linkOf e.link
  let w := fmtWidth e.nfmt
  if !e.ok then .error 0x18 s
  else if !e.inMemory then .error causeData s
  else if l.state = .training then .wait
  else if l.state ≠ .up then .error causeLink s
  else if e.op = 0 then
    let (es, s1) := s.linkRead e.buf w e.count
    .done (s1.setLink e.link { l with tx := l.tx ++ [{ nfmt := e.nfmt, elems := es }] })
  else match l.rx with
    | [] => .wait
    | m :: rest =>
      if m.nfmt ≠ e.nfmt || m.elems.length ≠ e.count then .error causeLink s
      else
        let s1 := s.setLink e.link { l with rx := rest }
        if e.op = 1 then .done (s1.linkWrite e.buf w m.elems) else s1.recvAdd e m.elems

/-- The next entry of a schedule, as read at its start (R434). -/
def LinkSched.entry (sc : LinkSched) : LinkEntry := LinkEntry.ofBytes ((sc.block.drop (32 * sc.next)).take 32)

/-- The next entry of the schedule that runs, at its fabric time (R436). -/
def State.runEntry (s : State) : State :=
  match s.host.sched with
  | none => s
  | some sc =>
    if s.now < sc.t0 + sc.entry.t then s
    else match s.runLink sc.entry with
      | .wait => s
      | .error c s1 =>
        let s2 := s1.schedDone sc.pa (some c) sc.next
        s2.setHost { s2.host with sched := none }
      | .done s1 =>
        let s2 := s1.schedDone sc.pa none (sc.next + 1)
        s2.setHost { s2.host with sched := if sc.next + 1 = sc.n then none else some { sc with next := sc.next + 1 } }

/-- RUN_ENTRY (R436): the schedule's next entry, where it is on the link named. -/
def execRunEntry (link : Nat) (s : State) : Host.Outcome State Fault Refusal :=
  if 16 ≤ link then .refused .noSuchPlace
  else .next (if s.host.sched.any fun sc => sc.entry.link = link then s.runEntry else s)

/-- A device register has a behaviour for a load, and for a store, of some bytes (R330, R342, R434). -/
def devLoads (pa : Nat) : Bool := (pTlbinv ≤ pa && pa < pTlbinv + 16) || (pLsgo ≤ pa && pa < pLsgo + 8) ||
  (pCounters ≤ pa && pa < pCountersEnd)
def devStores (pa size : Nat) : Bool := (size = 8 && [pTlbinv, pTlbinvst, pLsgo].contains pa) ||
  (pCounters ≤ pa && pa < pCountersEnd)

/-- A load of a device register (R335): the 64-bit register, and the state it leaves. -/
def State.devRead (s : State) (pa : Nat) : Nat × State :=
  let r := pa / 8 * 8
  if r = pTlbinvst then (s.die.invalStatus, s)
  else if r = pLsgo then s.loadLsgo
  else if pCounters ≤ r && r < pCountersEnd then (s.die.counter ((r - pCounters) / 128) ((r - pCounters) % 128 / 8), s)
  else (0, s)

/-- The bytes a load of `size` bytes takes of a register. -/
def devPart (pa size v : Nat) : Nat := v / 2 ^ (8 * (pa % 8)) % 2 ^ (8 * size)

/-- A store to a device register (R335); the counters but CTRL are read-only (R330). -/
def State.devWrite (s : State) (part pa v : Nat) : State :=
  if pa = pTlbinv then s.queueInval v
  else if pa = pTlbinvst then s.clearDrop v
  else if pa = pLsgo then s.startLinks part v
  else if pCounters ≤ pa && pa < pCountersEnd && (pa - pCounters) % 128 = 0x78 then s.writeCtrl ((pa - pCounters) / 128) v
  else s

/-- A device access in flight that no rule describes (R335). -/
def Effect.devUnknown : Effect → Option Nat
  | .command (.deviceLoad pa _ _ _) => if devLoads pa then none else some pa
  | .command (.deviceStore pa size _) => if devStores pa size then none else some pa
  | _ => none

end Sys2Proof.Machine
end

