-- ==== Sys2Proof/Machine/SystemRegs.lean ====
section
/-! DEFINITION. System registers, TRAP, events and the token move (04 R129, R130, R143 to R147; 03 R106; 07 R215, R216;
09 R275; 12 R315). -/

namespace Sys2Proof.Machine

def srSlipwin : Nat := 0x000
def srVcvtpol : Nat := 0x001
def srFactctl : Nat := 0x002
def srFtol : Nat := 0x003
def srCycle : Nat := 0x010
def srTbase : Nat := 0x011
def srTimecmp : Nat := 0x012
def srTimerctl : Nat := 0x013
def srTvec : Nat := 0x020
def srHstat : Nat := 0x021
def srFrameaddr : Nat := 0x022
def srCtxid : Nat := 0x023
def srSnapver : Nat := 0x030
def srSchedst : Nat := 0x040

/-- SNAPVER (R275): MAXENT 960, LAYOUT 1. -/
def snapver : Word := 0x03C00001

/-- Bit mask of the non-empty queues of a slice (R315). -/
def Cluster.nonEmpty (k : Cluster) : Nat :=
  (k.queues.toList.zipIdx).foldl (fun a p => if p.1.isEmpty then a else a + 2 ^ p.2) 0

/-- Registers that only handler mode reaches (R144). -/
def srHandlerOnly (n : Nat) : Bool := n = srHstat || (srSchedst ≤ n && n ≤ srSchedst + 3)

/-- A system register as MFSR reads it (R144 to R147, R315); none for a number that no register has. -/
def State.readSys (s : State) (n : Nat) : Option Word :=
  let c := s.ctx
  let k := s.cluster (clusterOf s.focus)
  if n = srSlipwin then some (BitVec.ofNat 64 c.slip)
  else if n = srVcvtpol then some (c.vcvtpol.setWidth 64)
  else if n = srFactctl then some (c.factctl.setWidth 64)
  else if n = srFtol then some (c.ftol.setWidth 64)
  else if n = srCycle then some (BitVec.ofNat 64 c.cycle)
  else if n = srTbase then some (BitVec.ofNat 64 s.tbase)
  else if n = srTimecmp then some c.timecmp
  else if n = srTimerctl then
    some (BitVec.ofNat 64 ((if c.handler && c.timerEn && c.timecmp.toNat ≤ c.cycle then 2 else 0) + (if c.timerEn then 1 else 0)))
  else if n = srTvec then some (c.tvec.setWidth 64)
  else if n = srHstat then
    some (BitVec.ofNat 64 (256 * c.hcause.toNat + (if c.hfail then 2 else 0) + (if c.handler then 1 else 0)))
  else if n = srFrameaddr then some (c.frameAddr.setWidth 64)
  else if n = srCtxid then some (BitVec.ofNat 64 (2 * s.focus + s.here.running))
  else if n = srSnapver then some snapver
  else if n = srSchedst then
    some (BitVec.ofNat 64 (s.here.ready.length % 256 * 2 ^ 56 + ((s.here.ready.head?.map (·.prio)).getD 0) % 16 * 2 ^ 52 +
      ((c.task.map (·.prio)).getD 0) % 16 * 2 ^ 48 + ((c.task.map (·.region)).getD 0) * 2 ^ 16 + (c.task.map (·.slot)).getD 0))
  else if n = srSchedst + 1 then some (BitVec.ofNat 64 k.nonEmpty)
  else if n = srSchedst + 2 then
    some (BitVec.ofNat 64 (bytesNat ((List.range 8).map fun j =>
      BitVec.ofNat 8 (s.core (8 * clusterOf s.focus + j)).ready.length)))
  else if n = srSchedst + 3 then some (BitVec.ofNat 64 ((c.task.map (·.placed)).getD 0))
  else none

/-- Access that a mode forbids (R144). -/
def sysPrivilege (n : Nat) (s : State) : Option Trap :=
  if srHandlerOnly n && !s.ctx.handler then some { cause := causePrivilege } else none

/-- A system register may be written in the mode in force (R144). -/
def Ctx.sysWritable (c : Ctx) (n : Nat) : Bool :=
  [srSlipwin, srVcvtpol, srFactctl, srFtol].contains n ||
    (c.handler && [srTimecmp, srTimerctl, srTvec, srHstat].contains n)

/-- The value suits the register (R27, R147, R216). -/
def sysValueOk (n : Nat) (v : Word) : Bool :=
  if n = srSlipwin then 16 ≤ bits v.toNat 12 0 && bits v.toNat 12 0 ≤ 4096
  else if n = srTvec then v.toNat % 4 = 0
  else if n = srFtol then !bit v.toNat 35 && !a36Special (bits v.toNat 35 0)
  else true

/-- A write of a system register, as it lands (R27, R106, R146, R147, R215, R216). -/
def Ctx.writeSys (c : Ctx) (n : Nat) (v : Word) : Ctx :=
  if n = srSlipwin then { c with slip := bits v.toNat 12 0 }
  else if n = srVcvtpol then { c with vcvtpol := v.setWidth 8 }
  else if n = srFactctl then { c with factctl := v.setWidth 10 &&& 0x301 }
  else if n = srFtol then { c with ftol := v.setWidth 36 }
  else if n = srTimecmp then { c with timecmp := v }
  else if n = srTimerctl then { c with timerEn := v.getLsbD 0 }
  else if n = srTvec then { c with tvec := v.setWidth 48 }
  else if n = srHstat then { c with hfail := v.getLsbD 1 }
  else c

/-- MFSR (R144): read at issue. -/
def execMfsr (w : Ins) (s : State) : Host.Outcome State Fault Refusal :=
  let n := w.imm.toNat
  .next (s.issue (.mfsr w) w profileHook [.sys n] (sysPrivilege n) (fun _ => true) fun s st _ =>
    match s.readSys n with
    | none => .trap { cause := causeOperand }
    | some v => .ok s (s.ctx.result st w.dst v) v (latBound w.lat))

/-- MTSR (R144): written at its landing. -/
def execMtsr (w : Ins) (s : State) : Host.Outcome State Fault Refusal :=
  let n := w.imm.toNat
  s.run (.mtsr w) w (sysPrivilege n) fun s st tk =>
    let v := s.srcA st tk w
    if s.ctx.sysWritable n && sysValueOk n v then .ok s [.reg (.sys n) v] 0 (latBound w.lat)
    else .trap { cause := causeOperand }

/-- TRAP (R143). -/
def execTrap (w : Ins) (s : State) : Host.Outcome State Fault Refusal :=
  s.run (.trap w) w noEarly fun _ _ _ => .trap { cause := 0x0E, aux := bits w.imm.toNat 15 0 }

/-- The event an instruction names. -/
def eventOf (w : Ins) : Nat := match w.sa with
  | .e n => n
  | _ => 0

/-- An event instruction acts whatever its predicate says (R22, R129). -/
def eventWord (w : Ins) : Ins := { w with pred := 0 }

/-- The counter holds the count awaited, or the subtraction is done already (R38, R43). -/
def State.eventReady (w : Ins) (s : State) : Bool :=
  let c := s.ctx
  w.imm.toNat ≤ (vget 0 c.events (eventOf w)).toNat ||
    (((c.stream (s.streamOf w)).redo.map (·.awd)).getD false)

/-- POST (R38, R129): its count is added at its landing. -/
def execPost (w : Ins) (s : State) : Host.Outcome State Fault Refusal :=
  s.run (.post w) (eventWord w) noEarly fun s _ _ => .ok s [.post (eventOf w) w.imm.toNat] 0 (latBound w.lat)

/-- AWAIT (R38): waits, and subtracts at its issue. -/
def execAwait (w : Ins) (s : State) : Host.Outcome State Fault Refusal :=
  .next (s.issue (.await w) (eventWord w) profileHook [] noEarly (State.eventReady w) fun s st _ =>
    let c := s.ctx
    let n := eventOf w
    if ((c.stream st).redo.map (·.awd)).getD false then .ok s [] 0 (latBound w.lat)
    else .ok (s.setCtx { c with events := vset c.events n (vget 0 c.events n - BitVec.ofNat 16 w.imm.toNat) }) [] 0 (latBound w.lat))

/-- AWAITP (R38): waits, and subtracts nothing. -/
def execAwaitp (w : Ins) (s : State) : Host.Outcome State Fault Refusal :=
  .next (s.issue (.awaitp w) (eventWord w) profileHook [] noEarly (State.eventReady w) fun s _ _ => .ok s [] 0 (latBound w.lat))

/-- TKSEND (R130): the payload of its pushes is a. -/
def execTksend (w : Ins) (s : State) : Host.Outcome State Fault Refusal :=
  s.run (.tksend w) w noEarly fun s st tk => .ok s [] (s.srcA st tk w) (latBound w.lat)

end Sys2Proof.Machine
end

