-- ==== Sys2Proof/Machine/Sync.lean ====
section
/-! DEFINITION. Guards, fences, publication, instruction-cache flush and CBSYNC (04 R131 to R138; 17 R407). -/

namespace Sys2Proof.Machine

/-- Every store in flight of the running context is performed at core scope (notes/assumptions/11). -/
def State.forceAll (s : State) : State := s.forceStores fun _ => true

/-- Every store of the running context is performed at die scope (R346). -/
def State.forceDie (s : State) : State := s.forceAll.writeBackAll s.focus

/-- The place of a guard (R132, R133), or the trap of a bad one. -/
def State.guardPlace (s : State) (a : Nat) : Except Trap Nat × State :=
  if a % 64 ≠ 0 then (.error { cause := causeSync }, s)
  else match s.translate s.focus s.asn a .write with
    | (.error c, s1) =>
      (.error (if s1.misplaced s1.focus s1.asn a .write then { cause := causeSync } else { cause := c, addr := some a }), s1)
    | (.ok ph, s1) => if ph.attr ≠ 0 then (.error { cause := causeSync }, s1) else (.ok ph.pa, s1)

/-- The context holds a guard (R133). -/
def Ctx.holdsGuard (c : Ctx) (pa : Nat) : Option Held := c.guards.find? fun h => h.pa = pa

/-- Operand-value traps come before translation traps (R112): an address that does not translate names no guard that the context
holds or asks for, unless `known` says that one was acquired by it. -/
def guardTrap (known : Bool) (t : Trap) : Trap := if known then t else { cause := causeSync }

/-- The guard an acquire in flight is for. -/
def Effect.acquires : Effect → Option Nat
  | .command (.acquire _ pa _ _) => some pa
  | .command (.acquired _ pa _ _ _) => some pa
  | _ => none

/-- The guard an acquire in flight has been granted. -/
def Effect.granted : Effect → Option Nat
  | .command (.acquired _ pa _ _ _) => some pa
  | _ => none

/-- Guards the context holds, those granted to it with the acquire still in flight among them (R133). -/
def Ctx.heldCount (c : Ctx) : Nat := c.guards.length + (c.flights.filter fun f => f.eff.granted.isSome).length

/-- The context has been granted a guard, and the acquire has not landed. -/
def Ctx.granted (c : Ctx) (pa : Nat) : Bool := c.flights.any fun f => f.eff.granted = some pa

/-- Acquires of a guard that have issued and not landed (R134). -/
def Ctx.acquiring (c : Ctx) (pa : Nat) : Nat := (c.flights.filter fun f => f.eff.acquires = some pa).length

/-- An acquire by an address has issued and not landed. -/
def Ctx.acquiringAt (c : Ctx) (va : Nat) : Bool := c.flights.any fun f => match f.eff with
  | .command (.acquire a _ _ _) => a = va
  | .command (.acquired a _ _ _ _) => a = va
  | _ => false

/-- Releases of a guard that wait for its grant (R134). -/
def Ctx.releasing (c : Ctx) (pa : Nat) : Nat := (c.flights.filter fun f => match f.eff with
  | .command (.release g) => g = pa
  | _ => false).length

/-- The slot of a guard that holds a base, and the first empty slot, as indices of REGION0 to REGION2 (R131, R132). -/
def regionSlot (g : List Byte) (p : Nat → Nat → Bool) : Option Nat :=
  (List.range 3).find? fun i => p (bytesNat ((g.drop (16 + 16 * i)).take 8)) (bytesNat ((g.drop (24 + 16 * i)).take 8))

/-- BIND (R132): the base is bits 47:0 of b, and a length of 0 leaves the slot it finds all zeros
(notes/assumptions/106). -/
def execBind (w : Ins) (s : State) : Host.Outcome State Fault Refusal :=
  s.run (.bind w) w noEarly fun s st tk =>
    let a := (s.srcA st tk w).toNat
    let b := (s.srcB st tk w).toNat % 2 ^ 48
    let c := (s.srcC st tk w).toNat
    match s.guardPlace a with
    | (.error t, s1) => .trapIn s1 (guardTrap (s1.ctx.guards.any fun h => h.addr = a && h.excl) t)
    | (.ok pa, s1) =>
      match s1.ctx.holdsGuard pa with
      | some ⟨_, _, true⟩ =>
        let g := s1.die.mem.load pa 64
        let slot := (regionSlot g fun base n => base = b && n ≠ 0).orElse fun _ => regionSlot g fun _ n => n = 0
        (match slot with
        | some i =>
          let s2 := (s1.dieWrite (dieBytes (pa + 16 + 16 * i) (natBytes 8 (if c = 0 then 0 else b) ++ natBytes 8 c))).1
          .ok s2 [] 0 (latBound w.lat)
        | none => .trapIn (s1.dieRead pa 64).2 { cause := causeSync })
      | _ => .trapIn s1 { cause := causeSync }

/-- An acquire of a guard (R133): the request joins the order of its home slice; the landing waits for the grant. -/
def State.acquire (s : State) (i : Instr) (w : Ins) (excl : Bool) : Host.Outcome State Fault Refusal :=
  s.run i w noEarly fun s st tk =>
    let a := (s.srcA st tk w).toNat
    if 4 ≤ s.ctx.heldCount then .trap { cause := causeSync }
    else match s.guardPlace a with
    | (.error t, s1) => .trapIn s1 (guardTrap (!(s1.ctx.guards.any fun h => h.addr = a)) t)
    | (.ok pa, s1) =>
      let c := s1.ctx
      if (c.holdsGuard pa).isSome || c.granted pa then .trapIn s1 { cause := causeSync }
      else
        let d := s1.die
        let req : GuardReq := { guard := pa, core := s1.focus, slot := s1.here.running, seq := c.seqNext, excl }
        .ok { s1 with die := { d with guardReqs := d.guardReqs ++ [req] } }
          [.command (.acquire a pa excl (c.target st w.dst))] 0 (latBound w.lat)

/-- ACQ.X (R133). -/
def execAcqX (w : Ins) (s : State) : Host.Outcome State Fault Refusal := s.acquire (.acqX w) w true
/-- ACQ.S (R133). -/
def execAcqS (w : Ins) (s : State) : Host.Outcome State Fault Refusal := s.acquire (.acqS w) w false

/-- STATE of a guard after a grant (R131, R133). -/
def guardGranted (state : Nat) (excl : Bool) : Nat :=
  if excl then (if bit state 31 then state else state + 2 ^ 31) else state / 2 ^ 16 * 2 ^ 16 + (state + 1) % 2 ^ 16
/-- STATE of a guard after a release (R131, R134). -/
def guardReleased (state : Nat) (excl : Bool) : Nat :=
  if excl then (bits state 63 32 + 1) % 2 ^ 32 * 2 ^ 32 + bits state 30 0
  else state / 2 ^ 16 * 2 ^ 16 + (state + 2 ^ 16 - 1) % 2 ^ 16

/-- Release a guard the running context holds (R134, R126): its stores are at die scope by then. -/
def State.releaseGuard (s : State) (h : Held) : State :=
  let s1 := (s.forceDie.dieChange h.pa 8 fun state => guardReleased state h.excl).1
  let c := s1.ctx
  s1.setCtx { c with guards := c.guards.filter fun g => g.pa ≠ h.pa }

/-- REL (R134): one release may wait for each acquire of the guard in flight (notes/assumptions/106). -/
def execRel (w : Ins) (s : State) : Host.Outcome State Fault Refusal :=
  s.run (.rel w) w noEarly fun s st tk =>
    let a := (s.srcA st tk w).toNat
    match s.guardPlace a with
    | (.error t, s1) => .trapIn s1 (guardTrap (s1.ctx.guards.any (fun h => h.addr = a) || s1.ctx.acquiringAt a) t)
    | (.ok pa, s1) =>
      match s1.ctx.holdsGuard pa with
      | some h => .ok (s1.releaseGuard h) [] 0 (latBound w.lat)
      | none =>
        if s1.ctx.releasing pa < s1.ctx.acquiring pa then .ok s1 [.command (.release pa)] 0 (latBound w.lat)
        else .trapIn s1 { cause := causeSync }

/-- A request heads its guard's order and the guard's STATE admits it (R133). -/
def Die.grantable (d : Die) (guard : Nat) : Option GuardReq :=
  match d.guardReqs.find? fun r => r.guard = guard with
  | none => none
  | some r =>
    let state := bytesNat (d.mem.load guard 8)
    if bit state 31 || (r.excl && bits state 15 0 ≠ 0) then none else some r

/-- GUARD_GRANT (R133): the home slice grants the request that heads the order of a guard. -/
def execGuardGrant (guard : Nat) (s : State) : Host.Outcome State Fault Refusal :=
  match s.die.grantable guard with
  | none => .next s
  | some r =>
    let state := s.peek guard 8
    let s2 := (s.dieChange guard 8 fun v => guardGranted v r.excl).1
    let d := s2.die
    let c := s2.ctxAt r.core r.slot
    let c := { c with flights := c.flights.map fun f => match f.eff with
      | .command (.acquire va pa excl dst) =>
        if f.seq = r.seq && pa = guard then
          { f with eff := .command (.acquired va pa excl dst (bits state 63 32)), land := max f.land c.cycle } else f
      | _ => f }
    .next ({ s2 with die := { d with guardReqs := d.guardReqs.erase r } }.setCtxAt r.core r.slot c)

/-- An access to a device register, or a command to an engine of the core or to a retrieval controller (R135, R174). -/
def Effect.engine : Effect → Bool
  | .command (.deviceLoad _ _ _ _) => true
  | .command (.deviceStore _ _ _) => true
  | .command (.xsched _ _) => true
  | .command (.xstage _) => true
  | .command (.ringset _ _) => true
  | .command (.retrieval _ _) => true
  | _ => false

/-- A fence of the stream (Machine/Land.lean) waits, in interlocked mode, for such an operation in flight (R135). -/
def Ctx.fenced (c : Ctx) (st : Nat) : Bool := !c.exposed && c.flights.any fun f => f.stream = st && f.eff.engine

/-- PUBLISH (R136, R407). -/
def execPublish (w : Ins) (s : State) : Host.Outcome State Fault Refusal :=
  s.run (.publish w) w noEarly fun s st _ =>
    match s.host.windows.find? fun p => p.1 = w.imm.toNat with
    | none => .trap { cause := causeOperand }
    | some (n, win) =>
      if win.part ≠ s.asn then .trap { cause := causeOperand }
      else
        let s1 := s.forceDie
        let v := (win.version + 1) % 2 ^ 64
        let h := s1.host
        let s2 := { s1 with host := { h with mem := h.mem.store win.verAddr (natBytes 8 v),
                                             windows := tset h.windows n { win with version := v } } }
        .ok s2 (s2.ctx.result st w.dst (BitVec.ofNat 64 v)) (BitVec.ofNat 64 v) (latBound w.lat)

/-- The cores within a flush's scope (R137). -/
def flushScope (core scope : Nat) (n : Nat) : Bool :=
  match scope with
  | 1 => n = core
  | 2 => clusterOf n = clusterOf core
  | _ => true

/-- Invalidate the captures of an address space that hold a byte of a range: lines, and the bytes fetched ahead of them
(R137, R64). -/
def State.dropCaptures (s : State) (cores : Nat → Bool) (asn lo len : Nat) : State :=
  { s with cores := Vector.ofFn fun (n : Fin 128) =>
      let c := s.core n
      if cores n then
        { c with icache := c.icache.filter fun x => !(x.asn = asn && 128 * x.vline < lo + len && lo < 128 * x.vline + 140) }
      else c }

/-- ICFLUSH (R137): the stores first, then the invalidation at the landing. -/
def execIcflush (w : Ins) (s : State) : Host.Outcome State Fault Refusal :=
  s.run (.icflush w) w noEarly fun s st tk =>
    let scope := w.imm.toNat
    if scope < 1 || 3 < scope then .trap { cause := causeOperand }
    else .ok s.forceDie [.command (.icflush (s.srcA st tk w).toNat (s.srcB st tk w).toNat scope)] 0 (latBound w.lat)

/-- CBSYNC (R138): the model keeps no captured copy of a control block beyond the instruction that read it, so the wait for
the context's stores is its effect. -/
def execCbsync (w : Ins) (s : State) : Host.Outcome State Fault Refusal :=
  s.run (.cbsync w) w noEarly fun s _ _ => .ok s.forceAll [] 0 (latBound w.lat)

end Sys2Proof.Machine
end

