-- ==== Sys2Proof/Machine/Ports.lean ====
section
/-! DEFINITION. Ports and address generators (05 R159 to R165): walks, pops, peeks and pushes. A generator reads on demand at
the pop that needs an entry, and ahead where GENERATOR_READ says so (R164). -/

namespace Sys2Proof.Machine

/-- A plane walk (R159). -/
def Nest.planeWalk (r : Nest) : Bool := bit r.stage 0

/-- Walk elements in one entry of a read port (R161). -/
def Nest.perEntry (r : Nest) : Nat := if r.planeWalk then 1 else 64

/-- Entries of the whole walk (R161). -/
def Nest.entries (r : Nest) : Nat := (r.total + r.perEntry - 1) / r.perEntry

/-- A stride or base is a multiple of an alignment. -/
def alignedTo (n : Nat) (x : Int) : Bool := x % (n : Int) = 0

/-- The checks of PSET on a record (R159). -/
def Nest.genOk (r : Nest) : Bool :=
  let rest := bits r.stage 11 1 = 0 && r.policy = 0 && r.ring = 0 && !r.oob && !r.last && !r.subn && !r.vmask && r.rows = 0 && r.cols = 0
  let vecOk (f base : Nat) (ss : List Int) : Bool :=
    let w := fmtWidth f
    let al := if w % 8 = 0 then w / 8 else 8 * w
    fmtNamed f && f ≠ fmtA36 && baseSpad base && baseOk base && baseAddr base % al = 0 && ss.all (alignedTo al) &&
      (w % 8 = 0 || r.count % 64 = 0)
  if r.op = 0x40 then
    rest && r.dfmt = 0 && r.dbase = 0 && r.dstride.all (· = 0) &&
      (if r.planeWalk then
        fmtNamed r.sfmt && baseSpad r.sbase && baseOk r.sbase && baseAddr r.sbase % 128 = 0 && r.sstride.all (alignedTo 128) &&
          r.count = 1
      else vecOk r.sfmt r.sbase r.sstride)
  else if r.op = 0x41 then
    rest && !r.planeWalk && r.sfmt = 0 && r.sbase = 0 && r.sstride.all (· = 0) && vecOk r.dfmt r.dbase r.dstride
  else false

/-- Entries still to be delivered. -/
def Port.left (p : Port) : Nat :=
  let r := Nest.ofBits p.record
  p.ahead.length + (r.entries - p.next / r.perEntry)

/-- Scratchpad bytes of a context as an engine reads them (R172). -/
def State.spadView (s : State) (c : Ctx) : Nat → Nat → List Byte := fun off n => s.spadRead s.focus (c.spbase + off) n

/-- An address of a walk lies in the grant: the offset of the first byte outside otherwise (R158). -/
def spanOut (lim : Nat) (a : Int) (n : Nat) : Option Nat :=
  if 0 ≤ a && a + n ≤ lim then none else some (if a < 0 then wrapInt a 64 else a.toNat)

/-- One stored element of a GREAD vector walk (R161). -/
def walkElement (mem : Nat → Nat → List Byte) (lim : Nat) (r : Nest) (n : Nat) : Except WalkFault Nat :=
  let w := fmtWidth r.sfmt
  let (a, e) := r.srcAt n
  let b := elemByte a w e
  match spanOut lim b (elemBytes w e) with
  | some off => .error ⟨causeData, off, 0⟩
  | none => .ok (elemOf w e (mem b.toNat (elemBytes w e)))

/-- Elements `n` to `n + k - 1` of a walk. -/
def walkElements (mem : Nat → Nat → List Byte) (lim : Nat) (r : Nest) : Nat → Nat → Except WalkFault (List Nat)
  | 0, _ => .ok []
  | k + 1, n =>
    match walkElement mem lim r n with
    | .error f => .error f
    | .ok v =>
      match walkElements mem lim r k (n + 1) with
      | .error f => .error f
      | .ok vs => .ok (v :: vs)

/-- The next entry of a read walk (R161). -/
def readEntry (mem : Nat → Nat → List Byte) (lim : Nat) (r : Nest) (next : Nat) : Except WalkFault PortEntry :=
  if r.planeWalk then
    let a := (r.srcAt next).1
    if a < 0 then .error ⟨causeData, wrapInt a 64, 0⟩
    else match tileDecode mem a.toNat lim r.sfmt with
      | .error f => .error f
      | .ok rows => .ok (.tile rows)
  else
    match walkElements mem lim r (min 64 (r.total - next)) next with
    | .error f => .error f
    | .ok vs => .ok (.lanes (Vector.ofFn fun (j : Fin 64) => if j.val < vs.length then laneForm r.sfmt (vs.getD j.val 0) else 0))

/-- The generator of a port reads entries ahead until it holds `k`, or its walk ends or stops (R162, R164). -/
def Port.fill (mem : Nat → Nat → List Byte) (lim k : Nat) (p : Port) : Nat → Port
  | 0 => p
  | fuel + 1 =>
    let r := Nest.ofBits p.record
    if p.state ≠ .read || k ≤ p.ahead.length || r.total ≤ p.next then p
    else match readEntry mem lim r p.next with
      | .error f => { p with state := .stopped f.cause f.addr f.aux }
      | .ok e => Port.fill mem lim k { p with ahead := p.ahead ++ [e], next := p.next + r.perEntry } fuel

def Ctx.port (c : Ctx) (n : Nat) : Port := vget Port.reset c.ports n
def Ctx.setPort (c : Ctx) (n : Nat) (p : Port) : Ctx := { c with ports := vset c.ports n p }

/-- Bytes of the compressed tile at a scratchpad offset: header, table and its own sectors (R154). -/
def State.tileLen (s : State) (t : Nat) (fmt : Nat) : Nat :=
  128 * (fmtWidth fmt + 1) + 16 * bytesNat (s.spadRead s.focus (s.ctx.spbase + t + 4) 4)

/-- The spans of the scratchpad that entry `next` of a read walk takes (R161). -/
def State.entrySpans (s : State) (r : Nest) (next : Nat) : List (Nat × Nat) :=
  if r.planeWalk then [((r.srcAt next).1.toNat, s.tileLen (r.srcAt next).1.toNat r.sfmt)]
  else
    let w := fmtWidth r.sfmt
    (((List.range (min 64 (r.total - next))).map fun i =>
      let (a, e) := r.srcAt (next + i)
      (elemByte a w e).toNat / 128).eraseDups).map fun row => (128 * row, 1)

/-- The generator of port `n` holds `k` entries if its walk can give them. -/
def State.fillPort (s : State) (n k : Nat) : State :=
  let c := s.ctx
  let p := c.port n
  let r := Nest.ofBits p.record
  let q := p.fill (s.spadView c) c.spadLimit k k
  let read := (List.range (q.ahead.length - p.ahead.length)).flatMap fun i => s.entrySpans r (p.next + i * r.perEntry)
  s.setCtx ((c.setPort n q).askBanks p.gen read)

/-- Sources by slot: 0 SA, 1 SB, 2 SC. -/
def sourceAt (w : Ins) : Nat → Operand
  | 0 => w.sa
  | 1 => w.sb
  | _ => w.sc

/-- The port a source names, and whether it pops (R162). -/
def operandPort : Operand → Option (Nat × Bool)
  | .p n => some (n, true)
  | .pk n => some (n, false)
  | _ => none

/-- Which entry of its port a slot reads: pops of earlier slots come first, a peek reads the head (R162). -/
def portIndex (w : Ins) (slot : Nat) : Nat :=
  match operandPort (sourceAt w slot) with
  | some (n, true) => ((List.range slot).filter fun i => operandPort (sourceAt w i) = some (n, true)).length
  | _ => 0

/-- Pops of a port by an instruction. -/
def portPops (w : Ins) (n : Nat) : Nat := ((List.range 3).filter fun i => operandPort (sourceAt w i) = some (n, true)).length

/-- Entries a port must hold for an instruction. -/
def portNeed (w : Ins) (n : Nat) : Nat :=
  (List.range 3).foldl (fun k i => match operandPort (sourceAt w i) with
    | some (m, _) => if m = n then max k (portIndex w i + 1) else k
    | none => k) 0

/-- A port bound to a walk of the other kind (R161, R219): `plane` says which walks suit. -/
def Ctx.portKind (c : Ctx) (w : Ins) (plane : Bool) (slot : Nat) : Option Trap :=
  match operandPort (sourceAt w slot) with
  | none => none
  | some (n, _) =>
    let p := c.port n
    let r := Nest.ofBits p.record
    if p.state ≠ .unbound && r.planeWalk ≠ plane then some { cause := causeOperandBad } else none

/-- PORT-EXHAUSTED of a slot (R162). -/
def Ctx.portSpent (c : Ctx) (w : Ins) (slot : Nat) : Option Trap :=
  match operandPort (sourceAt w slot) with
  | none => none
  | some (n, _) =>
    let p := c.port n
    if p.state = .unbound || p.state = .write || p.state = .ended || (Nest.ofBits p.record).op ≠ 0x40 || p.left < portNeed w n
    then some { cause := causePort } else none

/-- The fault at which the walk a slot needs has stopped, after its generator has read what it can (R162). -/
def Ctx.portStopped (c : Ctx) (w : Ins) (slot : Nat) : Option Trap :=
  match operandPort (sourceAt w slot) with
  | none => none
  | some (n, _) =>
    let p := c.port n
    if portNeed w n ≤ p.ahead.length then none
    else match p.state with
      | .stopped cause addr aux => some { cause, aux, addr := some addr }
      | _ => some { cause := causePort }

/-- Have the generators read what an instruction needs (R162). -/
def State.readAhead (s : State) (w : Ins) : State :=
  (List.range 8).foldl (fun s n => if portNeed w n = 0 then s else s.fillPort n (portNeed w n)) s

/-- The first trap of the ports' kinds, and of their entries (R161, R162). -/
def Ctx.portsBefore (c : Ctx) (w : Ins) (plane : Bool) : Option Trap :=
  ((List.range 3).findSome? (c.portKind w plane)).orElse fun _ => (List.range 3).findSome? (c.portSpent w)

/-- The ports an instruction reads are filled; the trap of the first slot that has one. -/
def State.fillPorts (s : State) (w : Ins) (plane : Bool) : Option Trap × State :=
  match s.ctx.portsBefore w plane with
  | some t => (some t, s)
  | none =>
    let s1 := s.readAhead w
    ((List.range 3).findSome? (s1.ctx.portStopped w), s1)

/-- A port after its pops: ended when it has delivered everything (R162, R281). -/
def Port.pop (p : Port) (k : Nat) : Port :=
  let q := { p with ahead := p.ahead.drop k }
  if p.state = .read && q.left = 0 then { q with state := .ended } else q

/-- The pops of an issued instruction (R162). -/
def State.popPorts (s : State) (w : Ins) : State :=
  let c := s.ctx
  s.setCtx ((List.range 8).foldl (fun c n => if portPops w n = 0 then c else c.setPort n ((c.port n).pop (portPops w n))) c)

/-- The lanes a port slot reads. -/
def Ctx.portLanes (c : Ctx) (w : Ins) (slot : Nat) : Vector Lane 64 :=
  match operandPort (sourceAt w slot) with
  | some (n, _) => (match (c.port n).ahead[portIndex w slot]? with
      | some (.lanes v) => v
      | _ => Vector.replicate 64 0)
  | none => Vector.replicate 64 0

/-- The tile a port slot reads, flat (R161). -/
def Ctx.portTile (c : Ctx) (w : Ins) (slot : Nat) : List Nat :=
  match operandPort (sourceAt w slot) with
  | some (n, _) => (match (c.port n).ahead[portIndex w slot]? with
      | some (.tile rows) => rows
      | _ => [])
  | none => []

/-- The format tag of a bound read port (R162). -/
def Ctx.portTag (c : Ctx) (n : Nat) : Option Nat :=
  let p := c.port n
  let r := Nest.ofBits p.record
  if p.state = .unbound || r.op ≠ 0x40 then none else some r.sfmt

/-- A port with a new walk (R160). -/
def Port.bound (gen : Nat) (record : BitVec 512) : Port :=
  let r := Nest.ofBits record
  { state := if r.total = 0 then .ended else if r.op = 0x41 then .write else .read, gen, record, next := 0, ahead := [] }

/-- Bind a port and a generator: earlier walks of either end (R160, R203). -/
def Ctx.bindPort (c : Ctx) (n gen : Nat) (record : BitVec 512) : Ctx :=
  let ports := c.ports.map fun p => if p.state ≠ .unbound && p.gen = gen then Port.reset else p
  { c with ports := vset ports n (Port.bound gen record) }

/-- Cells that follow each other in one byte are one cell, the later bits prevailing. -/
def joinCells : List StoreCell → List StoreCell
  | [] => []
  | x :: xs => match joinCells xs with
    | y :: ys =>
      if y.va = x.va then { y with val := (x.val &&& ~~~y.mask) ||| (y.val &&& y.mask), mask := x.mask ||| y.mask } :: ys
      else x :: y :: ys
    | [] => [x]

/-- The cells a push of lanes writes (R163): element by element in walk order, `mask` naming the enabled lanes; the first
enabled element outside the grant is answered instead. A disabled element's cells have empty masks (R274). -/
def pushCells (c : Ctx) (r : Nest) (next : Nat) (lanes : Vector Lane 64) (mask : Word) : Except Nat (List StoreCell) :=
  let w := fmtWidth r.dfmt
  (List.range (min 64 (r.total - next))).foldl (fun acc j => match acc with
    | .error a => .error a
    | .ok cs =>
      let (a, e) := r.dstAt (next + j)
      let b := elemByte a w e
      let cells := elemCells w e (laneBits r.dfmt (vget 0 lanes j))
      match spanOut c.spadLimit b (elemBytes w e), mask.getLsbD j with
      | some off, true => .error off
      | some _, false => .ok cs
      | none, on => .ok (cs ++ c.spadCells b.toNat (if on then cells else cells.map fun x => (x.1, 0)))) (.ok [])

/-- PSET (R203): the record is captured and checked at issue, the binding takes effect at the landing. -/
def execPset (w : Ins) (s : State) : Host.Outcome State Fault Refusal :=
  s.run (.pset w) w noEarly fun s _ _ =>
    match w.sa, w.sb, w.sc with
    | .p p, .g g, .n k =>
      let record := s.readNest k 4
      if (Nest.ofBits record).genOk then .ok s [.command (.bindPort p g record)] 0 (latBound w.lat)
      else .trap { cause := causeOperandBad }
    | _, _, _ => .ok s [] 0 (latBound w.lat)

end Sys2Proof.Machine
end

