-- ==== Sys2Proof/Machine/Vector.lean ====
section
/-! DEFINITION. Vector arithmetic, comparisons, moves, masks, reductions and conversion (06 R177 to R194, R202; 03 R105, R109). -/

namespace Sys2Proof.Machine

def causeFormat : Nat := 0x08

/-- FORMAT-MISMATCH of a slot (R94, R270). -/
def tagTrap (slot expected found : Nat) : Trap := { cause := causeFormat, aux := slot * 2 ^ 16 + expected * 2 ^ 8 + found }

/-- The tag of a vector or port source (R162, R180); other operands carry none. -/
def Ctx.tagOf (c : Ctx) : Operand → Option Nat
  | .v n => some (c.vreg n).tag.toNat
  | .p n => c.portTag n
  | .pk n => c.portTag n
  | _ => none

/-- The check of one slot (R94). -/
def Ctx.slotCheck (c : Ctx) (w : Ins) (slot expected : Nat) : Option Trap :=
  match c.tagOf (sourceAt w slot) with
  | some t => if t = expected && fmtNamed t then none else some (tagTrap slot expected t)
  | none => none

/-- The checks of R94 on slots with their expected formats, in order. The first that mismatches is
recorded (notes/assumptions/111). -/
def Ctx.fmtCheck (c : Ctx) (w : Ins) (slots : List (Nat × Nat)) : Option Trap := slots.findSome? fun p => c.slotCheck w p.1 p.2

/-- FMT of an instruction as a number. -/
def fmtOf (w : Ins) : Nat := w.fmt.toNat

/-- Every vector and port source against FMT (R180). -/
def fmtAll (w : Ins) : List (Nat × Nat) := [(0, fmtOf w), (1, fmtOf w), (2, fmtOf w)]

/-- Rounding mode of an instruction (R183). -/
def rmOf (w : Ins) : Nat := w.mod.toNat

/-- Subnormals are honoured in interlocked mode (R183). -/
def Ctx.subn (c : Ctx) : Bool := !c.exposed

/-- The number of the vector destination. -/
def vdst (w : Ins) : Nat := match w.dst with
  | .v n => n
  | _ => 0

/-- The tag of a vector register, changed at issue (R20, R180). -/
def Ctx.setTag (c : Ctx) (n : Nat) (t : BitVec 6) : Ctx := { c with v := vset c.v n { c.vreg n with tag := t } }

/-- The lanes a source gives: a register, a port entry or a broadcast (R179). -/
def State.laneSrc (s : State) (st : Nat) (tk : Word) (w : Ins) (slot : Nat) : Vector Lane 64 :=
  match sourceAt w slot with
  | .v n => s.readLanes n slot
  | .p _ => s.ctx.portLanes w slot
  | .pk _ => s.ctx.portLanes w slot
  | o => Vector.replicate 64 (laneForm (fmtOf w) ((s.srcWord st tk w slot o).toNat % 2 ^ fmtWidth (fmtOf w)))

/-- A FMT of A36 is refused whatever the tags are: no tag can be A36, so that the check of tags would else hide it (R180, R230;
notes/assumptions/111). -/
def unlessA36 (w : Ins) (check : Option Trap) : Option Trap := if fmtOf w = fmtA36 then none else check

/-- The issue of a vector instruction: A36 refused whatever the tags, format checks, ports filled, the body, then the pops (R162, R180). -/
def State.vector (s : State) (i : Instr) (w : Ins) (slots : List (Nat × Nat)) (extra : List Res)
    (body : State → Nat → Word → IssueRes) : Host.Outcome State Fault Refusal :=
  .next (s.issue i w profileHook extra (fun s => unlessA36 w (s.ctx.fmtCheck w slots))
    (fun _ => true) fun s st tk =>
    if fmtOf w = fmtA36 then .trap { cause := causeOperandBad }
    else match s.fillPorts w false with
      | (some t, s1) => .trapIn s1 t
      | (none, s1) =>
        match body s1 st tk with
        | .ok s2 effs pay lat => .ok (s2.popPorts w) effs pay lat
        | r => r)

/-- Payload of a vector result: lanes 1 and 0 (R182). -/
def lanePayload (v : Vector Lane 64) : Word := vget 0 v 1 ++ vget 0 v 0

/-- A vector result: the tag at issue, the enabled lanes at the landing (R20, R181). -/
def State.vecResult (s : State) (w : Ins) (lanes : Vector Lane 64) (mask : Word) : IssueRes :=
  let n := vdst w
  .ok (s.setCtx (s.ctx.setTag n w.fmt)) [.vec n lanes mask] (lanePayload lanes) (latBound w.lat)

/-- A lane operation on stored bits: FMT, rounding, subn and three operands. -/
abbrev LaneOp := Nat → Nat → Bool → Nat → Nat → Nat → Nat

/-- Lanes of an operation on the sources (R184, R185). -/
def State.laneMap (s : State) (st : Nat) (tk : Word) (w : Ins) (op : LaneOp) : Vector Lane 64 :=
  let f := fmtOf w
  let a := s.laneSrc st tk w 0
  let b := s.laneSrc st tk w 1
  let c := s.laneSrc st tk w 2
  let subn := s.ctx.subn
  Vector.ofFn fun (j : Fin 64) => laneForm f (op f (rmOf w) subn (laneBits f a[j]) (laneBits f b[j]) (laneBits f (vget 0 c j)))

/-- A lane-wise instruction (R184 to R187). -/
def State.lanewise (s : State) (i : Instr) (w : Ins) (op : LaneOp) : Host.Outcome State Fault Refusal :=
  s.vector i w (fmtAll w) [] fun s st tk => s.vecResult w (s.laneMap st tk w op) (s.lanePred w)

/-- The integer a lane holds in a format of class I (R184). -/
def intVal (f b : Nat) : Int := match fmtKind f with
  | .sint w => signExtend b w
  | _ => (b : Int)
/-- Bits of an integer result (R184). -/
def intBits (f : Nat) (y : Int) : Nat := wrapInt y (fmtWidth f)
/-- Bounds of the format's range (R184). -/
def intLo (f : Nat) : Int := match fmtKind f with
  | .sint w => -((2 ^ (w - 1) : Nat) : Int)
  | _ => 0
def intHi (f : Nat) : Int := match fmtKind f with
  | .sint w => ((2 ^ (w - 1) - 1 : Nat) : Int)
  | k => ((2 ^ k.width - 1 : Nat) : Int)

/-- An operation by class: integers, or values. -/
def byClass (int : Nat → Int → Int → Int) (val : Nat → Nat → Bool → Val → Val → Nat) : LaneOp := fun f rm subn a b _ =>
  if fmtClassI f then intBits f (int f (intVal f a) (intVal f b))
  else val f rm subn (decodeValue a f subn) (decodeValue b f subn)

/-- A value with its sign inverted, NaN as it is. -/
def flip (v : Val) : Val := if v.cls = .nan then v else v.negate

def opAdd : LaneOp := byClass (fun _ a b => a + b) fun f rm subn a b => addVals a b f rm subn
def opSub : LaneOp := byClass (fun _ a b => a - b) fun f rm subn a b => addVals a (flip b) f rm subn
def opMul : LaneOp := byClass (fun _ a b => a * b) fun f rm subn a b => encodeVal (mulVal a b) f rm subn
def opFma (neg : Bool) : LaneOp := fun f rm subn a b c =>
  fmaBits (decodeValue a f subn) (decodeValue b f subn) (decodeValue c f subn) neg f rm subn
/-- The smaller or larger value as decoded (R187). -/
def pickVal (f : Nat) (subn : Bool) (a b : Val) (first : Bool) : Nat :=
  if a.cls = .nan || b.cls = .nan then nanBits f else encodeVal (if first then a else b) f 0 subn
def opMin : LaneOp := byClass (fun _ a b => if b < a then b else a) fun f _ subn a b => pickVal f subn a b (!valLt b a)
def opMax : LaneOp := byClass (fun _ a b => if a < b then b else a) fun f _ subn a b => pickVal f subn a b (!valLt a b)
/-- Two's complement of a tapered word (R187). -/
def taperNeg (f b : Nat) : Nat := (2 ^ fmtWidth f - b) % 2 ^ fmtWidth f
def opAbs : LaneOp := fun f _ subn a _ _ =>
  if fmtClassI f then intBits f (intVal f a).natAbs
  else if fmtClassT f then (if bit a (fmtWidth f - 1) then taperNeg f a else a)
  else
    let v := decodeValue a f subn
    encodeVal { v with s := false } f 0 subn
def opNeg : LaneOp := fun f _ subn a _ _ =>
  if fmtClassI f then intBits f (-intVal f a)
  else if fmtClassT f then taperNeg f a
  else encodeVal (flip (decodeValue a f subn)) f 0 subn
/-- Clamp to the range of a format (R184). -/
def clampInt (f : Nat) (y : Int) : Int := min (max y (intLo f)) (intHi f)
def opAdds : LaneOp := fun f _ _ a b _ => intBits f (clampInt f (intVal f a + intVal f b))
def opSubs : LaneOp := fun f _ _ a b _ => intBits f (clampInt f (intVal f a - intVal f b))
def opMulh : LaneOp := fun f _ _ a b _ => intBits f (intVal f a * intVal f b / ((2 ^ fmtWidth f : Nat) : Int))
/-- One operand through the value domain (R185). -/
def unary (g : Val → Val) : LaneOp := fun f rm subn a _ _ => encodeVal (g (decodeValue a f subn)) f rm subn
def opDiv : LaneOp := fun f rm subn a b _ => encodeVal (divVal (decodeValue a f subn) (decodeValue b f subn)) f rm subn
/-- Shifts: zero at or past the width (R184). -/
def opShl : LaneOp := fun f _ _ a b _ => if fmtWidth f ≤ b then 0 else a * 2 ^ b % 2 ^ fmtWidth f
def opShrl : LaneOp := fun f _ _ a b _ => if fmtWidth f ≤ b then 0 else a / 2 ^ b
def opShra : LaneOp := fun f _ _ a b _ =>
  intBits f (if fmtWidth f ≤ b then (if intVal f a < 0 then -1 else 0) else intVal f a / ((2 ^ b : Nat) : Int))

/-- VADD (R184, R185). -/
def execVadd (w : Ins) (s : State) : Host.Outcome State Fault Refusal := s.lanewise (.vadd w) w opAdd
/-- VSUB (R184, R185). -/
def execVsub (w : Ins) (s : State) : Host.Outcome State Fault Refusal := s.lanewise (.vsub w) w opSub
/-- VMUL (R184, R185). -/
def execVmul (w : Ins) (s : State) : Host.Outcome State Fault Refusal := s.lanewise (.vmul w) w opMul
/-- VFMA (R185). -/
def execVfma (w : Ins) (s : State) : Host.Outcome State Fault Refusal := s.lanewise (.vfma w) w (opFma false)
/-- VFMS (R185). -/
def execVfms (w : Ins) (s : State) : Host.Outcome State Fault Refusal := s.lanewise (.vfms w) w (opFma true)
/-- VMIN (R184, R187). -/
def execVmin (w : Ins) (s : State) : Host.Outcome State Fault Refusal := s.lanewise (.vmin w) w opMin
/-- VMAX (R184, R187). -/
def execVmax (w : Ins) (s : State) : Host.Outcome State Fault Refusal := s.lanewise (.vmax w) w opMax
/-- VABS (R184, R187). -/
def execVabs (w : Ins) (s : State) : Host.Outcome State Fault Refusal := s.lanewise (.vabs w) w opAbs
/-- VNEG (R184, R187). -/
def execVneg (w : Ins) (s : State) : Host.Outcome State Fault Refusal := s.lanewise (.vneg w) w opNeg
/-- VADDS (R184). -/
def execVadds (w : Ins) (s : State) : Host.Outcome State Fault Refusal := s.lanewise (.vadds w) w opAdds
/-- VSUBS (R184). -/
def execVsubs (w : Ins) (s : State) : Host.Outcome State Fault Refusal := s.lanewise (.vsubs w) w opSubs
/-- VMULH (R184). -/
def execVmulh (w : Ins) (s : State) : Host.Outcome State Fault Refusal := s.lanewise (.vmulh w) w opMulh
/-- VDIV (R185). -/
def execVdiv (w : Ins) (s : State) : Host.Outcome State Fault Refusal := s.lanewise (.vdiv w) w opDiv
/-- VSQRT (R185). -/
def execVsqrt (w : Ins) (s : State) : Host.Outcome State Fault Refusal := s.lanewise (.vsqrt w) w (unary sqrtVal)
/-- VRCP (R185): one divided by the lane. -/
def execVrcp (w : Ins) (s : State) : Host.Outcome State Fault Refusal :=
  s.lanewise (.vrcp w) w (unary fun a => divVal ⟨.num, false, 1, 0⟩ a)
/-- VRSQ (R185). -/
def execVrsq (w : Ins) (s : State) : Host.Outcome State Fault Refusal := s.lanewise (.vrsq w) w (unary rsqrtVal)
/-- VEXP2 (R185). -/
def execVexp2 (w : Ins) (s : State) : Host.Outcome State Fault Refusal := s.lanewise (.vexp2 w) w (unary exp2Val)
/-- VLOG2 (R185). -/
def execVlog2 (w : Ins) (s : State) : Host.Outcome State Fault Refusal := s.lanewise (.vlog2 w) w (unary log2Val)
/-- VAND (R184). -/
def execVand (w : Ins) (s : State) : Host.Outcome State Fault Refusal := s.lanewise (.vand w) w fun _ _ _ a b _ => a &&& b
/-- VOR (R184). -/
def execVor (w : Ins) (s : State) : Host.Outcome State Fault Refusal := s.lanewise (.vor w) w fun _ _ _ a b _ => a ||| b
/-- VXOR (R184). -/
def execVxor (w : Ins) (s : State) : Host.Outcome State Fault Refusal := s.lanewise (.vxor w) w fun _ _ _ a b _ => a ^^^ b
/-- VSHL (R184). -/
def execVshl (w : Ins) (s : State) : Host.Outcome State Fault Refusal := s.lanewise (.vshl w) w opShl
/-- VSHRL (R184). -/
def execVshrl (w : Ins) (s : State) : Host.Outcome State Fault Refusal := s.lanewise (.vshrl w) w opShrl
/-- VSHRA (R184). -/
def execVshra (w : Ins) (s : State) : Host.Outcome State Fault Refusal := s.lanewise (.vshra w) w opShra

/-- The mask an operand names (R177). -/
def State.maskSrc (s : State) (st slot : Nat) : Operand → Word
  | .k n => s.readMask st n slot
  | _ => 0

/-- A mask result (R188, R192): the bits a mask names take the value. -/
def maskResult (w : Ins) (v mask : Word) : List Effect :=
  match w.dst with
  | .k n => [.kreg n v mask]
  | _ => []

/-- VSEL (R190). -/
def execVsel (w : Ins) (s : State) : Host.Outcome State Fault Refusal :=
  s.vector (.vsel w) w [(0, fmtOf w), (1, fmtOf w)] [] fun s st tk =>
    let a := s.laneSrc st tk w 0
    let b := s.laneSrc st tk w 1
    let k := s.maskSrc st 2 w.sc
    s.vecResult w (Vector.ofFn fun (j : Fin 64) =>
      laneForm (fmtOf w) (laneBits (fmtOf w) (if k.getLsbD j then a[j] else b[j]))) (s.lanePred w)

/-- A comparison (R188): bits of disabled lanes are 0. -/
def State.vcompare (s : State) (i : Instr) (w : Ins) (int : Int → Int → Bool) (val : Val → Val → Bool) :
    Host.Outcome State Fault Refusal :=
  s.vector i w (fmtAll w) [] fun s st tk =>
    let f := fmtOf w
    let a := s.laneSrc st tk w 0
    let b := s.laneSrc st tk w 1
    let p := s.lanePred w
    let subn := s.ctx.subn
    let v := maskOf fun j => p.getLsbD j &&
      (let x := laneBits f (vget 0 a j)
       let y := laneBits f (vget 0 b j)
       if fmtClassI f then int (intVal f x) (intVal f y) else val (decodeValue x f subn) (decodeValue y f subn))
    .ok s (maskResult w v (BitVec.allOnes 64)) v (latBound w.lat)

/-- VCMPEQ (R188). -/
def execVcmpeq (w : Ins) (s : State) : Host.Outcome State Fault Refusal := s.vcompare (.vcmpeq w) w (fun a b => a = b) valEq
/-- VCMPNE (R188): true of a NaN or NaR. -/
def execVcmpne (w : Ins) (s : State) : Host.Outcome State Fault Refusal :=
  s.vcompare (.vcmpne w) w (fun a b => a ≠ b) fun a b => !valEq a b
/-- VCMPLT (R188). -/
def execVcmplt (w : Ins) (s : State) : Host.Outcome State Fault Refusal :=
  s.vcompare (.vcmplt w) w (fun a b => a < b) fun a b => a.cls ≠ .nan && b.cls ≠ .nan && valBelow a b
/-- VCMPLE (R188). -/
def execVcmple (w : Ins) (s : State) : Host.Outcome State Fault Refusal :=
  s.vcompare (.vcmple w) w (fun a b => a ≤ b) fun a b => a.cls ≠ .nan && b.cls ≠ .nan && (valBelow a b || valEq a b)

/-- The class of stored bits (R189), read from the encoding. -/
def classOf (f b : Nat) : Nat :=
  match fmtKind f with
  | .tapered w _ => if b = 0 then 5 else if b = 2 ^ (w - 1) then 0 else if bit b (w - 1) then 2 else 7
  | .ieee eb fb =>
    let s := bit b (eb + fb)
    let ex := b / 2 ^ fb % 2 ^ eb
    let fr := b % 2 ^ fb
    if ex = 2 ^ eb - 1 then (if fr ≠ 0 then 0 else if s then 1 else 8)
    else if ex = 0 then (if fr = 0 then (if s then 4 else 5) else if s then 3 else 6)
    else if s then 2 else 7
  | _ => 7

/-- VCLASS (R189). -/
def execVclass (w : Ins) (s : State) : Host.Outcome State Fault Refusal :=
  s.vector (.vclass w) w (fmtAll w) [] fun s st tk =>
    let f := fmtOf w
    let a := s.laneSrc st tk w 0
    let p := s.lanePred w
    let v := maskOf fun j => p.getLsbD j && w.imm.getLsbD (classOf f (laneBits f (vget 0 a j)))
    .ok s (maskResult w v (BitVec.allOnes 64)) v (latBound w.lat)

/-- VMOV (R190). -/
def execVmov (w : Ins) (s : State) : Host.Outcome State Fault Refusal := s.lanewise (.vmov w) w fun _ _ _ a _ _ => a

/-- VBCAST (R190): SB is a scalar. -/
def execVbcast (w : Ins) (s : State) : Host.Outcome State Fault Refusal := s.lanewise (.vbcast w) w fun _ _ _ _ b _ => b

/-- VEXTR (R190). -/
def execVextr (w : Ins) (s : State) : Host.Outcome State Fault Refusal :=
  s.vector (.vextr w) w [(0, fmtOf w)] [] fun s st tk =>
    let n := (s.srcB st tk w).toNat
    if 63 < n then .trap { cause := causeOperandBad }
    else
      let l := laneForm (fmtOf w) (laneBits (fmtOf w) (vget 0 (s.laneSrc st tk w 0) n))
      let v : Word := match fmtKind (fmtOf w) with
        | .sint _ => l.signExtend 64
        | _ => l.setWidth 64
      if (s.lanePred w).getLsbD n then .ok s (s.ctx.result st w.dst v) v (latBound w.lat)
      else .ok s [] 0 (latBound w.lat)

/-- VINS (R190): reads vd, so its tag must be FMT (slot 3). -/
def execVins (w : Ins) (s : State) : Host.Outcome State Fault Refusal :=
  .next (s.issue (.vins w) w profileHook [.v (vdst w)]
    (fun s =>
      let t := (s.ctx.vreg (vdst w)).tag.toNat
      unlessA36 w (if t = fmtOf w && fmtNamed t then none else some (tagTrap 3 (fmtOf w) t)))
    (fun _ => true)
    fun s st tk =>
      let f := fmtOf w
      let n := (s.srcB st tk w).toNat
      if f = fmtA36 || 63 < n then .trap { cause := causeOperandBad }
      else
        s.vecResult w (Vector.replicate 64 (laneForm f ((s.srcA st tk w).toNat % 2 ^ fmtWidth f)))
          (s.lanePred w &&& BitVec.twoPow 64 n))

/-- The lanes a mask selects, in order (R191). -/
def packLanes (v : Vector Lane 64) (k : Word) : List Lane :=
  (List.range 64).filterMap fun j => if k.getLsbD j then some (vget 0 v j) else none

/-- Selected lanes below `j` (R191). -/
def countBelow (k : Word) (j : Nat) : Nat := ((List.range j).filter fun i => k.getLsbD i).length

/-- VCOMP (R191). -/
def execVcomp (w : Ins) (s : State) : Host.Outcome State Fault Refusal :=
  s.vector (.vcomp w) w [(0, fmtOf w)] [] fun s st tk =>
    let t := packLanes (s.laneSrc st tk w 0) (s.maskSrc st 1 w.sb)
    s.vecResult w (Vector.ofFn fun (j : Fin 64) => laneForm (fmtOf w) (laneBits (fmtOf w) (t.getD j 0))) (BitVec.allOnes 64)

/-- VEXPD (R191). -/
def execVexpd (w : Ins) (s : State) : Host.Outcome State Fault Refusal :=
  s.vector (.vexpd w) w [(0, fmtOf w)] [] fun s st tk =>
    let a := s.laneSrc st tk w 0
    let k := s.maskSrc st 1 w.sb
    let f := fmtOf w
    s.vecResult w (Vector.ofFn fun (j : Fin 64) =>
      if k.getLsbD j then laneForm f (laneBits f (vget 0 a (countBelow k j))) else 0) (BitVec.allOnes 64)

/-- VPERM (R191): vb is tagged S32. -/
def execVperm (w : Ins) (s : State) : Host.Outcome State Fault Refusal :=
  s.vector (.vperm w) w [(0, fmtOf w), (1, fmtS32)] [] fun s st tk =>
    let a := s.laneSrc st tk w 0
    let b := s.laneSrc st tk w 1
    let f := fmtOf w
    s.vecResult w (Vector.ofFn fun (j : Fin 64) => laneForm f (laneBits f (vget 0 a ((b[j]).toNat % 64)))) (s.lanePred w)

/-- VIOTA (R191). -/
def execViota (w : Ins) (s : State) : Host.Outcome State Fault Refusal :=
  s.vector (.viota w) w [] [] fun s st _ =>
    let k := s.maskSrc st 0 w.sa
    let f := fmtOf w
    s.vecResult w (Vector.ofFn fun (j : Fin 64) => laneForm f (countBelow k j % 2 ^ fmtWidth f)) (s.lanePred w)

/-- A mask instruction (R192): disabled bits keep their value. -/
def State.maskOp (s : State) (i : Instr) (w : Ins) (f : Word → Word → Word) : Host.Outcome State Fault Refusal :=
  s.run i w noEarly fun s st _ =>
    let v := f (s.maskSrc st 0 w.sa) (s.maskSrc st 1 w.sb)
    .ok s (maskResult w v (s.lanePred w)) v (latBound w.lat)

/-- KAND (R192). -/
def execKand (w : Ins) (s : State) : Host.Outcome State Fault Refusal := s.maskOp (.kand w) w fun a b => a &&& b
/-- KOR (R192). -/
def execKor (w : Ins) (s : State) : Host.Outcome State Fault Refusal := s.maskOp (.kor w) w fun a b => a ||| b
/-- KXOR (R192). -/
def execKxor (w : Ins) (s : State) : Host.Outcome State Fault Refusal := s.maskOp (.kxor w) w fun a b => a ^^^ b
/-- KNOT (R192). -/
def execKnot (w : Ins) (s : State) : Host.Outcome State Fault Refusal := s.maskOp (.knot w) w fun a _ => ~~~a

/-- KMOV (R192): a mask, a scalar into a mask, or a mask into a scalar. -/
def execKmov (w : Ins) (s : State) : Host.Outcome State Fault Refusal :=
  s.run (.kmov w) w noEarly fun s st tk =>
    let v := match w.sa with
      | .k n => s.readMask st n 0
      | _ => s.srcA st tk w
    .ok s (maskResult w v (s.lanePred w) ++ s.ctx.result st w.dst v) v (latBound w.lat)

/-- KPOP (R192). -/
def execKpop (w : Ins) (s : State) : Host.Outcome State Fault Refusal :=
  s.run (.kpop w) w noEarly fun s st _ =>
    let v := BitVec.ofNat 64 (countOnes (s.maskSrc st 0 w.sa &&& s.lanePred w))
    .ok s (s.ctx.result st w.dst v) v (latBound w.lat)

/-- One level of the reduction tree over the first `2·h` nodes (R109). -/
def redLevel (op : Nat → Nat → Nat) (l : List (Option Nat)) (h : Nat) : List (Option Nat) :=
  (List.range h).map fun j => match l.getD j none, l.getD (j + h) none with
    | some a, some b => some (op a b)
    | some a, none => some a
    | none, o => o

/-- The tree of six levels (R109). -/
def redTree (op : Nat → Nat → Nat) (l : List (Option Nat)) : Option Nat :=
  ([32, 16, 8, 4, 2, 1].foldl (redLevel op) l).getD 0 none

/-- A reduction (R193): class I as an exact integer, the others as stored bits; `none` is every lane absent. -/
def State.reduce (s : State) (i : Instr) (w : Ins) (int : List Int → Nat → Int) (val : Nat → Nat → Bool → Val → Val → Nat)
    (empty : Nat → Nat) : Host.Outcome State Fault Refusal :=
  s.vector i w (fmtAll w) [] fun s st tk =>
    let f := fmtOf w
    let a := s.laneSrc st tk w 0
    let p := s.lanePred w
    let subn := s.ctx.subn
    let present := (List.range 64).map fun j => if p.getLsbD j then some (laneBits f (vget 0 a j)) else none
    let v : Word :=
      if fmtClassI f then wordOfInt (int (present.filterMap fun o => o.map (intVal f)) f)
      else BitVec.ofNat 64 ((redTree (fun x y => val f (rmOf w) subn (decodeValue x f subn) (decodeValue y f subn)) present).getD
        (empty f))
    .ok s (s.ctx.result st w.dst v) v (latBound w.lat)

/-- VREDADD (R193). -/
def execVredadd (w : Ins) (s : State) : Host.Outcome State Fault Refusal :=
  s.reduce (.vredadd w) w (fun l _ => l.foldl (· + ·) 0) (fun f rm subn a b => addVals a b f rm subn) fun f => zeroBits f false
/-- VREDMAX (R193). -/
def execVredmax (w : Ins) (s : State) : Host.Outcome State Fault Refusal :=
  s.reduce (.vredmax w) w (fun l f => l.foldl max (intLo f)) (fun f _ subn a b => pickVal f subn a b (!valLt a b))
    fun f => infBits f true
/-- VREDMIN (R193). -/
def execVredmin (w : Ins) (s : State) : Host.Outcome State Fault Refusal :=
  s.reduce (.vredmin w) w (fun l f => l.foldl min (intHi f)) (fun f _ subn a b => pickVal f subn a b (!valLt b a))
    fun f => infBits f false

/-- The lowest enabled lane that a fault policy stops, and the converted lanes (R105, R194). -/
def convertLanes (p : Word) (src dst pol rm : Nat) (subn : Bool) (a : Vector Lane 64) : Option (Nat × Cond) × Vector Lane 64 :=
  let r (j : Nat) := convertValue (laneBits src (vget 0 a j)) src dst pol rm subn
  ((List.range 64).findSome? fun j => if p.getLsbD j then (match r j with
      | .error c => some (j, c)
      | .ok _ => none) else none,
   Vector.ofFn fun (j : Fin 64) => match r j with
      | .ok b => laneForm dst b
      | .error _ => 0)

/-- VCVT (R194): the source format is the tag of va. -/
def execVcvt (w : Ins) (s : State) : Host.Outcome State Fault Refusal :=
  .next (s.issue (.vcvt w) w profileHook [.sys srVcvtpol]
    (fun s => unlessA36 w (match s.ctx.tagOf w.sa with
      | some t => if fmtNamed t then none else some (tagTrap 0 0 t)
      | none => none))
    (fun _ => true)
    fun s st tk =>
      if fmtOf w = fmtA36 then .trap { cause := causeOperandBad }
      else match s.fillPorts w false with
        | (some t, s1) => .trapIn s1 t
        | (none, s1) =>
          let src := (s1.ctx.tagOf w.sa).getD 0
          let p := s1.lanePred w
          let (bad, lanes) := convertLanes p src (fmtOf w) s1.ctx.vcvtpol.toNat (rmOf w) s1.ctx.subn (s1.laneSrc st tk w 0)
          match bad with
          | some (j, c) => .trapIn s1 { cause := causePolicy, aux := c.code * 2 ^ 16 + j }
          | none =>
            match s1.vecResult w lanes p with
            | .ok s2 effs pay lat => .ok (s2.popPorts w) effs pay lat
            | r => r)

/-- VLDP (R202). -/
def execVldp (w : Ins) (s : State) : Host.Outcome State Fault Refusal :=
  s.vector (.vldp w) w (fmtAll w) [] fun s st tk => s.vecResult w (s.laneSrc st tk w 0) (s.lanePred w)

/-- A vector of FMT pushed to a write walk of another DFMT (R163, R202, R230): the frame takes slot 0, FMT as expected and DFMT as
found (notes/assumptions/111). -/
def Ctx.pushCheck (c : Ctx) (w : Ins) (port : Nat) : Option Trap :=
  let p := c.port port
  let r := Nest.ofBits p.record
  if p.state ≠ .unbound && r.op = 0x41 && r.dfmt ≠ fmtOf w then some (tagTrap 0 (fmtOf w) r.dfmt) else none

/-- A push to a port that does not take it: a plane walk, or no write walk under way (R163, R205, R219). -/
def Ctx.pushTrap (c : Ctx) (w : Ins) (port : Nat) : Option Trap :=
  (c.portKind w false 0).orElse fun _ => if (c.port port).state ≠ .write then some { cause := causePort } else none

/-- VSTP (R163, R202): pushes a vector to the write walk of a port. The port is looked at before the
vector (notes/assumptions/111). -/
def execVstp (w : Ins) (s : State) : Host.Outcome State Fault Refusal :=
  let port := match operandPort w.sa with
    | some (n, _) => n
    | none => 0
  .next (s.issue (.vstp w) w profileHook [.port port]
    (fun s => unlessA36 w ((s.ctx.pushCheck w port).orElse fun _ => s.ctx.slotCheck w 1 (fmtOf w)))
    (fun _ => true)
    fun s _ _ =>
      let c := s.ctx
      let p := c.port port
      let r := Nest.ofBits p.record
      match (if fmtOf w = fmtA36 then some { cause := causeOperandBad } else c.pushTrap w port : Option Trap) with
      | some t => .trap t
      | none =>
        let lanes := match w.sb with
          | .v n => s.readLanes n 1
          | _ => Vector.replicate 64 0
        match pushCells c r p.next lanes (s.lanePred w) with
        | .error off => .trap { cause := causeData, addr := some off }
        | .ok cells =>
          let next := p.next + 64
          .ok (s.setCtx (c.setPort port { p with next, state := if r.total ≤ next then .ended else .write }))
            [.store true (joinCells cells)] 0 (latBound w.lat))

end Sys2Proof.Machine
end

