-- ==== Sys2Proof/Machine/VectorMem.lean ====
section
/-! DEFINITION. Vector memory access and nest registers (06 R195 to R201, R204): byte runs page by page, so that the lowest
faulting byte is the one recorded; gathers, scatters, spills and fills lane by lane with their completion bitmaps. -/

namespace Sys2Proof.Machine

/-- Load `n` bytes, page by page: the lowest failing byte is answered (R196). -/
def State.loadPages (s : State) (st va : Nat) : Nat → Nat → Except MemFault (List Byte) × State
  | 0, _ => (.ok [], s)
  | k + 1, n =>
    if n = 0 then (.ok [], s)
    else
      let m := min n (4096 - va % 4096)
      match s.loadVirt st va m with
      | (.error f, s1) => (.error f, s1)
      | (.ok bs, s1) =>
        match s1.loadPages st (va + m) k (n - m) with
        | (.error f, s2) => (.error f, s2)
        | (.ok cs, s2) => (.ok (bs ++ cs), s2)

/-- Load from the space that `spad` names (R117, R195). -/
def State.loadSpace (s : State) (st : Nat) (spad : Bool) (ea n : Nat) : Except MemFault (List Byte) × State :=
  if spad then
    match s.ctx.spadOut ea n with
    | some a => (.error (memFault causeData a), s)
    | none => (.ok (s.loadSpad st ea n), s.askBanks (streamReq st) [(ea, n)])
  else s.loadPages st ea (pageFuel n) n

/-- The cells of a store, page by page (R196). -/
def State.storePages (s : State) (va : Nat) : Nat → List (Byte × Byte) → Except MemFault (List StoreCell) × State
  | 0, _ => (.ok [], s)
  | k + 1, bs =>
    if bs.isEmpty then (.ok [], s)
    else
      let m := min bs.length (4096 - va % 4096)
      match s.storeCells va (bs.take m) with
      | (.error f, s1) => (.error f, s1)
      | (.ok cs, s1) =>
        match s1.storePages (va + m) k (bs.drop m) with
        | (.error f, s2) => (.error f, s2)
        | (.ok ds, s2) => (.ok (cs ++ ds), s2)

/-- The cells of a store to the space that `spad` names. -/
def State.storeSpace (s : State) (spad : Bool) (ea : Nat) (bs : List (Byte × Byte)) : Except MemFault (List StoreCell) × State :=
  if spad then
    match s.ctx.spadOut ea bs.length with
    | some a => (.error (memFault causeData a), s)
    | none => (.ok (s.ctx.spadCells ea bs), s)
  else s.storePages ea (pageFuel bs.length) bs

/-- Runs of consecutive numbers in a rising list: first and length. -/
def runsOf : List Nat → List (Nat × Nat)
  | [] => []
  | x :: xs =>
    match runsOf xs with
    | (y, n) :: rest => if y = x + 1 then (x, n + 1) :: rest else (x, 1) :: (y, n) :: rest
    | [] => [(x, 1)]

/-- The byte masks of the enabled elements of a packed vector (R196). -/
def packedMask (w : Nat) (p : Word) : List Byte :=
  packElems w ((List.range 64).map fun j => if p.getLsbD j then 2 ^ w - 1 else 0)

/-- The runs of bytes that some masks touch. -/
def touchedRuns (masks : List Byte) : List (Nat × Nat) :=
  runsOf ((List.range masks.length).filter fun i => masks.getD i 0 ≠ 0)

/-- Load runs of bytes into an image of `n` bytes (R196). -/
def State.loadRuns (s : State) (st : Nat) (spad : Bool) (ea : Nat) :
    List (Nat × Nat) → List Byte → Except MemFault (List Byte) × State
  | [], image => (.ok image, s)
  | (off, n) :: rest, image =>
    match s.loadSpace st spad (ea + off) n with
    | (.error f, s1) => (.error f, s1)
    | (.ok bs, s1) => s1.loadRuns st spad ea rest (image.take off ++ bs ++ image.drop (off + n))

/-- The cells of runs of an image of bytes and masks (R196). -/
def State.storeRuns (s : State) (spad : Bool) (ea : Nat) (image : List (Byte × Byte)) :
    List (Nat × Nat) → Except MemFault (List StoreCell) × State
  | [] => (.ok [], s)
  | (off, n) :: rest =>
    match s.storeSpace spad (ea + off) ((image.drop off).take n) with
    | (.error f, s1) => (.error f, s1)
    | (.ok cs, s1) =>
      match s1.storeRuns spad ea image rest with
      | (.error f, s2) => (.error f, s2)
      | (.ok ds, s2) => (.ok (cs ++ ds), s2)

/-- Alignment of a packed vector (R196). -/
def packedAlign (w : Nat) : Nat := if w % 8 = 0 then w / 8 else 8 * w

/-- The scratchpad is named (R117). -/
def isSpad (w : Ins) : Bool := w.mod = 1

/-- A vector memory instruction: A36 refused whatever the tags, tag checks, the body (R180, R195). -/
def State.vmem (s : State) (i : Instr) (w : Ins) (check : Ctx → Option Trap) (extra : List Res)
    (body : State → Nat → Word → IssueRes) : Host.Outcome State Fault Refusal :=
  .next (s.issue i w profileHook extra (fun s => unlessA36 w (check s.ctx)) (fun _ => true) fun s st tk =>
    if fmtOf w = fmtA36 then .trap { cause := causeOperandBad } else body s st tk)

/-- VLD (R196). -/
def execVld (w : Ins) (s : State) : Host.Outcome State Fault Refusal :=
  s.vmem (.vld w) w (fun _ => none) [] fun s st tk =>
    let f := fmtOf w
    let fw := fmtWidth f
    let ea := effAddr (s.srcA st tk w) w
    let p := s.lanePred w
    match alignTrap ea (packedAlign fw) with
    | some t => .trap t
    | none =>
      match s.loadRuns st (isSpad w) ea (touchedRuns (packedMask fw p)) (List.replicate (8 * fw) 0) with
      | (.error e, s1) => .trapIn s1 e.trap
      | (.ok image, s1) =>
        let es := unpackElems fw 64 image
        s1.vecResult w (Vector.ofFn fun (j : Fin 64) => laneForm f (es.getD j 0)) p

/-- VST (R196): the enabled elements, merged by bits into the bytes they share. -/
def execVst (w : Ins) (s : State) : Host.Outcome State Fault Refusal :=
  s.vmem (.vst w) w (fun c => c.slotCheck w 1 (fmtOf w)) [] fun s st tk =>
    let f := fmtOf w
    let fw := fmtWidth f
    let ea := effAddr (s.srcA st tk w) w
    let masks := packedMask fw (s.lanePred w)
    let v := s.laneSrc st tk w 1
    match alignTrap ea (packedAlign fw) with
    | some t => .trap t
    | none =>
      let image := (packElems fw (v.toList.map (laneBits f))).zip masks
      match s.storeRuns (isSpad w) ea image (touchedRuns masks) with
      | (.error e, s1) => .trapIn s1 e.trap
      | (.ok cs, s1) => .ok s1 [.store (isSpad w) cs] 0 (latBound w.lat)

/-- The lower of two failed accesses (R196). -/
def lowerFault : Option MemFault → MemFault → Option MemFault
  | none, f => some f
  | some g, f => some (if f.byte < g.byte then f else g)

/-- An address computed exactly: negative ones lie outside every space. -/
def exactAddr (a : Int) : Nat := if a < 0 then wrapInt a 64 else a.toNat

/-- Load one element of `n` bytes at each enabled lane's address; the lowest failing byte wins (R197). -/
def State.loadLanes (s : State) (st : Nat) (spad : Bool) (n : Nat) (p : Word) (addr : Nat → Int) :
    Option MemFault × (List Nat × State) :=
  (List.range 64).foldl (fun (acc : Option MemFault × (List Nat × State)) j =>
    if !p.getLsbD j then (acc.1, (acc.2.1 ++ [0], acc.2.2))
    else match acc.2.2.loadSpace st spad (exactAddr (addr j)) n with
      | (.error f, s1) => (lowerFault acc.1 f, (acc.2.1 ++ [0], s1))
      | (.ok bs, s1) => (acc.1, (acc.2.1 ++ [bytesNat bs], s1))) (none, ([], s))

/-- The cells of a disabled element of a store: no bit of them is written (R181, R274). -/
def offCells (a n : Nat) : List StoreCell := (List.range n).map fun i => { va := a + i, pa := 0, val := 0, mask := 0 }

/-- The cells of one element at each enabled lane's address, ascending lanes (R197). -/
def State.storeLanes (s : State) (spad : Bool) (n : Nat) (p : Word) (addr : Nat → Int) (val : Nat → Nat) :
    Option MemFault × (List StoreCell × State) :=
  (List.range 64).foldl (fun (acc : Option MemFault × (List StoreCell × State)) j =>
    if !p.getLsbD j then (acc.1, (acc.2.1 ++ offCells (exactAddr (addr j)) n, acc.2.2))
    else match acc.2.2.storeSpace spad (exactAddr (addr j)) (wholeBytes (natBytes n (val j))) with
      | (.error f, s1) => (lowerFault acc.1 f, (acc.2.1, s1))
      | (.ok cs, s1) => (acc.1, (acc.2.1 ++ cs, s1))) (none, ([], s))

/-- The alignment of a strided access; the stride is signed (R197, R228). -/
def strideTrap (ea n : Nat) (stride : Word) : Option Trap :=
  if ea % n ≠ 0 then some { cause := causeMisaligned, addr := some ea }
  else if stride.toInt % (n : Int) ≠ 0 then some { cause := causeMisaligned, addr := some ea } else none

/-- VLDS (R197). -/
def execVlds (w : Ins) (s : State) : Host.Outcome State Fault Refusal :=
  s.vmem (.vlds w) w (fun _ => none) [] fun s st tk =>
    let f := fmtOf w
    let n := fmtWidth f / 8
    if !fmtByteWidth f then .trap { cause := causeOperandBad }
    else
      let ea := effAddr (s.srcA st tk w) w
      let stride := s.srcB st tk w
      let p := s.lanePred w
      match strideTrap ea n stride with
      | some t => .trap t
      | none =>
        match s.loadLanes st (isSpad w) n p fun j => (ea : Int) + (j : Int) * stride.toInt with
        | (some e, (_, s1)) => .trapIn s1 e.trap
        | (none, (es, s1)) => s1.vecResult w (Vector.ofFn fun (j : Fin 64) => laneForm f (es.getD j 0)) p

/-- VSTS (R197). -/
def execVsts (w : Ins) (s : State) : Host.Outcome State Fault Refusal :=
  s.vmem (.vsts w) w (fun c => c.slotCheck w 1 (fmtOf w)) [] fun s st tk =>
    let f := fmtOf w
    let n := fmtWidth f / 8
    if !fmtByteWidth f then .trap { cause := causeOperandBad }
    else
      let ea := effAddr (s.srcA st tk w) w
      let stride := s.srcC st tk w
      let v := s.laneSrc st tk w 1
      match strideTrap ea n stride with
      | some t => .trap t
      | none =>
        match s.storeLanes (isSpad w) n (s.lanePred w) (fun j => (ea : Int) + (j : Int) * stride.toInt)
            fun j => laneBits f (vget 0 v j) with
        | (some e, (_, s1)) => .trapIn s1 e.trap
        | (none, (cs, s1)) => .ok s1 [.store (isSpad w) cs] 0 (latBound w.lat)

/-- The completion bitmap an operand names. -/
def cbOf : Operand → Nat
  | .cb n => n
  | _ => 0

/-- Mark bits of a completion bitmap. -/
def Ctx.markCb (c : Ctx) (n : Nat) (m : Word) : Ctx := { c with cb := vset c.cb n (vget 0 c.cb n ||| m) }

/-- The state of a lane-by-lane instruction: lanes done so far, their values or cells, and the machine. -/
structure LaneRun where
  done  : Word
  vals  : List (Nat × Nat)
  cells : List StoreCell
  s     : State
  fault : Option Trap

/-- One step of a lane-by-lane instruction on the lanes in ascending order, stopping at the first fault (R198). -/
def LaneRun.each (r : LaneRun) (pending : Word) (step : LaneRun → Nat → LaneRun) : LaneRun :=
  (List.range 64).foldl (fun r j => if r.fault.isSome || !pending.getLsbD j then r else step r j) r

/-- Element address of R198. -/
def indexAddr (ea : Nat) (n : Nat) (ix : Lane) : Int := (ea : Int) + ix.toInt * (n : Int)

/-- The misaligned element of a lane (R198). -/
def laneMisaligned (a : Int) (n : Nat) : Option Trap :=
  if a % (n : Int) = 0 then none else some { cause := causeMisaligned, addr := some (exactAddr a) }

/-- Put a value into some lanes of a vector register at once (R199). -/
def Ctx.putLanes (c : Ctx) (n : Nat) (vals : List (Nat × Lane)) : Ctx :=
  let r := c.vreg n
  { c with v := vset c.v n { r with lanes := vals.foldl (fun l p => vset l p.1 p.2) r.lanes } }

/-- What stands in some lanes of a vector register at a stop stays there: an older write of the register that would have landed
before an instruction of this latency leaves those lanes (R21, R23, R199). -/
def Ctx.keepLanes (c : Ctx) (n : Nat) (m : Word) (lat : Nat) : Ctx :=
  { c with flights := c.flights.map fun f => match f.eff with
      | .vec k lanes mask => if k = n && (!c.exposed || f.land ≤ c.cycle + lat) then { f with eff := .vec k lanes (mask &&& ~~~m) } else f
      | _ => f }

/-- The lanes a lane-by-lane instruction has still to do: enabled, and not marked in its bitmap (R198). -/
def State.lanesPending (s : State) (w : Ins) : Word := s.lanePred w &&& ~~~(s.readCb (cbOf w.sc) 2)

/-- A lane-by-lane instruction before its first lane. -/
def LaneRun.start (s : State) : LaneRun := { done := 0, vals := [], cells := [], s, fault := none }

/-- The lanes of a VGATH (R198). -/
def State.gatherRun (s : State) (st : Nat) (tk : Word) (w : Ins) : LaneRun :=
  let n := fmtWidth (fmtOf w) / 8
  let ea := effAddr (s.srcA st tk w) w
  let ix := s.laneSrc st tk { w with fmt := 0x14 } 1
  (LaneRun.start s).each (s.lanesPending w) fun r j =>
    let a := indexAddr ea n (vget 0 ix j)
    match laneMisaligned a n with
    | some t => { r with fault := some t }
    | none =>
      match r.s.loadSpace st (isSpad w) (exactAddr a) n with
      | (.error e, s1) => { r with s := s1, fault := some e.trap }
      | (.ok bs, s1) => { r with s := s1, done := r.done ||| BitVec.twoPow 64 j, vals := r.vals ++ [(j, bytesNat bs)] }

/-- VGATH (R198, R199). -/
def execVgath (w : Ins) (s : State) : Host.Outcome State Fault Refusal :=
  s.vmem (.vgath w) w (fun c => c.slotCheck w 1 fmtS32) [] fun s st tk =>
    let f := fmtOf w
    if !fmtByteWidth f then .trap { cause := causeOperandBad }
    else
      let cb := cbOf w.sc
      let pending := s.lanesPending w
      let r := s.gatherRun st tk w
      let lanes := r.vals.map fun p => (p.1, laneForm f p.2)
      match r.fault with
      | some t =>
        let c := (((r.s.ctx.setTag (vdst w) w.fmt).putLanes (vdst w) lanes).keepLanes (vdst w) r.done (latBound w.lat)).markCb cb r.done
        .trapIn (r.s.setCtx c) { t with cbsel := some cb }
      | none =>
        match r.s.vecResult w (lanes.foldl (fun l p => vset l p.1 p.2) (Vector.replicate 64 0)) pending with
        | .ok s2 effs pay lat => .ok s2 (effs ++ [.command (.clearBitmap cb 0)]) pay lat
        | x => x

/-- The register pair of a scatter: index and value registers (R195). -/
def pairOf (w : Ins) : Nat × Nat := match w.sb with
  | .v n => (n, n + 1)
  | _ => (0, 1)

/-- The tag checks of a scatter (R195). -/
def Ctx.pairCheck (c : Ctx) (w : Ins) : Option Trap :=
  match c.slotCheck w 1 fmtS32 with
  | some t => some t
  | none =>
    let t := (c.vreg (pairOf w).2).tag.toNat
    if t = fmtOf w && fmtNamed t then none else some (tagTrap 1 (fmtOf w) t)

/-- The first byte of a few cells that lies in a word their read-modify-write would meet poisoned (R120, R334). -/
def State.rmwByte (s : State) (cs : List StoreCell) : Option Nat :=
  ((s.refusedCells s.focus (s.here.placed s.asn (cs.filter fun x => x.pa < lpddrEnd && x.mask ≠ 0))).head?).map (·.pa)

/-- Count a write refused under R334. -/
def State.countRmw (s : State) (pa : Nat) : State := { s with die := s.die.refuse (pa / 32 * 32) }

/-- Perform some cells of a stream's instruction at once, at core scope (R119, R199). -/
def State.performNow (s : State) (i : Instr) (st : Nat) (spad : Bool) (cs : List StoreCell) : State :=
  let s := if (Effect.store spad cs).toHost then s.forceHost st s.ctx.seqNext else s
  (s.performFor { slot := s.here.running, origin := st, pc := (s.ctx.stream st).pc, word := i.word } s.ctx.seqNext (streamReq st)
    spad cs).1

/-- The lanes of a VSCAT (R198). -/
def State.scatterRun (s : State) (st : Nat) (w : Ins) : LaneRun :=
  let f := fmtOf w
  let n := fmtWidth f / 8
  let ea := effAddr (s.srcA st 0 w) w
  let ix := s.readLanes (pairOf w).1 1
  let v := s.readLanes (pairOf w).2 3
  (LaneRun.start s).each (s.lanesPending w) fun r j =>
    let a := indexAddr ea n (vget 0 ix j)
    match laneMisaligned a n with
    | some t => { r with fault := some t }
    | none =>
      match r.s.storeSpace (isSpad w) (exactAddr a) (wholeBytes (natBytes n (laneBits f (vget 0 v j)))) with
      | (.error e, s1) => { r with s := s1, fault := some e.trap }
      | (.ok cs, s1) =>
        match (if isSpad w then none else s1.rmwByte cs) with
        | some a => { r with s := s1.countRmw a, fault := some { cause := causeRmw, addr := some a } }
        | none => { r with s := s1, done := r.done ||| BitVec.twoPow 64 j, cells := r.cells ++ cs }

/-- VSCAT (R198, R199). -/
def execVscat (w : Ins) (s : State) : Host.Outcome State Fault Refusal :=
  s.vmem (.vscat w) w (fun c => c.pairCheck w) [.v (pairOf w).2] fun s st _ =>
    if !fmtByteWidth (fmtOf w) then .trap { cause := causeOperandBad }
    else
      let cb := cbOf w.sc
      let r := s.scatterRun st w
      match r.fault with
      | some t =>
        let s1 := r.s.performNow (.vscat w) st (isSpad w) r.cells
        .trapIn (s1.setCtx (s1.ctx.markCb cb r.done)) { t with cbsel := some cb }
      | none => .ok r.s [.store (isSpad w) r.cells, .command (.clearBitmap cb 0)] 0 (latBound w.lat)

/-- The sum of VSCATADD (R198). -/
def scatterSum (f old lane : Nat) (subn : Bool) : Nat :=
  if fmtClassI f then (old + lane) % 2 ^ fmtWidth f
  else addVals (decodeValue old f subn) (decodeValue lane f subn) f 0 subn

/-- One lane of VSCATADD: the fault it meets, or the machine after it (R198). -/
def State.scatterAdd (s : State) (st : Nat) (spad : Bool) (a : Int) (n : Nat) (op : Nat → Nat) : Option Trap × State :=
  let ea := exactAddr a
  if spad then
    match s.ctx.spadOut ea n with
    | some o => (some { cause := causeData, addr := some o }, s)
    | none =>
      let cells := s.ctx.spadCells ea (wholeBytes (natBytes n (op (bytesNat (s.loadSpad st ea n)))))
      (none, (s.performFor { slot := s.here.running, origin := st, pc := 0, word := 0 } s.ctx.seqNext 11 true cells).1)
  else
    match s.translate s.focus s.asn ea .read with
    | (.error c, s1) => (some { cause := c, addr := some ea }, s1)
    | (.ok _, s1) =>
      match s1.translate s1.focus s1.asn ea .write with
      | (.error c, s2) => (some { cause := c, addr := some ea }, s2)
      | (.ok ph, s2) =>
        if ph.attr ≠ 0 then (some { cause := causeProtection, addr := some ea }, s2)
        else match s2.homeUpdate st ph.pa n op with
          | (some _, _, s3) => (some { cause := causeRmw, addr := some ph.pa }, s3)
          | (none, _, s3) => (none, s3)

/-- The lanes of a VSCATADD, one indivisible update each, after the stream's own stores (R198). -/
def State.scatterAddRun (s : State) (st : Nat) (w : Ins) : LaneRun :=
  let f := fmtOf w
  let n := fmtWidth f / 8
  let ea := effAddr (s.srcA st 0 w) w
  let ix := s.readLanes (pairOf w).1 1
  let v := s.readLanes (pairOf w).2 3
  let subn := s.ctx.subn
  (LaneRun.start (s.forceStores fun x => x.stream = st)).each (s.lanesPending w) fun r j =>
    let a := indexAddr ea n (vget 0 ix j)
    match laneMisaligned a n with
    | some t => { r with fault := some t }
    | none =>
      match r.s.scatterAdd st (isSpad w) a n fun old => scatterSum f old (laneBits f (vget 0 v j)) subn with
      | (some t, s1) => { r with s := s1, fault := some t }
      | (none, s1) => { r with s := s1, done := r.done ||| BitVec.twoPow 64 j }

/-- VSCATADD (R198, R199): one indivisible update per pending lane, in lane order. -/
def execVscatadd (w : Ins) (s : State) : Host.Outcome State Fault Refusal :=
  s.vmem (.vscatadd w) w (fun c => c.pairCheck w) [.v (pairOf w).2] fun s st _ =>
    let cb := cbOf w.sc
    let r := s.scatterAddRun st w
    match r.fault with
    | some t => .trapIn (r.s.setCtx (r.s.ctx.markCb cb r.done)) { t with cbsel := some cb }
    | none => .ok r.s [.command (.clearBitmap cb 0)] 0 (latBound w.lat)

/-- Registers a spill or fill still has to transfer (R200). -/
def regsPending (w : Ins) (cb : Word) : Word := BitVec.ofNat 64 (bits w.imm.toNat 15 0) &&& ~~~cb

/-- Vector registers named by a set. -/
def setRes (w : Ins) : List Res := ((List.range 16).filter fun j => w.imm.getLsbD j).map fun j => .v j

/-- The bits of a completion bitmap that a spill or fill keeps (R200). -/
def upperBits (v : Word) : Word := v &&& ~~~(0xFFFF : Word)

/-- The registers of a VSPILL: lanes copied raw, a disabled lane not stored, then the tag (R181, R200; notes/assumptions/18). -/
def State.spillRun (s : State) (w : Ins) (a : Nat) : LaneRun :=
  let p := s.lanePred w
  (LaneRun.start s).each (regsPending w (s.readCb (cbOf w.sb) 1)) fun r j =>
    let lanes := r.s.readLanes j 2
    let image := (lanes.toList.flatMap fun l => natBytes 4 l.toNat).zip (packedMask 32 p)
    match r.s.storeRuns (isSpad w) (a + 256 * j) image (touchedRuns (packedMask 32 p)) with
    | (.error e, s1) => { r with s := s1, fault := some e.trap }
    | (.ok cs, s1) =>
      match s1.storeSpace (isSpad w) (a + 4096 + j) [((r.s.ctx.vreg j).tag.setWidth 8, 0xFF)] with
      | (.error e, s2) => { r with s := s2, fault := some e.trap }
      | (.ok ds, s2) =>
        match (if isSpad w then none else s2.rmwByte (cs ++ ds)) with
        | some a => { r with s := s2.countRmw a, fault := some { cause := causeRmw, addr := some a } }
        | none => { r with s := s2, done := r.done ||| BitVec.twoPow 64 j, cells := r.cells ++ cs ++ ds }

/-- VSPILL (R200). -/
def execVspill (w : Ins) (s : State) : Host.Outcome State Fault Refusal :=
  s.vmem (.vspill w) w (fun _ => none) (setRes w) fun s st tk =>
    let a := (s.srcA st tk w).toNat
    let cb := cbOf w.sb
    let old := s.readCb cb 1
    match alignTrap a 256 with
    | some t => .trap t
    | none =>
      let r := s.spillRun w a
      match r.fault with
      | some t =>
        let s1 := r.s.performNow (.vspill w) st (isSpad w) r.cells
        .trapIn (s1.setCtx (s1.ctx.markCb cb r.done)) { t with cbsel := some cb }
      | none => .ok r.s [.store (isSpad w) r.cells, .command (.clearBitmap cb (upperBits old))] 0 (latBound w.lat)

/-- A tag byte a fill refuses (R200). -/
def tagByteBad (b : Nat) : Bool := b = fmtA36 || 0x20 < b

/-- What a VFILL has loaded: its trap, the machine, and each register loaded with its image and its tag. -/
abbrev FillRun := (Option Trap × State) × List (Nat × List Byte × Nat)

/-- The registers of a VFILL (R200). -/
def State.fillRun (s : State) (st : Nat) (w : Ins) (a : Nat) : FillRun :=
  let p := s.lanePred w
  let pending := regsPending w (s.readCb (cbOf w.sb) 1)
  (List.range 16).foldl (fun (acc : FillRun) j =>
    if acc.1.1.isSome || !pending.getLsbD j then acc
    else match acc.1.2.loadRuns st (isSpad w) (a + 256 * j) (touchedRuns (packedMask 32 p)) (List.replicate 256 0) with
      | (.error e, s1) => ((some e.trap, s1), acc.2)
      | (.ok image, s1) =>
        match s1.loadSpace st (isSpad w) (a + 4096 + j) 1 with
        | (.error e, s2) => ((some e.trap, s2), acc.2)
        | (.ok tb, s2) =>
          if tagByteBad (bytesNat tb) then ((some { cause := causeOperandBad }, s2), acc.2)
          else ((none, s2), acc.2 ++ [(j, image, bytesNat tb)])) ((none, s), [])

/-- The lanes of an image of 256 bytes. -/
def imageLanes (image : List Byte) : Vector Lane 64 :=
  Vector.ofFn fun (i : Fin 64) => BitVec.ofNat 32 (bytesNat ((image.drop (4 * i)).take 4))

/-- The registers a VFILL has loaded take their tags. -/
def Ctx.fillTags (c : Ctx) (loaded : List (Nat × List Byte × Nat)) : Ctx :=
  loaded.foldl (fun (c : Ctx) x => c.setTag x.1 (BitVec.ofNat 6 x.2.2)) c

/-- VFILL (R200): a token pushed with it carries the first register of the set (R35; notes/assumptions/108). -/
def execVfill (w : Ins) (s : State) : Host.Outcome State Fault Refusal :=
  s.vmem (.vfill w) w (fun _ => none) [] fun s st tk =>
    let a := (s.srcA st tk w).toNat
    let cb := cbOf w.sb
    let old := s.readCb cb 1
    let p := s.lanePred w
    match alignTrap a 256 with
    | some t => .trap t
    | none =>
      let go := s.fillRun st w a
      let s1 := go.1.2
      let tagged := s1.ctx.fillTags go.2
      match go.1.1 with
      | some t =>
        let c := go.2.foldl (fun (c : Ctx) x =>
          ((c.putLanes x.1 ((List.range 64).filterMap fun i =>
            if p.getLsbD i then some (i, vget 0 (imageLanes x.2.1) i) else none)).keepLanes x.1 p (latBound w.lat)).markCb cb
              (BitVec.twoPow 64 x.1)) tagged
        .trapIn (s1.setCtx c) { t with cbsel := some cb }
      | none =>
        let pay := match firstOfSet w.imm.toNat with
          | some j => lanePayload (tagged.vreg j).lanes
          | none => 0
        .ok (s1.setCtx tagged) (go.2.map (fun x => .vec x.1 (imageLanes x.2.1) p) ++ [.command (.clearBitmap cb (upperBits old))])
          pay (latBound w.lat)

/-- NLD (R204). -/
def execNld (w : Ins) (s : State) : Host.Outcome State Fault Refusal :=
  s.run (.nld w) w noEarly fun s st tk =>
    let ea := effAddr (s.srcA st tk w) w
    match alignTrap ea 64 with
    | some t => .trap t
    | none =>
      match s.loadSpace st (isSpad w) ea 64 with
      | (.error e, s1) => .trapIn s1 e.trap
      | (.ok bs, s1) =>
        let v : BitVec 512 := BitVec.ofNat 512 (bytesNat bs)
        match w.dst with
        | .n k => .ok s1 [.nest k v] (v.setWidth 64) (latBound w.lat)
        | _ => .ok s1 [] 0 (latBound w.lat)

/-- NST (R204). -/
def execNst (w : Ins) (s : State) : Host.Outcome State Fault Refusal :=
  s.run (.nst w) w noEarly fun s st tk =>
    let ea := effAddr (s.srcA st tk w) w
    let v := match w.sb with
      | .n k => s.readNest k 1
      | _ => 0
    match alignTrap ea 64 with
    | some t => .trap t
    | none =>
      match s.storeSpace (isSpad w) ea (wholeBytes (natBytes 64 v.toNat)) with
      | (.error e, s1) => .trapIn s1 e.trap
      | (.ok cs, s1) => .ok s1 [.store (isSpad w) cs] 0 (latBound w.lat)

end Sys2Proof.Machine
end

