-- ==== Sys2Proof/Machine/Tiles.lean ====
section
/-! DEFINITION. Tiles as matrices of A36 values: dense reading, exact sums rounded once, products and recompression
(07 R208, R211 to R218, R221 to R224, R231 to R233). -/

namespace Sys2Proof.Machine

/-- A matrix by row and column. -/
abbrev Mat := Array (Array Nat)

/-- Element of a matrix; +0 outside. -/
def Mat.at (a : Mat) (i j : Nat) : Nat := (a.getD i #[]).getD j 0

/-- A matrix from its elements. -/
def Mat.build (rows cols : Nat) (f : Nat → Nat → Nat) : Mat :=
  ((List.range rows).map fun i => ((List.range cols).map fun j => f i j).toArray).toArray

/-- Every element of a matrix, row by row. -/
def Mat.flat (a : Mat) : List Nat := a.toList.flatMap fun r => r.toList

def repZero : Nat := 0
def repDense : Nat := 1
def repPair : Nat := 2

/-- What a tile holds (R212): nothing, 64 rows, or the factors U (64 by r) and V (r by 64). -/
inductive TileVal where
  | zero
  | dense (a : Mat)
  | pair (r : Nat) (u v : Mat)

/-- The ply `i` of some plies. -/
def plyOf (l : Array (BitVec 36)) (i e : Nat) : Nat := (l.getD (64 * i + e) 0).toNat

/-- The contents of a tile register (R212). -/
def Tile.val (t : Tile) : TileVal :=
  let l := t.plies.toArray
  if t.rep = repDense then .dense (Mat.build 64 64 fun m n => plyOf l m n)
  else if t.rep = repPair then .pair t.rank (Mat.build 64 t.rank fun m j => plyOf l j m) (Mat.build t.rank 64 fun j n => plyOf l (t.rank + j) n)
  else .zero

/-- Representation and rank. -/
def TileVal.rep : TileVal → Nat × Nat
  | .zero => (repZero, 0)
  | .dense _ => (repDense, 0)
  | .pair r _ _ => (repPair, r)

/-- The plies of some contents (R212). -/
def TileVal.plies : TileVal → List (BitVec 36)
  | .zero => []
  | .dense a => (List.range 64).flatMap fun m => (List.range 64).map fun n => BitVec.ofNat 36 (a.at m n)
  | .pair r u v =>
    ((List.range r).flatMap fun j => (List.range 64).map fun m => BitVec.ofNat 36 (u.at m j)) ++
      (List.range r).flatMap fun j => (List.range 64).map fun n => BitVec.ofNat 36 (v.at j n)

/-- Plies some contents need (R213). -/
def TileVal.need : TileVal → Nat
  | .zero => 0
  | .dense _ => 64
  | .pair r _ _ => 2 * r

/-- The canonical NaN of A36 (R87). -/
def nan36 : Nat := nanBits fmtA36

/-- An exact sum of products of values, rounded once; a factor that is not finite makes it NaN (R218). -/
def roundOnce (subn : Bool) (terms : List (List Val)) : Nat :=
  if terms.any fun fs => fs.any fun v => v.cls ≠ .num then nan36
  else
    let ps := terms.map fun fs => fs.foldl (fun a v => (⟨.num, a.s != v.s, a.m * v.m, a.e + v.e⟩ : Val)) ⟨.num, false, 1, 0⟩
    let (y, q) := sumExact ps
    roundSigned y q false fmtA36 0 subn

/-- An A36 element as a value. -/
def val36 (subn : Bool) (b : Nat) : Val := decodeValue b fmtA36 subn

/-- The dense reading (R218). -/
def TileVal.read (t : TileVal) (subn : Bool) : Mat :=
  match t with
  | .zero => Mat.build 64 64 fun _ _ => 0
  | .dense a => a
  | .pair r u v => Mat.build 64 64 fun m n =>
      roundOnce subn ((List.range r).map fun t => [val36 subn (u.at m t), val36 subn (v.at t n)])

/-- Σ36 of a list (R217). -/
def sum36 (subn : Bool) (xs : List Nat) : Nat := xs.foldl (a36Add subn) 0

/-- Rows of 512 elements of an expanded operand tile (R153). -/
def tileRows (flat : List Nat) : List (List Nat) :=
  (List.range 64).map fun r => (flat.drop (512 * r)).take 512

/-- One K-step of TMMA (R221): the aligned rows of both operands, the accumulator and the row mask. -/
def tmmaStep (subn : Bool) (as bs : List Aligned) (acc : Mat) (rowpred : Word) : Mat :=
  let bsA := bs.toArray
  let asA := as.toArray
  let none1 : Aligned := { m := [], g := 0, special := false }
  Mat.build 64 64 fun m n =>
    let a := asA.getD m none1
    let b := bsA.getD n none1
    if !rowpred.getLsbD m then acc.at m n
    else if a.special || b.special then a36Add subn (acc.at m n) nan36
    else
      let p := ((a.m.zip b.m).map fun x => x.1 * x.2).foldl (· + ·) (0 : Int)
      a36Add subn (acc.at m n) (roundSigned p (a.g + b.g) false fmtA36 0 subn)

/-- An aligned element as a value. -/
def alignedVal (r : Aligned) (k : Nat) : Val :=
  if r.special then Val.nan
  else
    let x := r.m.getD k 0
    ⟨.num, x < 0, x.natAbs, r.g⟩

/-- TFMUL of a pair by aligned rows (R222): the pair, and its DENSE fallback. -/
def tfmulPair (subn : Bool) (r : Nat) (u v : Mat) (rows : List Aligned) : TileVal :=
  let rowsA := rows.toArray
  let none1 : Aligned := { m := [], g := 0, special := false }
  let x := Mat.build r 64 fun t c =>
    roundOnce subn ((List.range 64).map fun n => [val36 subn (v.at t n), alignedVal (rowsA.getD n none1) c])
  .pair r u x

def tfmulDense (subn : Bool) (r : Nat) (u v : Mat) (rows : List Aligned) : TileVal :=
  let rowsA := rows.toArray
  let none1 : Aligned := { m := [], g := 0, special := false }
  .dense (Mat.build 64 64 fun m c =>
    roundOnce subn ((List.range r).flatMap fun t => (List.range 64).map fun n =>
      [val36 subn (u.at m t), val36 subn (v.at t n), alignedVal (rowsA.getD n none1) c]))

/-- TFADD of two pairs (R223) and its fallback. -/
def tfaddPair (ra : Nat) (ua va : Mat) (rb : Nat) (ub vb : Mat) : TileVal :=
  .pair (ra + rb) (Mat.build 64 (ra + rb) fun m j => if j < ra then ua.at m j else ub.at m (j - ra))
    (Mat.build (ra + rb) 64 fun j n => if j < ra then va.at j n else vb.at (j - ra) n)

/-- The dense reading as a DENSE tile (R214, R225). -/
def TileVal.toDense (t : TileVal) (subn : Bool) : TileVal := .dense (t.read subn)

/-- TPMUL (R224) and its fallback. -/
def tpmulPair (subn : Bool) (ra : Nat) (ua va : Mat) (rb : Nat) (ub vb : Mat) : TileVal :=
  let k := Mat.build ra rb fun i j =>
    roundOnce subn ((List.range 64).map fun c => [val36 subn (va.at i c), val36 subn (ub.at c j)])
  if ra ≤ rb then
    .pair ra ua (Mat.build ra 64 fun i c => roundOnce subn ((List.range rb).map fun j => [val36 subn (k.at i j), val36 subn (vb.at j c)]))
  else
    .pair rb (Mat.build 64 rb fun m j => roundOnce subn ((List.range ra).map fun i => [val36 subn (ua.at m i), val36 subn (k.at i j)])) vb

def tpmulDense (subn : Bool) (ra : Nat) (ua va : Mat) (rb : Nat) (ub vb : Mat) : TileVal :=
  .dense (Mat.build 64 64 fun m n =>
    roundOnce subn ((List.range ra).flatMap fun i => (List.range 64).flatMap fun c => (List.range rb).map fun j =>
      [val36 subn (ua.at m i), val36 subn (va.at i c), val36 subn (ub.at c j), val36 subn (vb.at j n)]))

/-- Columns under work in recompression: a list of columns, and whether some value was not finite (R233). -/
structure StoreWork where
  cols : Array (Array Nat)
  bad  : Bool

/-- Note values that are not finite. -/
def badAny (xs : Array Nat) : Bool := xs.any a36Special

/-- Element-wise combination of two columns. -/
def zipCols (f : Nat → Nat → Nat) (x y : Array Nat) : Array Nat := (x.zip y).map fun p => f p.1 p.2

/-- Σ36 of products of two columns, and whether a product or partial sum was not finite. -/
def dot36 (subn : Bool) (x y : Array Nat) : Nat × Bool :=
  (x.zip y).foldl (fun acc p =>
    let m := a36Mul subn p.1 p.2
    let a := a36Add subn acc.1 m
    (a, acc.2 || a36Special m || a36Special a)) (0, false)

/-- Modified Gram-Schmidt on the columns of X (R232): the columns of Q and those of T. -/
def mgs (subn : Bool) (xs : Array (Array Nat)) : Array (Array Nat) × Array (Array Nat) × Bool :=
  let r := xs.size
  xs.foldl (fun (acc : Array (Array Nat) × Array (Array Nat) × Bool) x =>
    let (q, t, bad) := acc
    -- project out each earlier column in turn
    let step := q.foldl (fun (st : Array Nat × Array Nat × Bool) qi =>
      let (w, col, bad) := st
      let (d, b1) := dot36 subn qi w
      let prod := qi.map fun e => a36Mul subn d e
      let w2 := zipCols (a36Sub subn) w prod
      (w2, col.push d, bad || b1 || badAny prod || badAny w2)) (x, #[], bad)
    let (w, col, bad) := step
    let (d, b1) := dot36 subn w w
    let norm := a36Sqrt subn d
    let zero := (val36 subn norm).m = 0
    let qj := if zero then Array.replicate 64 0 else w.map fun e => a36Div subn e norm
    let full := (col.push norm) ++ Array.replicate (r - 1 - q.size) 0
    (q.push qj, t.push full, bad || b1 || a36Special norm || badAny qj)) (#[], #[], badAny (xs.foldl (· ++ ·) #[]))

/-- 1.0 and 2.0 in A36. -/
def one36 : Nat := 127 * 2 ^ 27
def two36 : Nat := 128 * 2 ^ 27

/-- One Jacobi rotation of columns p and q of K and J (R232 step 3). -/
def rotate36 (subn : Bool) (k j : Array (Array Nat)) (p q : Nat) : Array (Array Nat) × Array (Array Nat) × Bool :=
  let kp := k.getD p #[]
  let kq := k.getD q #[]
  let (a, b1) := dot36 subn kp kp
  let (b, b2) := dot36 subn kq kq
  let (g, b3) := dot36 subn kp kq
  let bad := b1 || b2 || b3
  if (val36 subn g).m = 0 && (val36 subn g).cls = .num then (k, j, bad)
  else
    let d := a36Sub subn b a
    let g2 := a36Mul subn two36 g
    let z := a36Div subn d g2
    let neg := bit z 35
    let absz := z % 2 ^ 35
    let zz := a36Mul subn z z
    let one1 := a36Add subn one36 zz
    let root := a36Sqrt subn one1
    let den := a36Add subn absz root
    let t0 := a36Div subn one36 den
    let t := if neg then t0 + 2 ^ 35 else t0
    let tt := a36Mul subn t t
    let one2 := a36Add subn one36 tt
    let root2 := a36Sqrt subn one2
    let c := a36Div subn one36 root2
    let s := a36Mul subn c t
    let bad := bad || [d, g2, z, zz, one1, root, den, t, tt, one2, root2, c, s].any a36Special
    let turn (x y : Array Nat) : Array Nat × Array Nat × Bool :=
      let cx := x.map (a36Mul subn c)
      let sy := y.map (a36Mul subn s)
      let sx := x.map (a36Mul subn s)
      let cy := y.map (a36Mul subn c)
      let nx := zipCols (a36Sub subn) cx sy
      let ny := zipCols (a36Add subn) sx cy
      (nx, ny, badAny cx || badAny sy || badAny sx || badAny cy || badAny nx || badAny ny)
    let (kp2, kq2, b4) := turn kp kq
    let (jp2, jq2, b5) := turn (j.getD p #[]) (j.getD q #[])
    ((k.setIfInBounds p kp2).setIfInBounds q kq2, (j.setIfInBounds p jp2).setIfInBounds q jq2, bad || b4 || b5)

/-- Insert a column number into the kept ones: norms descending, equal norms by ascending number (R232 step 4). -/
def insertNorm (nrm : Array Nat) (j : Nat) : List Nat → List Nat
  | [] => [j]
  | x :: xs => if nrm.getD x 0 < nrm.getD j 0 then j :: x :: xs else x :: insertNorm nrm j xs

/-- What recompression gives: the contents, RCAP and RINV (R232, R233). -/
structure Recomp where
  val  : TileVal
  rcap : Bool
  rinv : Bool

/-- recompress (R232, R233) on the columns of U and the rows of V; `source` is the dense reading written on failure. -/
def recompress (subn : Bool) (ftol : Nat) (us vs : Array (Array Nat)) (cap : Nat) (source : TileVal) : Recomp :=
  let r := us.size
  let (qu, tu, b1) := mgs subn us
  let (qv, tv, b2) := mgs subn vs
  -- K[i][j] is the Σ36 over t of TU[i][t] and TV[j][t]; T is held by columns
  let kd := (List.range r).map fun j => (List.range r).map fun i =>
    dot36 subn ((List.range r).map fun t => (tu.getD t #[]).getD i 0).toArray ((List.range r).map fun t => (tv.getD t #[]).getD j 0).toArray
  let k0 := (kd.map fun col => (col.map (·.1)).toArray).toArray
  let b3 := kd.any fun col => col.any (·.2)
  let j0 : Array (Array Nat) := ((List.range r).map fun c => ((List.range r).map fun i => if i = c then one36 else 0).toArray).toArray
  let pairs := (List.range r).flatMap fun p => ((List.range r).filter fun q => p < q).map fun q => (p, q)
  let (k, j, bad) := (List.range 6).foldl (fun (acc : Array (Array Nat) × Array (Array Nat) × Bool) _ =>
    pairs.foldl (fun (acc : Array (Array Nat) × Array (Array Nat) × Bool) pq =>
      let x := rotate36 subn acc.1 acc.2.1 pq.1 pq.2
      (x.1, x.2.1, acc.2.2 || x.2.2)) acc) (k0, j0, b1 || b2 || b3)
  let nd := k.map fun col => dot36 subn col col
  let nrm := nd.map fun d => a36Sqrt subn d.1
  let bad := bad || nd.any (·.2) || badAny nrm
  let big := nrm.foldl max 0
  let lim := a36Mul subn ftol big
  let bad := bad || a36Special lim
  let keep := (List.range r).foldl (fun l j => if lim % 2 ^ 35 < nrm.getD j 0 then insertNorm nrm j l else l) []
  let kept := keep.take cap
  let unew := kept.map fun h => (List.range 64).map fun e =>
    dot36 subn ((List.range r).map fun t => (qu.getD t #[]).getD e 0).toArray ((List.range r).map fun t => (k.getD h #[]).getD t 0).toArray
  let vnew := kept.map fun h => (List.range 64).map fun c =>
    dot36 subn ((List.range r).map fun t => (qv.getD t #[]).getD c 0).toArray ((List.range r).map fun t => (j.getD h #[]).getD t 0).toArray
  let bad := bad || unew.any (fun l => l.any (·.2)) || vnew.any fun l => l.any (·.2)
  if bad then { val := source.toDense subn, rcap := false, rinv := true }
  else
    let rk := kept.length
    let ua : Mat := (unew.map fun l => (l.map (·.1)).toArray).toArray
    let va : Mat := (vnew.map fun l => (l.map (·.1)).toArray).toArray
    { val := if rk = 0 then .zero else .pair rk (Mat.build 64 rk fun m h => ua.at h m) va,
      rcap := cap < keep.length, rinv := false }

end Sys2Proof.Machine
end

