-- ==== Sys2Proof/Machine/Matrix.lean ====
section
/-! DEFINITION. The M-stream instructions (07 R219 to R231): trap order, ply accounting, array steps and row moves. -/

namespace Sys2Proof.Machine

def causeTileStore : Nat := 0x16
def causeRank : Nat := 0x17

/-- The tile an operand names. -/
def zOf : Operand → Option Nat
  | .z n => some n
  | _ => none
/-- The tile destination. -/
def zdst (w : Ins) : Nat := match w.dst with
  | .z n => n
  | _ => 0

/-- FORMAT-MISMATCH of a tile source (R219). -/
def Ctx.tileCheck (c : Ctx) (w : Ins) (slot : Nat) : Option Trap :=
  match zOf (sourceAt w slot) with
  | some n => let t := (c.tile n).tag.toNat; if t = fmtA36 then none else some (tagTrap slot fmtA36 t)
  | none => none

/-- Plies a flight reserves (R213). -/
def Flight.reserved (f : Flight) : Nat := match f.eff with
  | .tile _ (.write _ _ _ _ _ need) => need
  | _ => 0

/-- A flight is a tile write (R213). -/
def Flight.tileWrite (f : Flight) : Bool := match f.eff with
  | .tile _ (.limit _) => false
  | .tile _ _ => true
  | _ => false

/-- FREE (R213): tile writes that a trap has captured are still in flight (R141, R274). -/
def Ctx.freePlies (c : Ctx) : Nat :=
  c.plyGrant - (c.z.toList.foldl (fun a t => a + t.held) 0 + c.flights.foldl (fun a f => a + f.reserved) 0 +
    ((c.saved.map (·.flights)).getD []).foldl (fun a f => a + f.reserved) 0)

/-- The content a tile source gives at issue. -/
def Ctx.tileVal (c : Ctx) (o : Operand) : TileVal := match zOf o with
  | some n => (c.tile n).val
  | none => .zero

/-- TILE-STORE-EXHAUSTED (R213, R270). -/
def Ctx.storeTrap (c : Ctx) (w : Ins) (need : Nat) : Option Trap :=
  if c.freePlies < need then
    some { cause := causeTileStore, aux := zdst w * 2 ^ 32 + need * 2 ^ 16 + c.freePlies }
  else none

/-- FALLBACK of FACTCTL (R215). -/
def Ctx.fallback (c : Ctx) : Bool := c.factctl.getLsbD 0

/-- RANK-OVERFLOW (R214, R270). -/
def Ctx.rankTrap (c : Ctx) (w : Ins) (r : Nat) : Option Trap :=
  let limit := (c.tile (zdst w)).limit
  if limit < r && !c.fallback then some { cause := causeRank, aux := zdst w * 2 ^ 32 + r * 2 ^ 8 + limit } else none

/-- A tile write of some need (R213): it waits in interlocked mode for the writes before it, traps, or goes on. -/
def State.tileWrite (s : State) (w : Ins) (need : Nat) (go : Unit → IssueRes) : IssueRes :=
  let c := s.ctx
  if !c.exposed && need ≠ 0 && c.flights.any Flight.tileWrite then .wait
  else match c.storeTrap w need with
    | some t => .trapIn s t
    | none => go ()

/-- The effect of a tile write. -/
def tileEffect (w : Ins) (v : TileVal) (need : Nat) (rcap rinv : Bool) : Effect :=
  .tile (zdst w) (.write v.rep.1 v.rep.2 v.plies rcap rinv need)

/-- Plies of a representation and rank (R213). -/
def needOf (rep : Nat × Nat) : Nat := if rep.1 = repDense then 64 else 2 * rep.2

/-- A result of a representation and rank, its value taken once nothing holds it back (R213, R214): a pair above the limit traps or
falls back to `dense`. -/
def State.tileResult (s : State) (w : Ins) (rep : Nat × Nat) (v dense : Unit → TileVal) : IssueRes :=
  let c := s.ctx
  let excess := rep.1 = repPair && (c.tile (zdst w)).limit < rep.2
  match c.rankTrap w rep.2 with
  | some t => .trapIn s t
  | none =>
    let need := if excess then 64 else needOf rep
    s.tileWrite w need fun _ => .ok s [tileEffect w (if excess then dense () else v ()) need false false] 0 (latBound w.lat)

/-- What an instruction reads whose result may be a pair above LIMIT: the header of its destination and FACTCTL (R214, R219). -/
def limitRes (w : Ins) : List Res := [.z (zdst w), .sys srFactctl]

/-- Every M instruction: its format checks, then its body; `extra` is what it reads beyond its operands (R23, R219). -/
def State.matrix (s : State) (i : Instr) (w : Ins) (check : Ctx → Option Trap) (extra : List Res)
    (body : State → Nat → Word → IssueRes) : Host.Outcome State Fault Refusal :=
  .next (s.issue i w profileHook extra (fun s => check s.ctx) (fun _ => true) body)

/-- The tile checks of SA, SB and SC (R219). -/
def Ctx.tilesCheck (c : Ctx) (w : Ins) : Option Trap := [0, 1, 2].findSome? (c.tileCheck w)

/-- Format, planes and alignment of an operand tile (R208). -/
def alignTile (flat : List Nat) (f p : Nat) (subn : Bool) : List Aligned := (tileRows flat).map fun r => alignRow r f p subn

/-- An array step joins the queue of the array under the issue number the instruction takes (R210). -/
def Ctx.enterArray (c : Ctx) (cost : Nat) : Ctx := { c with array := c.array ++ [(c.seqNext, cost, c.cycle + c.freeze)] }

/-- Latency of an array result (R210): its bound, or in interlocked mode when it is ready. -/
def Ctx.arrayLat (c : Ctx) (w : Ins) : Nat := if c.exposed then latBound w.lat else 1

/-- TMMA (R221). -/
def execTmma (w : Ins) (s : State) : Host.Outcome State Fault Refusal :=
  let (fb, pa, pb) := (tmmaPlanes (fmtOf w) w.imm.toNat).getD (0, 0, 0)
  s.matrix (.tmma w) w
    (fun c => ((c.slotCheck w 0 (fmtOf w)).orElse fun _ => c.slotCheck w 1 fb).orElse fun _ => c.tileCheck w 2) [.rowpred]
    fun s _ _ =>
      match s.ctx.portsBefore w true with
      | some t => .trap t
      | none =>
        s.tileWrite w 64 fun _ =>
          let s1 := s.readAhead w
          match [0, 1].findSome? (s1.ctx.portStopped w) with
          | some t => .trapIn s1 t
          | none =>
            let c := s1.ctx
            let as := alignTile (c.portTile w 0) (fmtOf w) pa c.subn
            let bs := alignTile (c.portTile w 1) fb pb c.subn
            let acc := (c.tileVal w.sc).read c.subn
            let v : TileVal := .dense (tmmaStep c.subn as bs acc c.rowpred)
            let s2 := s1.popPorts w
            .ok (s2.setCtx (s2.ctx.enterArray ((tmmaCost (fmtOf w) w.imm.toNat).getD 0))) [tileEffect w v 64 false false] 0
              (c.arrayLat w)

/-- The dense operand of TFMUL: elements past column 63 are zero, rows that ROWPRED leaves out are zero (R222). -/
def tfmulRows (flat : List Nat) (f p : Nat) (subn : Bool) (rowpred : Word) : List Aligned :=
  (tileRows flat).zipIdx.map fun (r, n) =>
    if rowpred.getLsbD n then
      let a := alignRow ((r.take 64) ++ List.replicate 448 0) f p subn
      if fmtKind f = .b1 then { a with m := (a.m.take 64) ++ List.replicate 448 0 } else a
    else { m := List.replicate 512 0, g := 0, special := false }

/-- TFMUL (R222). -/
def execTfmul (w : Ins) (s : State) : Host.Outcome State Fault Refusal :=
  let pb := (planesRead (fmtOf w) (bits w.imm.toNat 5 0)).getD 0
  s.matrix (.tfmul w) w (fun c => (c.tileCheck w 0).orElse fun _ => c.slotCheck w 1 (fmtOf w)) (limitRes w ++ [.rowpred]) fun s _ _ =>
    let c := s.ctx
    let v := c.tileVal w.sa
    let rank := v.rep.2
    let dense := v.rep.1 = repDense
    let excess := (c.tile (zdst w)).limit < rank
    match ([0, 1].findSome? (c.portKind w true)).orElse fun _ => if dense then some { cause := causeOperandBad } else none with
    | some t => .trap t
    | none =>
      match ([0, 1].findSome? (c.portSpent w)).orElse fun _ => c.rankTrap w rank with
      | some t => .trap t
      | none =>
        let need := if excess then 64 else 2 * rank
        s.tileWrite w need fun _ =>
          let s1 := s.readAhead w
          match [0, 1].findSome? (s1.ctx.portStopped w) with
          | some t => .trapIn s1 t
          | none =>
            let c := s1.ctx
            let rows := tfmulRows (c.portTile w 1) (fmtOf w) pb c.subn c.rowpred
            let res := match v with
              | .pair r u x => if excess then tfmulDense c.subn r u x rows else tfmulPair c.subn r u x rows
              | _ => .zero
            let s2 := s1.popPorts w
            .ok (s2.setCtx (s2.ctx.enterArray ((tfmulCost (fmtOf w) w.imm.toNat).getD 0))) [tileEffect w res need false false] 0
              (c.arrayLat w)

/-- A representation that an instruction on pairs refuses (R223, R224). -/
def pairsOnly (vs : List TileVal) : Option Trap :=
  if vs.any fun v => v.rep.1 = repDense then some { cause := causeOperandBad } else none

/-- Representation and rank of a sum (R223): the ranks of two pairs add, and a ZERO operand gives the other. -/
def sumRep (a b : TileVal) : Nat × Nat :=
  if a.rep.1 = repPair && b.rep.1 = repPair then (repPair, a.rep.2 + b.rep.2) else if a.rep.1 = repPair then a.rep else b.rep

/-- TFADD (R223). -/
def execTfadd (w : Ins) (s : State) : Host.Outcome State Fault Refusal :=
  s.matrix (.tfadd w) w (fun c => c.tilesCheck w) (limitRes w) fun s _ _ =>
    let c := s.ctx
    let a := c.tileVal w.sa
    let b := c.tileVal w.sb
    match pairsOnly [a, b] with
    | some t => .trap t
    | none =>
      let v (_ : Unit) : TileVal := match a, b with
        | .pair ra ua va, .pair rb ub vb => tfaddPair ra ua va rb ub vb
        | .pair .., _ => a
        | _, x => x
      s.tileResult w (sumRep a b) v fun u => (v u).toDense c.subn

/-- TPMUL (R224). -/
def execTpmul (w : Ins) (s : State) : Host.Outcome State Fault Refusal :=
  s.matrix (.tpmul w) w (fun c => c.tilesCheck w) (limitRes w) fun s _ _ =>
    let c := s.ctx
    let a := c.tileVal w.sa
    let b := c.tileVal w.sb
    match pairsOnly [a, b] with
    | some t => .trap t
    | none =>
      match a, b with
      | .pair ra ua va, .pair rb ub vb =>
        s.tileResult w (repPair, min ra rb) (fun _ => tpmulPair c.subn ra ua va rb ub vb) fun _ => tpmulDense c.subn ra ua va rb ub vb
      | _, _ => s.tileResult w (repZero, 0) (fun _ => .zero) fun _ => .zero

/-- TADD (R225). -/
def execTadd (w : Ins) (s : State) : Host.Outcome State Fault Refusal :=
  s.matrix (.tadd w) w (fun c => c.tilesCheck w) [] fun s _ _ =>
    let c := s.ctx
    let a := c.tileVal w.sa
    let b := c.tileVal w.sb
    let zero := a.rep.1 = repZero && b.rep.1 = repZero
    let v (_ : Unit) : TileVal :=
      if zero then .zero
      else
        let x := a.read c.subn
        let y := b.read c.subn
        .dense (Mat.build 64 64 fun m n => a36Add c.subn (x.at m n) (y.at m n))
    s.tileResult w (if zero then repZero else repDense, 0) v v

/-- TMOV (R225). -/
def execTmov (w : Ins) (s : State) : Host.Outcome State Fault Refusal :=
  s.matrix (.tmov w) w (fun c => c.tilesCheck w) (limitRes w) fun s _ _ =>
    let v := s.ctx.tileVal w.sa
    s.tileResult w v.rep (fun _ => v) fun _ => v.toDense s.ctx.subn

/-- TDENSE (R225). -/
def execTdense (w : Ins) (s : State) : Host.Outcome State Fault Refusal :=
  s.matrix (.tdense w) w (fun c => c.tilesCheck w) [] fun s _ _ =>
    let v (_ : Unit) := (s.ctx.tileVal w.sa).toDense s.ctx.subn
    s.tileResult w (repDense, 0) v v

/-- The identity of order 64 as columns. -/
def identityCols : Array (Array Nat) :=
  ((List.range 64).map fun c => ((List.range 64).map fun i => if i = c then one36 else 0).toArray).toArray

/-- The columns of U and of the transpose of V that recompression starts from (R231). -/
def startFactors (v : TileVal) : Array (Array Nat) × Array (Array Nat) :=
  match v with
  | .zero => (#[], #[])
  | .dense a => (((List.range 64).map fun j => ((List.range 64).map fun m => a.at m j).toArray).toArray, identityCols)
  | .pair r u x =>
    (((List.range r).map fun j => ((List.range 64).map fun m => u.at m j).toArray).toArray,
     ((List.range r).map fun j => ((List.range 64).map fun n => x.at j n).toArray).toArray)

/-- TRECMP and TFACT (R231 to R233): `refused` is the representation that raises ILLEGAL-OPERAND. -/
def State.recompressTile (s : State) (i : Instr) (w : Ins) (refused : Nat) : Host.Outcome State Fault Refusal :=
  s.matrix i w (fun c => c.tilesCheck w) [.z (zdst w), .sys srFtol] fun s _ _ =>
    let c := s.ctx
    let v := c.tileVal w.sa
    if v.rep.1 = refused then .trap { cause := causeOperandBad }
    else
      s.tileWrite w 64 fun _ =>
        let limit := (c.tile (zdst w)).limit
        let n := w.imm.toNat
        let cap := if n = 0 then limit else min limit n
        let (us, vs) := startFactors v
        let r : Recomp := if v.rep.1 = repZero then { val := .zero, rcap := false, rinv := false }
          else recompress c.subn c.ftol.toNat us vs cap v
        .ok s [tileEffect w r.val 64 r.rcap r.rinv] 0 (latBound w.lat)

/-- TRECMP (R231). -/
def execTrecmp (w : Ins) (s : State) : Host.Outcome State Fault Refusal := s.recompressTile (.trecmp w) w repDense
/-- TFACT (R231). -/
def execTfact (w : Ins) (s : State) : Host.Outcome State Fault Refusal := s.recompressTile (.tfact w) w repPair

/-- TZERO (R226). -/
def execTzero (w : Ins) (s : State) : Host.Outcome State Fault Refusal :=
  s.matrix (.tzero w) w (fun _ => none) (if bits w.imm.toNat 1 0 < 2 then [] else limitRes w) fun s _ _ =>
    let form := bits w.imm.toNat 1 0
    let r := bits w.imm.toNat 13 8
    let dense : TileVal := .dense (Mat.build 64 64 fun _ _ => 0)
    let v : TileVal := if form = 0 then .zero else if form = 1 then dense
      else .pair r (Mat.build 64 r fun _ _ => 0) (Mat.build r 64 fun _ _ => 0)
    s.tileResult w v.rep (fun _ => v) fun _ => dense

/-- TFREE (R226). -/
def execTfree (w : Ins) (s : State) : Host.Outcome State Fault Refusal :=
  s.matrix (.tfree w) w (fun _ => none) [] fun s _ _ => .ok s [.tile (zdst w) .free] 0 (latBound w.lat)

/-- TLIMIT (R226). -/
def execTlimit (w : Ins) (s : State) : Host.Outcome State Fault Refusal :=
  s.matrix (.tlimit w) w (fun _ => none) [] fun s _ _ => .ok s [.tile (zdst w) (.limit w.imm.toNat)] 0 (latBound w.lat)

/-- A header in the layout of TRANK (R227). -/
def headerWord (t : Tile) (free : Nat) : Nat :=
  free * 2 ^ 48 + t.held * 2 ^ 32 + t.tag.toNat * 2 ^ 24 + t.limit * 2 ^ 16 + t.rep * 2 ^ 8 + t.rank

/-- TRANK (R227). -/
def execTrank (w : Ins) (s : State) : Host.Outcome State Fault Refusal :=
  .next (s.issue (.trank w) w profileHook [] noEarly (fun _ => true) fun s st _ =>
    let t := match zOf w.sa with
      | some n => s.ctx.tile n
      | none => Tile.reset
    let v := BitVec.ofNat 64 (headerWord t s.ctx.freePlies)
    .ok s (s.ctx.result st w.dst v) v (latBound w.lat))

/-- TPRED (R220). -/
def execTpred (w : Ins) (s : State) : Host.Outcome State Fault Refusal :=
  .next (s.issue (.tpred w) w profileHook [] noEarly (fun _ => true) fun s st tk =>
    .ok s [.command (.rowpred (s.srcA st tk w))] 0 (latBound w.lat))

/-- The alignment of a tile's base and stride (R228). -/
def tileAlign (ea : Nat) (stride : Word) (f : Nat) : Option Trap := strideTrap ea (packedAlign (fmtWidth f)) stride

/-- Conversions without a fault: the policy of TLD propagates (R228). -/
def convertPlain (b src dst pol : Nat) (subn : Bool) : Nat :=
  match convertValue b src dst pol 0 subn with
  | .ok x => x
  | .error _ => 0

/-- Load the rows of a tile: the lowest failing byte wins (R228). -/
def State.loadRows (s : State) (st : Nat) (spad : Bool) (n : Nat) (addr : Nat → Int) :
    Option MemFault × (List (List Byte) × State) :=
  (List.range 64).foldl (fun (acc : Option MemFault × (List (List Byte) × State)) m =>
    match acc.2.2.loadSpace st spad (exactAddr (addr m)) n with
    | (.error f, s1) => (lowerFault acc.1 f, (acc.2.1 ++ [[]], s1))
    | (.ok bs, s1) => (acc.1, (acc.2.1 ++ [bs], s1))) (none, ([], s))

/-- TLD (R228). -/
def execTld (w : Ins) (s : State) : Host.Outcome State Fault Refusal :=
  s.matrix (.tld w) w (fun _ => none) [] fun s st tk =>
    let f := fmtOf w
    let fw := fmtWidth f
    let ea := effAddr (s.srcA st tk w) w
    let stride := s.srcB st tk w
    match tileAlign ea stride f with
    | some t => .trap t
    | none =>
      s.tileWrite w 64 fun _ =>
        match s.loadRows st (isSpad w) (8 * fw) fun m => (ea : Int) + (m : Int) * stride.toInt with
        | (some e, (_, s1)) => .trapIn s1 e.trap
        | (none, (rows, s1)) =>
          let subn := s1.ctx.subn
          let v : TileVal := .dense (rows.map fun bs =>
            ((unpackElems fw 64 bs).map fun e => convertPlain e f fmtA36 0xAA subn).toArray).toArray
          .ok s1 [tileEffect w v 64 false false] 0 (latBound w.lat)

/-- The stored elements of a tile, or the lowest element a fault policy stops (R229). -/
def storeElements (a : Mat) (f pol : Nat) (subn : Bool) : Except (Nat × Cond) (List Nat) :=
  if f = fmtA36 then .ok a.flat
  else
    let rs := a.flat.zipIdx.map fun (e, i) => (convertValue e fmtA36 f pol 0 subn, i)
    match rs.findSome? fun (r, i) => match r with
        | .error c => some (i, c)
        | .ok _ => none with
    | some x => .error x
    | none => .ok (rs.map fun (r, _) => match r with
        | .ok b => b
        | .error _ => 0)

/-- The cells of the rows of a tile (R229): where rows overlap, the higher row's prevail (notes/assumptions/130). -/
def State.storeRows (s : State) (spad : Bool) (fw : Nat) (es : List Nat) (addr : Nat → Int) :
    Option MemFault × (List StoreCell × State) :=
  (List.range 64).foldl (fun (acc : Option MemFault × (List StoreCell × State)) m =>
    match acc.2.2.storeSpace spad (exactAddr (addr m)) (wholeBytes (packElems fw ((es.drop (64 * m)).take 64))) with
    | (.error f, s1) => (lowerFault acc.1 f, (acc.2.1, s1))
    | (.ok cs, s1) => (acc.1, (acc.2.1 ++ cs, s1))) (none, ([], s))

/-- TST (R229). -/
def execTst (w : Ins) (s : State) : Host.Outcome State Fault Refusal :=
  .next (s.issue (.tst w) w profileHook [.sys srVcvtpol] (fun s => s.ctx.tileCheck w 1) (fun _ => true) fun s st tk =>
    let f := fmtOf w
    let ea := effAddr (s.srcA st tk w) w
    let stride := s.srcC st tk w
    match tileAlign ea stride f with
    | some t => .trap t
    | none =>
      let c := s.ctx
      match storeElements ((c.tileVal w.sb).read c.subn) f c.vcvtpol.toNat c.subn with
      | .error (i, cond) => .trap { cause := causePolicy, aux := cond.code * 2 ^ 16 + i }
      | .ok es =>
        match s.storeRows (isSpad w) (fmtWidth f) es fun m => (ea : Int) + (m : Int) * stride.toInt with
        | (some e, (_, s1)) => .trapIn s1 e.trap
        | (none, (cs, s1)) => .ok s1 [.store (isSpad w) cs] 0 (latBound w.lat))

/-- The selector of TRDROW and TWRROW (R230). -/
def selPart (w : Ins) : Nat := bits w.imm.toNat 7 6
def selIndex (w : Ins) : Nat := bits w.imm.toNat 5 0

/-- ILLEGAL-OPERAND of a selector on some contents (R230). -/
def selTrap (w : Ins) (v : TileVal) : Option Trap :=
  let bad := if selPart w = 0 then v.rep.1 = repPair else (v.rep.1 ≠ repPair || v.rep.2 ≤ selIndex w)
  if bad || fmtOf w = fmtA36 then some { cause := causeOperandBad } else none

/-- The row or column a selector names (R230). -/
def selRow (w : Ins) (v : TileVal) : List Nat :=
  (List.range 64).map fun i => match v with
    | .zero => 0
    | .dense a => a.at (selIndex w) i
    | .pair _ u x => if selPart w = 1 then u.at i (selIndex w) else x.at (selIndex w) i

/-- TRDROW (R230). The port is looked at before the tile (notes/assumptions/111). -/
def execTrdrow (w : Ins) (s : State) : Host.Outcome State Fault Refusal :=
  let port := ((operandPort w.sa).map (·.1)).getD 0
  .next (s.issue (.trdrow w) w profileHook [.port port, .sys srVcvtpol]
    (fun s => unlessA36 w ((s.ctx.pushCheck w port).orElse fun _ => s.ctx.tileCheck w 1))
    (fun _ => true)
    fun s _ _ =>
      let c := s.ctx
      let p := c.port port
      let r := Nest.ofBits p.record
      let f := fmtOf w
      let v := c.tileVal w.sb
      match (selTrap w v).orElse fun _ => c.pushTrap w port with
      | some t => .trap t
      | none =>
          let rs := (selRow w v).map fun e => convertValue e fmtA36 f c.vcvtpol.toNat 0 c.subn
          match rs.zipIdx.findSome? fun x => match x.1 with
              | .error cond => some (x.2, cond)
              | .ok _ => none with
          | some (i, cond) => .trap { cause := causePolicy, aux := cond.code * 2 ^ 16 + i }
          | none =>
            let lanes : Vector Lane 64 := Vector.ofFn fun (j : Fin 64) => match rs.getD j.val (.ok 0) with
              | .ok b => laneForm f b
              | .error _ => 0
            match pushCells c r p.next lanes (BitVec.allOnes 64) with
            | .error off => .trap { cause := causeData, addr := some off }
            | .ok cells =>
              let next := p.next + 64
              .ok (s.setCtx (c.setPort port { p with next, state := if r.total ≤ next then .ended else .write }))
                [.store true (joinCells cells)] 0 (latBound w.lat))

/-- Replace the row or column a selector names (R230). -/
def putRow (w : Ins) (v : TileVal) (x : List Nat) : TileVal :=
  let xs := x.toArray
  match v with
  | .zero => .zero
  | .dense a => .dense (Mat.build 64 64 fun m n => if m = selIndex w then xs.getD n 0 else a.at m n)
  | .pair r u y =>
    if selPart w = 1 then .pair r (Mat.build 64 r fun m j => if j = selIndex w then xs.getD m 0 else u.at m j) y
    else .pair r u (Mat.build r 64 fun j n => if j = selIndex w then xs.getD n 0 else y.at j n)

/-- TWRROW (R230): zd is read as a source (slot 3). -/
def execTwrrow (w : Ins) (s : State) : Host.Outcome State Fault Refusal :=
  s.matrix (.twrrow w) w
    (fun c => unlessA36 w ((c.slotCheck w 0 (fmtOf w)).orElse fun _ =>
      let t := (c.tile (zdst w)).tag.toNat
      if t = fmtA36 then none else some (tagTrap 3 fmtA36 t))) [.z (zdst w)]
    fun s st tk =>
      let c := s.ctx
      let v := (c.tile (zdst w)).val
      match (selTrap w v).orElse fun _ => if v.rep.1 = repZero then some { cause := causeOperandBad } else c.portsBefore w false with
      | some t => .trap t
      | none =>
        s.tileWrite w v.need fun _ =>
          let s1 := s.readAhead w
          match s1.ctx.portStopped w 0 with
          | some t => .trapIn s1 t
          | none =>
            let lanes := s1.laneSrc st tk w 0
            let xs := lanes.toList.map fun l => convertPlain (laneBits (fmtOf w) l) (fmtOf w) fmtA36 0xAA c.subn
            .ok (s1.popPorts w) [tileEffect w (putRow w v xs) v.need false false] 0 (latBound w.lat)

end Sys2Proof.Machine
end

