-- ==== Sys2Proof/Machine/Sequencer.lean ====
section
/-! DEFINITION. The transfer sequencer (08): records and their checks, rings, the commands of S, and the engine's own steps:
starts, units and completions. -/

namespace Sys2Proof.Machine

def causeRecord : Nat := 0x18
def causeExtent : Nat := 0x19

def opNop : Nat := 0
def opCopy : Nat := 1
def opConvert : Nat := 2
def opToplanes : Nat := 3
def opTorows : Nat := 4
def opGather : Nat := 5
def opScatter : Nat := 6
def opZerofill : Nat := 7
def opBtgather : Nat := 8
def opRingmark : Nat := 9

/-- How one side of an op is reached (R243). -/
inductive Side where
  | none | walked | tile | entries | blocks
  deriving DecidableEq, Repr

/-- The source and destination sides of an op (R243). -/
def seqSides (op : Nat) : Side × Side :=
  if op = opCopy || op = opConvert then (.walked, .walked)
  else if op = opToplanes then (.walked, .tile)
  else if op = opTorows then (.tile, .walked)
  else if op = opGather then (.entries, .walked)
  else if op = opScatter then (.walked, .entries)
  else if op = opZerofill then (.none, .walked)
  else if op = opBtgather then (.blocks, .walked)
  else (.none, .none)

/-- Alignment of a format on a walked side (R242). -/
def seqAlign (f : Nat) : Nat := if fmtWidth f % 8 = 0 then fmtWidth f / 8 else 8 * fmtWidth f

/-- One side of a record meets R242 and R243. -/
def sideOk (side : Side) (fmt base count : Nat) (ss : List Int) : Bool :=
  let table (n : Nat) : Bool := fmtNamed fmt && baseOk base && baseAddr base % n = 0 && (ss.drop 1).all (alignedToN n)
  match side with
  | .none => fmt = 0 && base = 0 && ss.all (· = 0)
  | .walked =>
    fmtNamed fmt && baseOk base && baseAddr base % seqAlign fmt = 0 && ss.all (alignedToN (seqAlign fmt)) &&
      (fmtWidth fmt % 8 = 0 || count % 64 = 0)
  | .tile => baseSpad base && ss.headD 0 = 0 && table 128
  | .entries => table 8
  | .blocks => table 16
where
  alignedToN (n : Nat) (x : Int) : Bool := x % (n : Int) = 0

/-- A released record keeps the rules of R242 and R243. -/
def Nest.recordOk (r : Nest) : Bool :=
  if r.op = opNop then true
  else if r.op = opRingmark then
    { r with trips := [0, 0, 0, 0], stage := 0, ring := 0, last := false } ==
      { Nest.ofNat 0 with op := opRingmark, trips := [0, 0, 0, 0] }
  else
    let sides := seqSides r.op
    r.op ≤ opRingmark && sideOk sides.1 r.sfmt r.sbase r.count r.sstride && sideOk sides.2 r.dfmt r.dbase r.count r.dstride &&
      (!r.vmask || r.op = opToplanes) &&
      (!(r.op = opToplanes || r.op = opTorows) || (r.count = 512 && r.trips.getD 0 0 = 64)) &&
      (r.op ≠ opCopy || r.dfmt = r.sfmt) &&
      (r.op ≠ opBtgather || (r.trips.drop 1).foldl (· * ·) 1 ≤ 256)

/-- A record closes a slot of its ring (R245). -/
def Nest.closes (r : Nest) : Bool := r.op = opRingmark || (r.op ≠ opNop && r.last)

/-- Walk elements in one unit (R260). -/
def Nest.unitSize (r : Nest) : Nat :=
  if r.op = opToplanes || r.op = opTorows then 64 * 512
  else if (r.sfmt ≠ 0 && fmtWidth r.sfmt % 8 ≠ 0) || fmtWidth r.dfmt % 8 ≠ 0 then 64 else 1

/-- Units of a record (R257, R260). -/
def Nest.units (r : Nest) : Nat :=
  if r.op = opNop || r.op = opRingmark then 0 else (r.total + r.unitSize - 1) / r.unitSize

def Ctx.slotAt (c : Ctx) (i : Nat) : SeqSlot :=
  vget { record := 0, state := .empty, order := 0, checked := false, invalid := false } c.seq.slots i
def Ctx.setSlotAt (c : Ctx) (i : Nat) (x : SeqSlot) : Ctx := { c with seq := { c.seq with slots := vset c.seq.slots i x } }
def SeqSlot.nest (x : SeqSlot) : Nest := Nest.ofBits x.record

/-- A released record that has not completed (R140). -/
def SlotState.pending : SlotState → Bool
  | .released => true
  | .running => true
  | .faulted => true
  | _ => false

/-- Slots in a state. -/
def Ctx.slotsIn (c : Ctx) (p : SlotState → Bool) : List Nat := (List.range 64).filter fun i => p (c.slotAt i).state

/-- The position of a unit's first element (R261, R272). -/
def Nest.position (r : Nest) (index unit : Nat) : SeqPart :=
  let (is, e) := if r.units = 0 then ([0, 0, 0, 0], 0) else r.indices (unit * r.unitSize)
  { index, cond := 0, row := 0, col := 0, e, i0 := is.getD 0 0, i1 := is.getD 1 0, i2 := is.getD 2 0, i3 := is.getD 3 0, n := 0 }

/-- A failure of a unit: cause, address where it has one, AUX, and the extents or policy part (R261). -/
structure UnitFault where
  cause : Nat
  addr  : Option Nat := none
  aux   : Nat := 0
  cond  : Nat := 0
  row   : Nat := 0
  col   : Nat := 0
  n     : Nat := 0
  deriving DecidableEq, Repr

/-- The engine fault of a record (R41, R261, R277). -/
def seqFault (r : Nest) (index unit : Nat) (f : UnitFault) : Fault1 :=
  { cause := f.cause, origin := 5, pc := 0, word := 0, aux := f.aux, addr := f.addr, straddle := false, imprecise := true,
    redo := none, cbsel := none,
    seqPart := some { r.position index unit with cond := f.cond, row := f.row, col := f.col, n := f.n } }

/-- A record becomes FAULTED with RECORD-INVALID (R240, R245). -/
def Ctx.breakRecord (c : Ctx) (i : Nat) : Ctx := c.setSlotAt i { c.slotAt i with state := .faulted, invalid := true, checked := true }

/-- The RECORD-INVALID of a record. -/
def Ctx.recordFault (c : Ctx) (i : Nat) : Fault1 := seqFault (c.slotAt i).nest i 0 { cause := causeRecord }

/-- A record that is found invalid as it comes to start, or again on the return of R142, faults at once (R240, R245). -/
def Ctx.invalidRecord (c : Ctx) (i : Nat) : Ctx := { c.breakRecord i with faults := c.faults ++ [c.recordFault i] }

/-- The cycle has come in which the RECORD-INVALID of a release is raised (R240). -/
def Ctx.recordDue (c : Ctx) : Bool := c.seq.raised.any fun r => r.2 ≤ c.cycle

/-- The RECORD-INVALID of a release is raised, once its cycle has come (R240). -/
def Ctx.raiseRecord (c : Ctx) : Ctx := match c.seq.raised with
  | some (i, cycle) => if cycle ≤ c.cycle then { c with seq := { c.seq with raised := none }, faults := c.faults ++ [c.recordFault i] } else c
  | none => c

/-- Release a record and check it, if none is FAULTED (R239, R240): the fault of one that breaks a rule comes a cycle later. The
order of release is that of the cycles (R241). -/
def Ctx.releaseRecord (c : Ctx) (i : Nat) : Ctx :=
  let x := c.slotAt i
  let faulted := !(c.slotsIn (· = .faulted)).isEmpty
  let c := c.setSlotAt i { x with state := .released, order := c.cycle, checked := !faulted }
  if faulted || x.nest.recordOk then c
  else { c.breakRecord i with seq := { (c.breakRecord i).seq with raised := some (i, c.cycle + 1) } }

/-- Release, in ascending index, the LOADED records whose STAGE is at or below the counter (R239). -/
def Ctx.releaseStage (c : Ctx) : Ctx :=
  ((List.range 64).filter fun i => (c.slotAt i).state = .loaded && (c.slotAt i).nest.stage ≤ c.seq.stage).foldl
    (fun c i => c.releaseRecord i) c

/-- Load records from slot `idx` up (R236, R239). -/
def Ctx.loadRecords (c : Ctx) (idx : Nat) (recs : List (BitVec 512)) : Ctx :=
  recs.zipIdx.foldl (fun c (p : BitVec 512 × Nat) =>
    c.setSlotAt (idx + p.2) { record := p.1, state := .loaded, order := 0, checked := false, invalid := false }) c

/-- The sequencer of a context that begins to run (R237, R238). -/
def Ctx.startSequencer (c : Ctx) (recs : List (BitVec 512)) : Ctx :=
  let empty : SeqSlot := { record := 0, state := .empty, order := 0, checked := false, invalid := false }
  let c := { c with
    seq := { slots := Vector.replicate 64 empty, stage := 0, unit := 0, captured := [], entry := none, held := [],
             startCycle := c.cycle, raised := none }
    rings := Vector.replicate 16 { slots := 0, rp := 0, wp := 0, filled := 0 } }
  (c.loadRecords 0 recs).releaseStage

def Ctx.ring (c : Ctx) (n : Nat) : Ring := vget { slots := 0, rp := 0, wp := 0, filled := 0 } c.rings n
def Ctx.setRing (c : Ctx) (n : Nat) (r : Ring) : Ctx := { c with rings := vset c.rings n r }

/-- The ring an operand names. -/
def ringOf : Operand → Nat
  | .h n => n
  | _ => 0

/-- A command of S to the sequencer (R239). -/
def Effect.seqCommand : Effect → Bool
  | .command (.xsched _ _) => true
  | .command (.xstage _) => true
  | .command (.ringset _ _) => true
  | _ => false

/-- A command of S to the sequencer that has not taken effect (R239, R262). -/
def Ctx.seqBusy (c : Ctx) : Bool := c.flights.any fun f => f.eff.seqCommand

/-- The stage counter as S's commands leave it, the ones in flight included: what XSTAGE compares with (R139; notes/assumptions/127). -/
def Ctx.stageAhead (c : Ctx) : Nat := c.flights.foldl (fun n f => match f.eff with
  | .command (.xstage m) => max n m
  | _ => n) c.seq.stage

/-- The records of some slots that have been released and not completed (R139). -/
def Ctx.activeIn (c : Ctx) (p : Nat → Bool) : List Nat := (c.slotsIn SlotState.pending).filter p

/-- A later command of S lands no earlier than an earlier one (R239). -/
def Ctx.seqLat (c : Ctx) (lat : Nat) : Nat :=
  c.flights.foldl (fun l f => if f.eff.seqCommand then max l (f.land - c.cycle) else l) lat

/-- Records of 64 bytes each. -/
def splitRecords : List Byte → Nat → List (BitVec 512)
  | _, 0 => []
  | bs, k + 1 => BitVec.ofNat 512 (bytesNat (bs.take 64)) :: splitRecords (bs.drop 64) k

/-- XSCHED (R139, R239, R262): the records are read at issue. -/
def execXsched (w : Ins) (s : State) : Host.Outcome State Fault Refusal :=
  s.run (.xsched w) w noEarly fun s st tk =>
    let a := (s.srcA st tk w).toNat
    let idx := bits w.imm.toNat 5 0
    let cnt := bits w.imm.toNat 12 6
    let c := s.ctx
    let range := fun i => idx ≤ i && i < idx + cnt
    if cnt = 0 || 64 < idx + cnt then .trap { cause := causeOperand }
    else match alignTrap a 64 with
      | some t => .trap t
      | none =>
        if c.handler && c.seqBusy then .wait
        else if c.handler && (c.activeIn range).any (fun i => (c.slotAt i).state ≠ .faulted) then .trap { cause := causeOperand }
        else if !c.handler && (c.seqBusy || !(c.activeIn range).isEmpty) then .wait
        else match (s.forceStores fun f => f.stream = st).loadVirt st a (64 * cnt) with
          | (.error f, s1) => .trapIn s1 f.trap
          | (.ok bs, s1) => .ok s1 [.command (.xsched idx (splitRecords bs cnt))] 0 (latBound w.lat)

/-- XSTAGE (R139, R140, R239). -/
def execXstage (w : Ins) (s : State) : Host.Outcome State Fault Refusal :=
  s.run (.xstage w) w noEarly fun s st _ =>
    let n := w.imm.toNat
    if n < s.ctx.stageAhead || 4095 < n then .trap { cause := causeOperand }
    else .ok (s.forceStores fun f => f.stream = st) [.command (.xstage n)] 0 (s.ctx.seqLat (latBound w.lat))

/-- An earlier ring command of the stream that names a ring has not taken effect (R247). -/
def Ctx.ringWaits (c : Ctx) (st n : Nat) : Bool := c.pending st (.ring n)

/-- RINGSET (R139, R247, R262). -/
def execRingset (w : Ins) (s : State) : Host.Outcome State Fault Refusal :=
  s.run (.ringset w) w noEarly fun s st _ =>
    let c := s.ctx
    let h := ringOf w.sa
    let n := w.imm.toNat
    let named := c.activeIn fun i => (c.slotAt i).nest.ring = h && (c.slotAt i).nest.op ≠ opNop
    if n < 1 || 256 < n then .trap { cause := causeOperand }
    else if c.ringWaits st h || c.seqBusy then .wait
    else if !named.isEmpty then (if c.handler then .trap { cause := causeOperand } else .wait)
    else .ok s [.command (.ringset h n)] 0 (latBound w.lat)

/-- AWFILL (R139, R140, R246, R247). -/
def execAwfill (w : Ins) (s : State) : Host.Outcome State Fault Refusal :=
  s.run (.awfill w) w noEarly fun s st _ =>
    let c := s.ctx
    let h := ringOf w.sa
    let n := w.imm.toNat
    let r := c.ring h
    if c.ringWaits st h || r.slots = 0 then .wait
    else if n = 0 || r.slots < n then .trap { cause := causeOperand }
    else if r.filled < n then .wait
    else
      let v := BitVec.ofNat 64 r.rp
      .ok s (c.result st w.dst v) v (latBound w.lat)

/-- RLSLOT (R139, R140, R246). -/
def execRlslot (w : Ins) (s : State) : Host.Outcome State Fault Refusal :=
  s.run (.rlslot w) w noEarly fun s st _ =>
    let c := s.ctx
    let h := ringOf w.sa
    let n := w.imm.toNat
    let r := c.ring h
    if c.ringWaits st h then .wait
    else if n = 0 || (r.slots ≠ 0 && r.slots < n) || r.filled < n then .trap { cause := causeOperand }
    else .ok (s.setCtx (c.setRing h { r with rp := (r.rp + n) % r.slots, filled := r.filled - n })) [] 0 (latBound w.lat)

/-- Sequencer status (R140). -/
def Ctx.seqStatus (c : Ctx) : Nat :=
  ((c.slotsIn (· = .faulted)).headD 0xFFFF) * 2 ^ 32 + (c.slotsIn SlotState.pending).length * 2 ^ 16 + c.seq.stage

/-- XSTAT (R140, R247). -/
def execXstat (w : Ins) (s : State) : Host.Outcome State Fault Refusal :=
  s.run (.xstat w) w noEarly fun s st _ =>
    let c := s.ctx
    let done (v : Nat) : IssueRes := .ok s (c.result st w.dst (BitVec.ofNat 64 v)) (BitVec.ofNat 64 v) (latBound w.lat)
    match w.sa with
    | .h h =>
      let r := c.ring h
      if c.ringWaits st h then .wait
      else done (r.slots * 2 ^ 48 + r.filled * 2 ^ 32 + r.wp * 2 ^ 16 + r.rp)
    | _ => done c.seqStatus

/-- The effect of a landing sequencer command (R239, R262). -/
def Ctx.landSeq (c : Ctx) : Command → Ctx
  | .xsched idx recs =>
    let c := c.loadRecords idx recs
    ((List.range recs.length).filter fun i => (c.slotAt (idx + i)).nest.stage ≤ c.seq.stage).foldl
      (fun c i => c.releaseRecord (idx + i)) c
  | .xstage n => if n ≤ c.seq.stage then c else { c with seq := { c.seq with stage := n } }.releaseStage
  | .ringset h n => c.setRing h { slots := n, rp := 0, wp := 0, filled := 0 }
  | _ => c

/-- A place an engine reads or writes: a scratchpad offset, a virtual address, or an address in a key-value block (R158, R256). -/
inductive Loc where
  | spad (a : Int)
  | virt (a : Int)
  | block (base : Nat) (a : Int)
  deriving DecidableEq, Repr

/-- A base with an offset added (R158). -/
def baseLoc (b : Nat) (d : Int) : Loc :=
  if baseSpad b then .spad (bits b 20 0 + d) else .virt (baseAddr b + d)

def Loc.addr : Loc → Int
  | .spad a => a
  | .virt a => a
  | .block _ a => a

def Loc.plus (l : Loc) (d : Int) : Loc := match l with
  | .spad a => .spad (a + d)
  | .virt a => .virt (a + d)
  | .block b a => .block b (a + d)

/-- The address an address fault records (R261): 64 bits. -/
def faultAddr (a : Int) : Nat := wrapInt a 64

/-- Read bytes for an engine (R158, R256, R258), one access of the scratchpad's banks for each element read (R152;
notes/assumptions/126). -/
def State.engineRead (s : State) (l : Loc) (n : Nat) : Except UnitFault (List Byte) × State :=
  match l with
  | .spad a =>
    if 0 ≤ a && a + n ≤ s.ctx.spadLimit then
      (.ok (s.spadRead s.focus (s.ctx.spbase + a.toNat) n), s.askBanks 12 [(a.toNat, n)])
    else (.error { cause := causeData, addr := some (if a < 0 then faultAddr a else max a.toNat s.ctx.spadLimit) }, s)
  | .virt a =>
    if !(0 ≤ a && a + n ≤ (2 ^ 47 : Nat)) then
      (.error { cause := causeData, addr := some (if a < 0 then faultAddr a else max a.toNat (2 ^ 47)) }, s)
    else match s.translateRange s.focus s.asn a.toNat .read (pageFuel n) n with
      | (.error f, s1) => (.error { cause := f.cause, addr := some f.addr }, s1)
      | (.ok ps, s1) =>
        match s1.pieceFault s1.focus s1.asn false true ps with
        | some f => (.error { cause := f.cause, addr := some f.addr }, s1)
        | none =>
          let r := s1.readPieces s1.focus s1.asn ps
          (.ok r.1, r.2)
  | .block base a =>
    if !((base : Int) ≤ a && a + n ≤ (base + 65536 : Nat)) then
      (.error { cause := causeData, addr := some (if a < base then faultAddr a else max a.toNat (base + 65536)) }, s)
    else match s.ctx.task with
      | none => (.error { cause := causeProtection, addr := some (faultAddr a) }, s)
      | some t =>
        if !s.blockGranted t.part t.region base then (.error { cause := causeProtection, addr := some (faultAddr a) }, s)
        else match s.die.poisonIn a.toNat n with
          | some w => (.error { cause := causePoisoned, addr := some (max w a.toNat) }, s)
          | none =>
            let r := s.dieRead a.toNat n
            (.ok r.1, r.2)

/-- Cells that write bytes and masks at a place, or the fault of its checks (R158, R260). -/
def State.engineCells (s : State) (l : Loc) (bs : List (Byte × Byte)) : Except UnitFault (Bool × List StoreCell) × State :=
  let n := bs.length
  match l with
  | .spad a =>
    if 0 ≤ a && a + n ≤ s.ctx.spadLimit then (.ok (true, s.ctx.spadCells a.toNat bs), s)
    else (.error { cause := causeData, addr := some (if a < 0 then faultAddr a else max a.toNat s.ctx.spadLimit) }, s)
  | .virt a =>
    if !(0 ≤ a && a + n ≤ (2 ^ 47 : Nat)) then
      (.error { cause := causeData, addr := some (if a < 0 then faultAddr a else max a.toNat (2 ^ 47)) }, s)
    else match s.storeCells a.toNat bs with
      | (.error f, s1) => (.error { cause := f.cause, addr := some f.addr }, s1)
      | (.ok cs, s1) => (.ok (false, cs), s1)
  | .block _ a => (.error { cause := causeProtection, addr := some (faultAddr a) }, s)

/-- The entry of an outer step: read when the step is reached, and kept for its other elements (R254). -/
def State.stepEntry (s : State) (el : Loc) (step : Nat) : Except UnitFault Nat × State :=
  match s.ctx.seq.entry with
  | some (o, v) => if o = step then (.ok v, s) else read s
  | none => read s
where
  read (s : State) : Except UnitFault Nat × State :=
    match s.engineRead el 8 with
    | (.error f, s1) => (.error f, s1)
    | (.ok bs, s1) =>
      let c := s1.ctx
      (.ok (bytesNat bs), s1.setCtx { c with seq := { c.seq with entry := some (step, bytesNat bs) } })

/-- Where the runs of an outer step are: one side's run of walk element `n` before its element, none where its entry is
absent (R254, R256). -/
def State.sideRun (s : State) (r : Nest) (src : Bool) (n : Nat) : Except UnitFault (Option Loc) × State :=
  let (is, _) := r.indices n
  let side := if src then (seqSides r.op).1 else (seqSides r.op).2
  let base := if src then r.sbase else r.dbase
  let ss := if src then r.sstride else r.dstride
  let fmt := if src then r.sfmt else r.dfmt
  let inner : Int := (is.getD 0 0 : Int) * ss.headD 0
  let outer := strideSum (is.drop 1) (ss.drop 1)
  let check (l : Loc) (s : State) : Except UnitFault (Option Loc) × State :=
    if l.addr % (seqAlign fmt : Int) = 0 then (.ok (some l), s)
    else (.error { cause := causeMisaligned, addr := some (faultAddr l.addr) }, s)
  match side with
  | .walked => (.ok (some (baseLoc base (outer + inner))), s)
  | .tile => (.ok (some (baseLoc base outer)), s)
  | .none => (.ok none, s)
  | .entries =>
    let el := baseLoc base outer
    (match s.stepEntry el (n / (r.count * r.trips.getD 0 1)) with
    | (.error f, s1) => (.error f, s1)
    | (.ok v, s1) =>
      if v = 2 ^ 64 - 1 then (.ok none, s1)
      else if v / 2 ^ 48 ≠ 0 || !baseOk v then (.error { cause := causeData, addr := some (faultAddr el.addr) }, s1)
      else check (baseLoc v inner) s1)
  | .blocks =>
    let e := s.ctx.seq.captured.getD (n / (r.count * r.trips.getD 0 1)) (0, 0)
    if bit e.1 63 then check (.block (bits e.1 45 0) ((bits e.1 45 0 : Nat) + inner)) s else (.ok none, s)

/-- Row and column of a walk element (R249). -/
def Nest.rowCol (r : Nest) (n : Nat) : Nat × Nat :=
  let (is, e) := r.indices n
  (is.getD 1 0 * r.trips.getD 0 0 + is.getD 0 0, is.getD 2 0 * r.count + e)

/-- A walk element out of bounds (R249). -/
def Nest.outside (r : Nest) (n : Nat) : Bool :=
  let (row, col) := r.rowCol n
  r.op ≠ opZerofill && ((r.rows ≠ 0 && r.rows ≤ row) || (r.cols ≠ 0 && r.cols ≤ col))

/-- The extent fault of an element (R250). -/
def Nest.extent (r : Nest) (n : Nat) : UnitFault :=
  let (row, col) := r.rowCol n
  { cause := causeExtent, row := row % 65536, col := col % 65536 }

/-- The destination element of a source element (R248). -/
def Nest.moved (r : Nest) (n b : Nat) : Except UnitFault Nat :=
  if r.op = opCopy || (r.op ≠ opConvert && r.sfmt = r.dfmt) then .ok b
  else match convertValue b r.sfmt r.dfmt r.policy 0 r.subn with
    | .ok y => .ok y
    | .error c => .error { cause := causePolicy, aux := c.code * 2 ^ 16, cond := c.code, n }

/-- What becomes of one walk element: nothing written, or bits at a place. -/
abbrev Move1 := Option (Loc × Nat)

/-- The source element at walk element `n`, given its run; none is out of bounds or absent (R250, R254). -/
def State.sourceElem (s : State) (r : Nest) (n : Nat) (run : Option Loc) : Except UnitFault (Option Nat) × State :=
  match run with
  | none => (.ok none, s)
  | some l =>
    let e := (r.indices n).2
    let w := fmtWidth r.sfmt
    match s.engineRead (l.plus (w * e / 8 : Nat)) (elemBytes w e) with
    | (.error f, s1) => (.error f, s1)
    | (.ok bs, s1) => (.ok (some (elemOf w e bs)), s1)

/-- One element of an op that is neither of the tile ops (R248 to R254): the source, its conversion, and its destination. -/
def State.moveElem (s : State) (r : Nest) (n : Nat) : Except UnitFault Move1 × State :=
  let e := (r.indices n).2
  let w := fmtWidth r.dfmt
  let place (l : Loc) : Loc := l.plus (w * e / 8 : Nat)
  let out := r.outside n
  if out && r.oob then (.error (r.extent n), s)
  else match s.sideRun r false n with
    | (.error f, s1) => (.error f, s1)
    | (.ok none, s1) => if r.oob then (.error (r.extent n), s1) else (.ok none, s1)
    | (.ok (some d), s1) =>
      if r.op = opZerofill || out then (.ok (some (place d, 0)), s1)
      else match s1.sideRun r true n with
        | (.error f, s2) => (.error f, s2)
        | (.ok none, s2) => if r.oob then (.error (r.extent n), s2) else (.ok (some (place d, 0)), s2)
        | (.ok (some src), s2) =>
          match s2.sourceElem r n (some src) with
          | (.error f, s3) => (.error f, s3)
          | (.ok none, s3) => (.ok none, s3)
          | (.ok (some b), s3) =>
            match r.moved n b with
            | .error f => (.error f, s3)
            | .ok y => (.ok (some (place d, y)), s3)

/-- What a unit writes: cells of the scratchpad and of memory, in order. -/
abbrev UnitCells := List (Bool × List StoreCell)

/-- Elements `n` up, `k` of them, with their cells (R260). -/
def State.moveElems (s : State) (r : Nest) : Nat → Nat → Except UnitFault UnitCells × State
  | 0, _ => (.ok [], s)
  | k + 1, n =>
    match s.moveElem r n with
    | (.error f, s1) => (.error f, s1)
    | (.ok mv, s1) =>
      let w := fmtWidth r.dfmt
      let e := (r.indices n).2
      let cells : Except UnitFault UnitCells × State := match mv with
        | none => (.ok [], s1)
        | some (l, v) => (match s1.engineCells l (elemCells w e v) with
          | (.error f, s2) => (.error f, s2)
          | (.ok cs, s2) => (.ok [cs], s2))
      match cells with
      | (.error f, s2) => (.error f, s2)
      | (.ok cs, s2) =>
        match s2.moveElems r k (n + 1) with
        | (.error f, s3) => (.error f, s3)
        | (.ok rest, s3) => (.ok (cs ++ rest), s3)

/-- The stored elements of one TOPLANES tile, in walk order (R250, R252). -/
def State.tileElems (s : State) (r : Nest) : Nat → Nat → Except UnitFault (List Nat) × State
  | 0, _ => (.ok [], s)
  | k + 1, n =>
    let one : Except UnitFault Nat × State :=
      if r.outside n then (if r.oob then (.error (r.extent n), s) else (.ok 0, s))
      else match s.sideRun r true n with
        | (.error f, s1) => (.error f, s1)
        | (.ok run, s1) => (match s1.sourceElem r n run with
          | (.error f, s2) => (.error f, s2)
          | (.ok none, s2) => (.ok 0, s2)
          | (.ok (some b), s2) => (r.moved n b, s2))
    match one with
    | (.error f, s1) => (.error f, s1)
    | (.ok v, s1) =>
      match s1.tileElems r k (n + 1) with
      | (.error f, s2) => (.error f, s2)
      | (.ok vs, s2) => (.ok (v :: vs), s2)

/-- Rows of 512 of some elements. -/
def rows512 : Nat → List Nat → List (List Nat)
  | 0, _ => []
  | k + 1, xs => xs.take 512 :: rows512 k (xs.drop 512)

/-- The validity mask of a tile (R251). -/
def Nest.validity (r : Nest) (n : Nat) : Nat :=
  let i1 := (r.indices n).1.getD 1 0
  ((List.range 64).filter fun m => r.rows = 0 || 64 * i1 + m < r.rows).foldl (fun a m => a + 2 ^ m) 0

/-- One TOPLANES unit (R252). -/
def State.toplanes (s : State) (r : Nest) (n : Nat) : Except UnitFault UnitCells × State :=
  match s.tileElems r (64 * 512) n with
  | (.error f, s1) => (.error f, s1)
  | (.ok vs, s1) =>
    match s1.sideRun r false n with
    | (.error f, s2) => (.error f, s2)
    | (.ok none, s2) => (.ok [], s2)
    | (.ok (some l), s2) =>
      match s2.engineCells l (wholeBytes (tileEncode r.dfmt (rows512 64 vs))) with
      | (.error f, s3) => (.error f, s3)
      | (.ok cs, s3) =>
        if !r.vmask then (.ok [cs], s3)
        else match s3.engineCells (l.plus (-8)) (wholeBytes (natBytes 8 (r.validity n))) with
          | (.error f, s4) => (.error f, s4)
          | (.ok ms, s4) => (.ok [cs, ms], s4)

/-- Elements of a TOROWS unit written to their rows (R250, R253). -/
def State.rowsOut (s : State) (r : Nest) (base : Nat) (vs : List Nat) : Nat → Nat → Except UnitFault UnitCells × State
  | 0, _ => (.ok [], s)
  | k + 1, n =>
    let (row, _) := r.rowCol n
    let e := (r.indices n).2
    let w := fmtWidth r.dfmt
    let one : Except UnitFault (Option Nat) :=
      if r.outside n then
        (if r.oob then .error (r.extent n) else .ok (if r.rows ≠ 0 && r.rows ≤ row then none else some 0))
      else match r.moved n (vs.getD (n - base) 0) with
        | .error f => .error f
        | .ok y => .ok (some y)
    let cells : Except UnitFault UnitCells × State := match one with
      | .error f => (.error f, s)
      | .ok none => (.ok [], s)
      | .ok (some y) => (match s.sideRun r false n with
        | (.error f, s1) => (.error f, s1)
        | (.ok none, s1) => (.ok [], s1)
        | (.ok (some l), s1) => (match s1.engineCells (l.plus (w * e / 8 : Nat)) (elemCells w e y) with
          | (.error f, s2) => (.error f, s2)
          | (.ok cs, s2) => (.ok [cs], s2)))
    match cells with
    | (.error f, s1) => (.error f, s1)
    | (.ok cs, s1) =>
      match s1.rowsOut r base vs k (n + 1) with
      | (.error f, s2) => (.error f, s2)
      | (.ok rest, s2) => (.ok (cs ++ rest), s2)

/-- One TOROWS unit (R253). -/
def State.torows (s : State) (r : Nest) (n : Nat) : Except UnitFault UnitCells × State :=
  let a := (baseLoc r.sbase (strideSum ((r.indices n).1.drop 1) (r.sstride.drop 1))).addr
  let c := s.ctx
  if a < 0 then (.error { cause := causeData, addr := some (faultAddr a) }, s)
  else match tileDecode (fun off k => s.spadRead s.focus (c.spbase + off) k) a.toNat c.spadLimit r.sfmt with
    | .error f => (.error { cause := f.cause, addr := some f.addr, aux := f.aux }, s)
    | .ok vs => (s.askBanks 12 [(a.toNat, s.tileLen a.toNat r.sfmt)]).rowsOut r n vs (64 * 512) n

/-- One unit of a record: its cells (R260). -/
def State.unitCells (s : State) (r : Nest) (unit : Nat) : Except UnitFault UnitCells × State :=
  let n := unit * r.unitSize
  if r.op = opToplanes then s.toplanes r n
  else if r.op = opTorows then s.torows r n
  else s.moveElems r (min r.unitSize (r.total - n)) n

/-- Scratchpad extent of a walked side: least and greatest byte of any run (R157). -/
def walkBox (base count fmt : Nat) (trips : List Nat) (ss : List Int) : Int × Int :=
  let spans := (trips.zip ss).map fun (t, x) => ((t : Int) - 1) * x
  let lo := spans.foldl (fun a x => if x < 0 then a + x else a) (bits base 46 0 : Int)
  let hi := spans.foldl (fun a x => if 0 < x then a + x else a) (bits base 46 0 : Int)
  (lo, hi + ((fmtWidth fmt * count + 7) / 8 : Nat))

/-- A physical range of source bytes: in the scratchpad or not, from and up to (R259). -/
abbrev ByteRange := Bool × Int × Int

/-- The physical bytes of a run that can be read. -/
def State.runRanges (s : State) (l : Loc) (n : Nat) : List ByteRange :=
  match l with
  | .spad a => [(true, s.ctx.spbase + a, s.ctx.spbase + a + n)]
  | .block _ a => [(false, a, a + n)]
  | .virt a =>
    if a < 0 then []
    else match (s.translateRange s.focus s.asn a.toNat .read (pageFuel n) n).1 with
      | .error _ => []
      | .ok ps => ps.map fun p => (false, (p.ph.pa : Int), ((p.ph.pa + p.len : Nat) : Int))

/-- The record's own source bytes, run by run (R157, R253, R259). -/
def State.sourceRuns (s : State) (r : Nest) : List ByteRange :=
  match (seqSides r.op).1 with
  | .none => []
  | .tile =>
    (List.range (r.total / (64 * 512))).flatMap fun o =>
      let t := (baseLoc r.sbase (strideSum ((r.indices (o * 64 * 512)).1.drop 1) (r.sstride.drop 1))).addr
      if t < 0 then [] else s.runRanges (.spad t) (s.tileLen t.toNat r.sfmt)
  | _ =>
    (List.range (r.total / r.count)).flatMap fun k =>
      match (s.sideRun r true (k * r.count)).1 with
      | .ok (some l) => s.runRanges l ((fmtWidth r.sfmt * r.count + 7) / 8)
      | _ => []

/-- A byte lies in one of some ranges. -/
def inRanges (rs : List ByteRange) (spad : Bool) (a : Nat) : Bool :=
  rs.any fun r => r.1 = spad && r.2.1 ≤ a && (a : Int) < r.2.2

/-- The destination of a record may meet its own source (R259). -/
def Nest.mayOverlap (r : Nest) : Bool :=
  match seqSides r.op with
  | (.none, _) => false
  | (.walked, .walked) =>
    let a := walkBox r.sbase r.count r.sfmt r.trips r.sstride
    let b := walkBox r.dbase r.count r.dfmt r.trips r.dstride
    baseSpad r.sbase = baseSpad r.dbase && (!baseSpad r.sbase || (a.1 < b.2 && b.1 < a.2))
  | _ => true

/-- The source bytes a unit's writes may meet. -/
def State.guardedRuns (s : State) (r : Nest) : List ByteRange := if r.mayOverlap then s.sourceRuns r else []

/-- The sequencer as the writer of bytes in the block cache (R334, R269 ORIGIN 5; notes/assumptions/20). -/
def State.engineWriter (s : State) : Writer := { slot := s.here.running, origin := 5, pc := 0, word := 0 }

/-- Of the cells of a unit whose write met a word that cannot be merged, each other word may be written or not (R260). -/
def State.someSectors (s : State) (cs : List StoreCell) (bad : List Nat) : State :=
  let words := ((cs.map fun c => c.pa / 32).eraseDups).filter fun w => !(bad.any fun a => a / 32 = w) && (Config.freeByte s.freeCount w).getLsbD 0
  let s1 := words.foldl (fun s w => (s.performCells s.focus s.asn (cs.filter fun c => c.pa / 32 = w) (some s.engineWriter)).1) s
  { s1 with freeCount := s1.freeCount + 1 }

/-- Perform a unit's cells as one write. Bytes that are the record's own source keep their place until the record completes
(R259). The words a read-modify-write refuses are answered (R260, R334). -/
def State.performUnit (s : State) (r : Nest) (us : UnitCells) : State × List Nat :=
  let own := s.guardedRuns r
  let all : List (Bool × StoreCell) := us.flatMap fun u => u.2.map fun c => (u.1, c)
  let now (spad : Bool) : List StoreCell := (all.filter fun x => x.1 = spad && !inRanges own x.1 x.2.pa).map (·.2)
  match s.performCells s.focus s.asn (now false) (some s.engineWriter) with
  | (s1, []) =>
    let s2 := s1.spadPerform 13 (now true)
    let c := s2.ctx
    (s2.setCtx { c with seq := { c.seq with held := c.seq.held ++ all.filter fun x => inRanges own x.1 x.2.pa } }, [])
  | (s1, bad) => (s1.someSectors (now false) bad, bad)

/-- The context's sequencer may act: a task runs here, in task mode, under no debug stop, and no schedule cycle is half way
(R241, R246, R262), and no record is FAULTED. -/
def State.seqMoves (s : State) : Bool :=
  s.ctx.moves && !s.ctx.handler && s.here.turn = 0 && s.ctx.faults.isEmpty && (s.ctx.slotsIn (· = .faulted)).isEmpty

/-- The running record. -/
def Ctx.seqRunning (c : Ctx) : Option Nat := (c.slotsIn (· = .running)).head?

/-- The record that comes to start (R241). -/
def Ctx.seqNextStart (c : Ctx) : Option Nat :=
  if !(c.slotsIn fun x => x = .running || x = .faulted).isEmpty then none
  else ((c.slotsIn (· = .released)).foldl (fun (b : Option Nat) i => match b with
    | none => some i
    | some j => if (c.slotAt i).order < (c.slotAt j).order then some i else some j) none)

/-- The ring of a record is full, so that it waits at its start (R245). -/
def Ctx.ringFull (c : Ctx) (r : Nest) : Bool :=
  let g := c.ring r.ring
  r.op ≠ opNop && g.slots ≠ 0 && g.filled = g.slots

/-- RECORD_START is possible. -/
def State.canStart (s : State) : Option Nat :=
  let c := s.ctx
  if !s.seqMoves || c.cycle < c.seq.startCycle then none
  else match c.seqNextStart with
    | none => none
    | some i =>
      let x := c.slotAt i
      if (x.checked || x.nest.recordOk) && c.ringFull x.nest then none else some i

/-- The entries a BTGATHER captures (R256). -/
def State.captureEntries (s : State) (r : Nest) : Nat → Nat → Except UnitFault (List (Nat × Nat)) × State
  | 0, _ => (.ok [], s)
  | k + 1, o =>
    let n := o * (r.count * r.trips.getD 0 1)
    let l := baseLoc r.sbase (strideSum ((r.indices n).1.drop 1) (r.sstride.drop 1))
    match s.engineRead l 16 with
    | (.error f, s1) => (.error f, s1)
    | (.ok bs, s1) =>
      match s1.captureEntries r k (o + 1) with
      | (.error f, s2) => (.error f, s2)
      | (.ok es, s2) => (.ok ((bytesNat (bs.take 8), bytesNat (bs.drop 8)) :: es), s2)

/-- The running record stops at a unit that fails (R260). -/
def State.unitFails (s : State) (i : Nat) (f : UnitFault) : State :=
  let c := s.ctx
  let x := c.slotAt i
  let c := c.setSlotAt i { x with state := .faulted }
  s.setCtx { c with faults := c.faults ++ [seqFault x.nest i c.seq.unit f] }

/-- A BTGATHER captures its entries, at its start or, where they could not be read then, on the return (R256). -/
def State.captureTable (s : State) (i : Nat) : State :=
  let r := (s.ctx.slotAt i).nest
  if r.op ≠ opBtgather || r.total = 0 || !s.ctx.seq.captured.isEmpty then s
  else match s.captureEntries r ((r.trips.drop 1).foldl (· * ·) 1) 0 with
    | (.error f, s1) =>
      let c := s1.ctx
      (s1.setCtx { c with seq := { c.seq with unit := 0 } }).unitFails i f
    | (.ok es, s1) =>
      let c := s1.ctx
      s1.setCtx { c with seq := { c.seq with captured := es } }

/-- The earliest released record starts (R241, R245, R256). -/
def State.startRecord (s : State) : State :=
  match s.canStart with
  | none => s
  | some i =>
    let c := s.ctx
    let x := c.slotAt i
    let r := x.nest
    if !(x.checked || r.recordOk) || (r.closes && (c.ring r.ring).slots = 0) then s.setCtx (c.invalidRecord i)
    else
      let c := c.setSlotAt i { x with state := .running, checked := true }
      (s.setCtx { c with seq := { c.seq with unit := 0, captured := [], entry := none, held := [] } }).captureTable i

/-- RECORD_START (R241). -/
def execRecordStart (core : Nat) (s : State) : Host.Outcome State Fault Refusal := s.atCore core State.startRecord

/-- SEQUENCER_UNIT is possible. -/
def State.canUnit (s : State) : Option Nat :=
  match s.ctx.seqRunning with
  | none => none
  | some i => if s.seqMoves && s.ctx.seq.unit < (s.ctx.slotAt i).nest.units then some i else none

/-- The running record performs its next unit, whole or not at all (R260). -/
def State.performNext (s : State) : State :=
  match s.canUnit with
  | none => s
  | some i =>
    let s := s.captureTable i
    if !s.ctx.faults.isEmpty then s
    else
      let r := (s.ctx.slotAt i).nest
      match s.unitCells r s.ctx.seq.unit with
      | (.error f, s1) => s1.unitFails i f
      | (.ok us, s1) =>
        match s1.performUnit r us with
        | (s2, w :: _) => s2.unitFails i { cause := causeRmw, addr := some w }
        | (s2, []) =>
          let c := s2.ctx
          s2.setCtx { c with seq := { c.seq with unit := c.seq.unit + 1 } }

/-- SEQUENCER_UNIT (R260). -/
def execSequencerUnit (core : Nat) (s : State) : Host.Outcome State Fault Refusal := s.atCore core State.performNext

/-- RECORD_COMPLETE is possible. -/
def State.canComplete (s : State) : Option Nat :=
  match s.ctx.seqRunning with
  | none => none
  | some i => if s.seqMoves && (s.ctx.slotAt i).nest.units ≤ s.ctx.seq.unit then some i else none

/-- The destination bytes of a record that are its own source take free values as it completes (R7, R259). -/
def State.blurHeld (s : State) : State :=
  match s.ctx.seq.held with
  | [] => s
  | held =>
    let cells (spad : Bool) : List StoreCell := (held.filter fun x => x.1 = spad).map fun x =>
      { x.2 with val := s.freeMix (2 * x.2.pa + (if x.1 then 1 else 0)) }
    let s1 := s.spadPerform 13 (cells true)
    let s2 := (s1.performCells s1.focus s1.asn (cells false) (some s1.engineWriter)).1
    { s2 with freeCount := s2.freeCount + 1 }

/-- The running record completes (R241, R246, R257, R259). -/
def State.finishRecord (s : State) : State :=
  match s.canComplete with
  | none => s
  | some i =>
    let s := s.blurHeld
    let c := s.ctx
    let r := (c.slotAt i).nest
    let c := c.setSlotAt i { c.slotAt i with state := .complete }
    let g := c.ring r.ring
    let c := if r.closes then c.setRing r.ring { g with wp := (g.wp + 1) % g.slots, filled := g.filled + 1 } else c
    s.setCtx { c with seq := { c.seq with startCycle := c.cycle + 1, captured := [], entry := none, held := [] } }

/-- RECORD_COMPLETE (R246). -/
def execRecordComplete (core : Nat) (s : State) : Host.Outcome State Fault Refusal := s.atCore core State.finishRecord

/-- The sequencer of a context has nothing released to do (R24, R126). -/
def Ctx.seqIdle (c : Ctx) : Bool := (c.slotsIn SlotState.pending).isEmpty

/-- The engine's records after the return of R142 (R240, R263): a record a unit faulted runs again from `unit`, an invalid one
is checked again; the running record reads the entry of its outer step again (R254). -/
def Ctx.resumeSequencer (c : Ctx) (unit : Nat) : Ctx :=
  let c := { c with seq := { c.seq with raised := none } }
  match (c.slotsIn (· = .faulted)).head? with
  | none => c
  | some i =>
    let x := c.slotAt i
    if !x.invalid then { c.setSlotAt i { x with state := .running } with
        seq := { (c.setSlotAt i { x with state := .running }).seq with unit } }
    else if x.nest.recordOk && !(x.nest.closes && (c.ring x.nest.ring).slots = 0) then
      c.setSlotAt i { x with state := .released, invalid := false, checked := true }
    else c.invalidRecord i

end Sys2Proof.Machine
end

