-- ==== Sys2Proof/Machine/Tasks.lean ====
section
/-! DEFINITION. Tasks: continuation records, handing over, joins and reports, fault domains, kills and the end of a context
(12 R298 to R306, R308, R320). What one ending sets off (a successor made ready, a region killed, more endings) is worked off
as a list. -/

namespace Sys2Proof.Machine

def causeJoin : Nat := 0x1B
def causeRegion : Nat := 0x1C
def causeRejected : Nat := 0x1D
def causeProxy : Nat := 0x1E
def causeKilled : Nat := 0x1F
def causePropagated : Nat := 0x20
def causeContinuation : Nat := 0x21

/-- The words of a continuation record (R298). -/
structure Record where
  code  : Nat
  frame : Nat
  succ  : Nat
  w3    : Nat
  deriving DecidableEq, Repr

def w3Wait (w : Nat) : Bool := bit w 47
def w3Killed (w : Nat) : Bool := bit w 46
def w3Pin (w : Nat) : Bool := bit w 41
def w3Jr (w : Nat) : Bool := bit w 40
def w3Prio (w : Nat) : Nat := bits w 35 32
def w3Region (w : Nat) : Nat := bits w 31 16
def w3Join (w : Nat) : Nat := bits w 15 0

/-- Set or clear a bit of a number. -/
def putBit (v i : Nat) (b : Bool) : Nat := if bit v i = b then v else if b then v + 2 ^ i else v - 2 ^ i

/-- A record at a virtual address of a partition, as the device reads it at the home slice (R300). -/
def State.readRecord (s : State) (part va : Nat) : Option Record :=
  match s.vaLook part va .read with
  | none => none
  | some pa => some { code := s.peek pa 8, frame := s.peek (pa + 8) 8, succ := s.peek (pa + 16) 8, w3 := s.peek (pa + 24) 8 }

/-- A record breaks R301 in a field other than REGION. -/
def Record.bad (r : Record) (va : Nat) : Bool :=
  va % 32 ≠ 0 || r.code / 2 ^ 48 ≠ 0 || r.frame / 2 ^ 48 ≠ 0 || r.succ / 2 ^ 48 ≠ 0 || r.w3 / 2 ^ 48 ≠ 0 ||
    bits r.w3 45 42 ≠ 0 || bits r.w3 39 36 ≠ 0 || r.code % 256 ≠ 0 || (w3Jr r.w3 && va % 64 ≠ 0)

/-- The region of a record is live and in the subtree of the region that hands it over; the host's queues have none (R301,
17 R413). -/
def State.recordRegionOk (s : State) (part region : Nat) (issuer : Option Nat) : Bool :=
  match issuer with
  | some i => s.rgnWithin part i region
  | none => s.rgnLive part region

/-- How a task ended (R302). -/
inductive How where
  | completed | faulted | killed | rejected
  deriving DecidableEq, Repr

def How.outcome : How → Nat
  | .completed => outCompleted
  | .faulted => outFaulted
  | .killed => outKilled
  | .rejected => outRejected

/-- An ending to be worked off: the task, its successor, how and why it ended, the rejection reason, the LAUNCH it is part of,
the cluster that reports, and the fault address to log. `hostCause` replaces the cause in a LAUNCH report (17 R423, R441). -/
structure Ending where
  part    : Nat
  record  : Nat
  region  : Nat
  succ    : Nat
  how     : How
  cause   : Nat
  reason  : Nat
  launch  : Option Nat
  cluster : Option Nat
  addr    : Nat
  hostCause : Nat
  /-- the effective DOMAIN taken when the task was placed; none for a record that was not (R305) -/
  domain  : Option Nat := none
  deriving DecidableEq, Repr

/-- What is still to be done. -/
inductive Work where
  | ended (e : Ending)
  | ready (part record : Nat) (cluster : Option Nat)
  /-- a kill of a region's subtree; a context whose own RGNKILL it is ends with that landing (R320) -/
  | kill (part region : Nat) (faultedRoot : Bool) (issuer : Option (Nat × Nat))
  deriving DecidableEq, Repr

/-- Every guard a context holds, those granted to it and not landed included, its captured flights too (R133, R320). -/
def Ctx.guardsHeld (c : Ctx) : List Held :=
  c.guards ++ (c.flights ++ (c.saved.map (·.flights)).getD []).filterMap fun f => match f.eff with
    | .command (.acquired va pa excl _ _) => some { addr := va, pa, excl }
    | _ => none

/-- Replace the guard's STATE word as a release leaves it, for every guard a context holds (R126, R134, R320). -/
def State.dropGuards (s : State) (gs : List Held) : State :=
  gs.foldl (fun s h => (s.dieChange h.pa 8 fun v => guardReleased v h.excl).1) s

/-- Return the charges of a task (R305). -/
def State.uncharge (s : State) (part region ctxs spad plies : Nat) : State :=
  ((s.rgnReturn part region fUsectx ctxs).rgnReturn part region fUsespad spad).rgnReturn part region fUseplies plies

/-- The context that runs on a core once `slot` has ended: the staged one moves in (R149, R238). -/
def Core.handOn (c : Core) (slot : Nat) : Core :=
  if c.running ≠ slot then c
  else
    let other := 1 - slot
    let x := c.slot other
    if x.task.isNone then { c with turn := 0 }
    else
      let x := if x.staging.isEmpty then x else { x.startSequencer x.staging with staging := [] }
      { c.setSlot other x with running := other, turn := 0 }

/-- Clear the lock bits a context holds (R126). -/
def clearLocks (locks : BitVec 512) (c : Ctx) : BitVec 512 :=
  let drop (l : BitVec 512) (o : Option Nat) : BitVec 512 := match o with
    | some off => l &&& ~~~(BitVec.twoPow 512 (lockBit off))
    | none => l
  drop (drop locks c.lockS) c.lockL

/-- A context ends (R126, R302, R320): what it landed is performed at die scope, what it holds is released, its charges are
returned, and the core goes on with the other context. -/
def State.endContext (s : State) (core slot : Nat) (how : How) (cause addr hostCause : Nat) : State × List Work :=
  let x := s.ctxAt core slot
  match x.task with
  | none => (s, [])
  | some t =>
    let s1 := (s.writeBackAll core).dropGuards x.guardsHeld
    let d := s1.die
    let s2 := { s1 with die := { d with guardReqs := d.guardReqs.filter fun r => !(r.core = core && r.slot = slot) } }
    let c := s2.core core
    let c := { c.setSlot slot Ctx.reset with locks := clearLocks c.locks x }
    let s3 := (s2.setCore core (c.handOn slot)).uncharge t.part t.region t.ctxs t.spad t.plies
    (s3, [.ended { part := t.part, record := t.record, region := t.region, succ := t.succ, how, cause, reason := 0,
                   launch := t.launch, cluster := some (clusterOf core), addr, hostCause, domain := some t.domain }])

/-- Word 3 and the join-status block of a join record, its bytes 0x18 to 0x2F as one number, as a report leaves them (R302). -/
def Ending.reportWords (e : Ending) (v : Nat) : Nat :=
  let w := v % 2 ^ 64
  let w := if w3Join w = 1 then putBit (w - 1) 47 false else w - 1
  let nfault := bits v 79 64
  let nkill := bits v 95 80
  let first := v / 2 ^ 128
  let me := (if e.how = .killed then 2 ^ 63 else 0) + e.cause * 2 ^ 48 + e.record
  let add (n : Nat) : Nat := min (n + 1) 65535
  match e.how with
  | .completed => w + 2 ^ 64 * (v / 2 ^ 64)
  | how =>
    w + 2 ^ 64 * (if how = .killed then nfault else add nfault) + 2 ^ 80 * (if how = .killed then add nkill else nkill) +
      2 ^ 96 * bits v 127 96 + 2 ^ 128 * (if first = 0 then me else first)

/-- The report to a successor, one read-modify-write at its home slice (R300, R302). -/
def State.report (s : State) (e : Ending) : State × List Work :=
  if e.succ = 0 then (s, [])
  else
    let lost : State := s.rgnCount e.part e.region fLostj
    match s.vaLook e.part e.succ .read, s.vaLook e.part e.succ .write with
    | some pa, some _ =>
      let w := s.peek (pa + 24) 8
      let walked := s.walked e.part e.succ .write
      if w3Killed w then (walked.noteRead (pa + 24) 8, [])
      else if !w3Wait w || !w3Jr w || w3Join w = 0 then ((walked.noteRead (pa + 24) 8).rgnCount e.part e.region fLostj, [])
      else ((walked.dieChange (pa + 24) 24 e.reportWords).1, if w3Join w = 1 then [.ready e.part e.succ e.cluster] else [])
    | _, _ => (lost, [])

/-- An ending takes effect: the counts of its region, the successor's report, LIVE and STATE, the fault log, the LAUNCH and the
fault domain (R302, R303, R306; 17 R413, R430). -/
def State.workEnded (s : State) (e : Ending) (keepRoots : Bool) : State × List Work :=
  let live := s.rgnLive e.part e.region
  let cq := if live then s.rgnGet e.part e.region fCq % 2048 else noQueue
  let domain := e.domain.getD (if live then s.rgnEff e.part e.region fDomain else 0)
  let bad := e.how = .faulted || e.how = .rejected
  let path := s.rgnPath e.part e.region
  let s := s.visitPath e.part (if e.domain.isNone then path else path.take 1)
  let s1 := match e.how with
    | .completed => s
    | .faulted => s.rgnCount e.part e.region fNfault
    | .killed => s.rgnCount e.part e.region fNkill
    | .rejected => s.rgnCount e.part e.region fNrej
  let d := s1.die
  let s2 := if bad && domain = 1 && e.succ ≠ 0 then { s1 with die := { d with doomed := (e.part, e.succ) :: d.doomed } } else s1
  let (s3, more) := s2.report e
  let s4 := if !live then s3
    else
      let s := s3.rgnLiveDown e.part e.region keepRoots
      if e.how = .rejected && s.rgnLive e.part e.region && !s.rgnDead e.part e.region then
        (s.rgnSetField e.part e.region fState stRejected).rgnSetField e.part e.region fReason e.reason
      else s
  let s5 := if e.how = .faulted then s4.logFault scopeTask e.cause (some e.part) cq e.region e.record e.addr else s4
  let s6 := s5.launchEnd e.launch e.record e.how.outcome (if e.how = .completed then 0 else e.hostCause) e.reason
  (s6, more ++ (if bad && domain = 2 && live then [.kill e.part e.region true none] else []))

/-- The slice a record joins (R308). -/
def State.sliceFor (s : State) (part : Nat) (cluster : Option Nat) : Nat :=
  let m := (s.part part).clusters
  match cluster with
  | some c => if m.getLsbD c then c else ((List.range 16).find? fun i => m.getLsbD i).getD 0
  | none => ((List.range 16).find? fun i => m.getLsbD i).getD 0

/-- Append a ready record to the queue of its effective priority in a slice (R307, R308). -/
def State.enqueue (s : State) (slice : Nat) (r : Ready) : State :=
  let k := s.cluster slice
  s.setCluster slice { k with queues := vset k.queues r.prio (vget [] k.queues r.prio ++ [r]) }

/-- A record as it enters a queue: its fields as read now (R298, R300). -/
def State.readyOf (s : State) (part va : Nat) (r : Record) (succ : Option Nat) (launch : Option Nat) : Ready :=
  { record := va, part, region := w3Region r.w3, want := w3Prio r.w3, prio := min (w3Prio r.w3) (s.rgnEff part (w3Region r.w3) fPrio), launch,
    succ := succ.getD r.succ, code := r.code, frame := r.frame, pin := w3Pin r.w3, saved := none }

/-- A record enters a slice's queue, at the effective priority that the RCBs on its region's path give it (R298, R305, R308). -/
def State.admitRec (s : State) (slice part va : Nat) (r : Record) (succ launch : Option Nat) : State :=
  (s.visitPath part (s.rgnPath part (w3Region r.w3))).enqueue slice (s.readyOf part va r succ launch)

/-- A waiting record becomes ready (R300, R301, R303). -/
def State.workReady (s : State) (part va : Nat) (cluster : Option Nat) : State × List Work :=
  let d := s.die
  match d.waiting.find? fun x => x.part = part && x.record = va with
  | none => (s, [])
  | some x =>
    let doomed := d.doomed.contains (part, va)
    let s1 := { s with die := { d with waiting := d.waiting.erase x, doomed := d.doomed.filter (· ≠ (part, va)) } }
    let rec? := s1.readRecord part va
    let s1 := s1.visit part va 32
    let fail (cause succ : Nat) : State × List Work :=
      (s1, [.ended { part, record := va, region := x.region, succ := x.succ.getD succ, how := .faulted, cause, reason := 0,
                     launch := x.launch, cluster, addr := 0, hostCause := cause }])
    match rec? with
    | none => fail causeContinuation 0
    | some r =>
      if doomed then fail causePropagated r.succ
      else if r.bad va then fail causeContinuation r.succ
      else if !s1.recordRegionOk part (w3Region r.w3) x.issuer then fail causeRegion r.succ
      else (s1.admitRec (s1.sliceFor part cluster) part va r x.succ x.launch, [])

/-- Retrieval commands of killed regions: searches and key-value fetches stop (15 R397). -/
def State.killCmds (s : State) (part : Nat) (inSub : Nat → Bool) : State :=
  let r := s.retr
  { s with retr := { r with cmds := r.cmds.map fun c =>
      if c.part = part && inSub c.region && (c.op = 0x240 || c.op = 0x243) then { c with killed := true } else c } }

/-- A pre-empted task leaves its list: its charges return (R305, R320). -/
def State.dropSaved (s : State) (r : Ready) : State :=
  match r.saved with
  | none => s
  | some x =>
    match x.ctx.task with
    | none => s
    | some t => (s.dropGuards x.ctx.guardsHeld).uncharge t.part t.region t.ctxs t.spad t.plies

/-- The end of a record that stood in a queue or list. -/
def Ready.ending (r : Ready) (how : How) (cause reason hostCause : Nat) : Ending :=
  { part := r.part, record := r.record, region := r.region, succ := r.succ, how, cause, reason, launch := r.launch,
    cluster := none, addr := 0, hostCause }

/-- The part of a gang that a context is reserved for and that has no COMMIT yet (13 R354). -/
def State.reservedFor (s : State) (core slot : Nat) : Option (Gang × GangPart) :=
  match (s.ctxAt core slot).task with
  | none => none
  | some t =>
    if !t.gated then none
    else s.die.gangs.findSome? fun g =>
      (g.parts.find? fun p => p.phase = .reserved && p.core = some core && p.record = t.record).map fun p => (g, p)

/-- Change one part of a gang. -/
def State.putPart (s : State) (g : Gang) (p q : GangPart) : State :=
  let d := s.die
  { s with die := { d with gangs := d.gangs.map fun x =>
      if x.launch = g.launch then { x with parts := x.parts.map fun y => if y = p then q else y } else x } }

/-- A reservation goes, with its charges (13 R354). -/
def State.unreserve (s : State) (core slot : Nat) : State :=
  match (s.ctxAt core slot).task with
  | none => s
  | some t =>
    let k := s.core core
    (s.setCore core ((k.setSlot slot Ctx.reset).handOn slot)).uncharge t.part t.region t.ctxs t.spad t.plies

/-- What a kill does to a task that holds a context (R320): one that runs is asked to stop, as for a pre-emption; one that does not
run, or whose partition is reset (17 R423), ends at once; the context whose RGNKILL it is ends with the landing. A reservation fails
with REGION-STATE, and its gang is rolled back (R311, 13 R354); where the gang's COMMITs have begun, its part counts as live and ends
so (notes/assumptions/51). -/
def State.killAt (s : State) (core slot : Nat) (atOnce : Bool) (issuer : Option (Nat × Nat)) (hostCause : Nat) : State × List Work :=
  match s.reservedFor core slot with
  | some (g, p) =>
    if g.start.isNone then ((s.putPart g p { p with phase := .failed 0x0C, core := none }).unreserve core slot, [])
    else
      let region := ((s.ctxAt core slot).task.map (·.region)).getD 0
      ((s.putPart g p { p with phase := .committed }).rgnLiveUp p.part region).endContext core slot .killed causeKilled 0 hostCause
  | none =>
  if atOnce || (s.core core).running ≠ slot || (s.ctxAt core slot).task.any (·.gated) then
    s.endContext core slot .killed causeKilled 0 hostCause
  else if issuer = some (core, slot) then (s, [])
  else
    let x := s.ctxAt core slot
    (s.setCtxAt core slot { x with task := x.task.map fun t => { t with killed := true } }, [])

/-- A region and its descendants are killed (R303, R320). -/
def State.workKill (s : State) (part region : Nat) (faultedRoot keepRoots : Bool) (issuer : Option (Nat × Nat)) (hostCause : Nat) :
    State × List Work :=
  let subs := (s.rgnAll part).filter fun i => s.rgnWithin part region i
  let hit (p i : Nat) : Bool := p = part && subs.contains i
  let s1 := subs.foldl (fun s i =>
    if s.rgnDead part i then s else s.rgnSetField part i fState (if faultedRoot && i = region then stFaulted else stKilled)) s
  -- waiting records take KILLED
  let gone := s1.die.waiting.filter fun x => hit x.part x.region
  let succOf (s : State) (x : WaitRec) : Nat := x.succ.getD (((s.readRecord part x.record).map (·.succ)).getD 0)
  let s2 := gone.foldl (fun s x =>
    let s := if x.succ.isNone then s.visit part x.record 32 else s
    match s.vaLook part x.record .write with
    | some pa => ((s.walked part x.record .write).dieChange (pa + 24) 8 fun w => putBit w 46 true).1
    | none => s) s1
  let d := s2.die
  let s3 := { s2 with die := { d with waiting := d.waiting.filter fun x => !hit x.part x.region } }
  let w1 := gone.map fun x => Work.ended {
    part, record := x.record, region := x.region, succ := succOf s2 x, how := .killed, cause := causeKilled, reason := 0,
    launch := x.launch, cluster := none, addr := 0, hostCause }
  -- ready and pre-empted records leave queues and lists
  let out (l : List Ready) : List Ready := l.filter fun r => hit r.part r.region
  let stay (l : List Ready) : List Ready := l.filter fun r => !hit r.part r.region
  let queued := (List.range 16).flatMap fun k => (s3.cluster k).queues.toList.flatMap out
  let listed := (List.range 128).flatMap fun k => out (s3.core k).ready
  let d := s3.die
  let s4 := { s3 with
    die := { d with clusters := d.clusters.map fun k => { k with queues := k.queues.map stay } },
    cores := s3.cores.map fun c => { c with ready := stay c.ready } }
  let s5 := (queued ++ listed).foldl (fun s r => s.dropSaved r) s4
  let w2 := (queued ++ listed).map fun r => Work.ended (r.ending .killed causeKilled 0 hostCause)
  -- tasks that hold a context
  let places := (List.range 128).flatMap fun k => [(k, 0), (k, 1)].filter fun p =>
    match (s5.ctxAt p.1 p.2).task with
    | some t => hit t.part t.region
    | none => false
  let (s6, w3) := places.foldl (fun (acc : State × List Work) p =>
    let r := acc.1.killAt p.1 p.2 keepRoots issuer hostCause
    (r.1, acc.2 ++ r.2)) (s5, [])
  let s7 := s6.killCmds part subs.contains
  -- an index of a dead region with nothing live is free at once
  let s8 := subs.foldl (fun s i =>
    if s.rgnLive part i && s.rgnGet part i fLive = 0 && !(keepRoots && s.rgnGet part i fParent = 0xFFFF) then s.rgnFree part i else s) s7
  (s8, w1 ++ w2 ++ w3)

/-- Work off a list, what it sets off included; `hostCause` and `keepRoots` are those of a partition reset (17 R423). -/
def State.settleWith (hostCause : Nat) (keepRoots : Bool) : Nat → List Work → State → State
  | 0, _, s => s
  | _, [], s => s
  | k + 1, w :: ws, s =>
    let r := match w with
      | .ended e => s.workEnded e keepRoots
      | .ready p va c => s.workReady p va c
      | .kill p i f o => s.workKill p i f keepRoots o hostCause
    State.settleWith hostCause keepRoots k (ws ++ r.2) r.1

/-- Enough steps: every record alive ends at most once, and each ending sets off at most two more pieces of work. -/
def State.settleFuel (s : State) (ws : List Work) : Nat :=
  8 * (ws.length + s.die.waiting.length + 256 +
    ((List.range 16).map fun k => ((s.cluster k).queues.toList.map List.length).sum).sum +
    ((List.range 128).map fun k => (s.core k).ready.length).sum) + 64

def State.settle (s : State) (ws : List Work) : State := State.settleWith causeKilled false (s.settleFuel ws) ws s

/-- Hand a record over (R300, R316; 17 R413): registered as waiting, or ready at once in a slice. The checks are done. -/
def State.handOver (s : State) (part va : Nat) (r : Record) (succ issuer launch slice : Option Nat) (cluster : Option Nat) : State :=
  let s1 := s.rgnLiveUp part (w3Region r.w3)
  let d := s1.die
  let s1 := { s1 with die := { d with doomed := d.doomed.filter (· ≠ (part, va)) } }
  if w3Join r.w3 ≠ 0 then
    let s2 := match s1.vaLook part va .write with
      | some pa => ((s1.walked part va .write).dieChange (pa + 24) 8 fun w => putBit w 47 true).1
      | none => s1
    let d := s2.die
    { s2 with die := { d with waiting := d.waiting ++ [{ part, record := va, region := w3Region r.w3, succ, issuer, launch }] } }
  else s1.admitRec (slice.getD (s1.sliceFor part cluster)) part va r succ launch

end Sys2Proof.Machine
end

