-- ==== Sys2Proof/Machine/TaskInstr.lean ====
section
/-! DEFINITION. The task and region instructions 0x200 to 0x20B (12 R316 to R322). -/

namespace Sys2Proof.Machine

/-- The address a source names: bits 63:48 must be zero (R316). -/
def taskAddr (v : Word) : Except Trap Nat :=
  if v.toNat < 2 ^ 48 then .ok v.toNat else .error { cause := causeData, addr := some v.toNat }

/-- The place of a block the instruction names: aligned and in LPDDR-6, else `bad` (R316). -/
def State.blockPlace (s : State) (v : Word) (align bad : Nat) : Except Trap (Nat × Nat) × State :=
  match taskAddr v with
  | .error t => (.error t, s)
  | .ok a =>
    if a % align ≠ 0 then (.error { cause := bad, addr := some a }, s)
    else match s.translate s.focus s.asn a .read with
      | (.error c, s1) => (.error { cause := c, addr := some a }, s1)
      | (.ok ph, s1) => if ph.attr ≠ 0 then (.error { cause := bad, addr := some a }, s1) else (.ok (a, ph.pa), s1)

/-- The device is going to write to a block that the instruction names (R8, R338). -/
def State.blockWrite (s : State) (va : Nat) : Option Trap × State :=
  match s.translate s.focus s.asn va .write with
  | (.error c, s1) => (some { cause := c, addr := some va }, s1)
  | (.ok _, s1) => (none, s1)

/-- A block's place, with the right to write it. -/
def State.blockRw (s : State) (v : Word) (align bad : Nat) : Except Trap (Nat × Nat) × State :=
  match s.blockPlace v align bad with
  | (.error t, s1) => (.error t, s1)
  | (.ok p, s1) => (match s1.blockWrite p.1 with
    | (some t, s2) => (.error t, s2)
    | (none, s2) => (.ok p, s2))

/-- Every store of the issuing context that landed before is performed at die scope (R316). -/
def State.storesOut (s : State) : State := s.writeBackAll s.focus

/-- Region and cluster of the issuing task. -/
def State.ownRegion (s : State) : Nat := (s.ctx.task.map (·.region)).getD 0xFFFF
def State.ownCluster (s : State) : Nat := clusterOf s.focus

/-- Checks of a handed-over record at its instruction (R301, R316): the record as read, or the trap. -/
def State.checkRecord (s : State) (a : Nat) (enq : Bool) : Except Trap Record :=
  match s.readRecord s.asn a with
  | none => .error { cause := causeContinuation, addr := some a }
  | some r =>
    if w3Wait r.w3 || w3Killed r.w3 || r.bad a || (enq && w3Join r.w3 ≠ 0) then .error { cause := causeContinuation }
    else .ok r

/-- A record's region, checked last (R301, R316). -/
def State.checkRegion (s : State) (r : Record) : Option Trap :=
  if s.recordRegionOk s.asn (w3Region r.w3) (some s.ownRegion) then none else some { cause := causeRegion }

/-- SPAWN and ENQ: hand record `a` over, with the slice ENQ names (R316). -/
def State.spawnRecord (s : State) (st : Nat) (w : Ins) (a : Word) (slice : Option Nat) : IssueRes :=
  match s.blockPlace a 32 causeContinuation with
  | (.error t, s1) => .trapIn s1 t
  | (.ok (va, pa), s1) =>
    let s1 := s1.storesOut.noteRead pa 32
    match s1.checkRecord va slice.isSome with
    | .error t => .trapIn s1 t
    | .ok r =>
      match s1.checkRegion r with
      | some t => .trapIn s1 t
      | none =>
        match (if w3Join r.w3 = 0 then (none, s1) else s1.blockWrite va : Option Trap × State) with
        | (some t, s2) => .trapIn s2 t
        | (none, s2) =>
          let s3 := s2.handOver s2.asn va r none (some s2.ownRegion) none slice (some s2.ownCluster)
          .ok s3 (s3.ctx.result st w.dst a) a (latBound w.lat)

/-- SPAWN (R316). -/
def execSpawn (w : Ins) (s : State) : Host.Outcome State Fault Refusal :=
  s.run (.spawn w) w noEarly fun s st tk => s.spawnRecord st w (s.srcA st tk w) none

/-- ENQ (R316). -/
def execEnq (w : Ins) (s : State) : Host.Outcome State Fault Refusal :=
  s.run (.enq w) w noEarly fun s st tk =>
    let b := (s.srcB st tk w).toNat
    if b < 16 && (s.part s.asn).clusters.getLsbD b then s.spawnRecord st w (s.srcA st tk w) (some b)
    else .trap { cause := causeOperand }

/-- SPAWNJ (R316): adds 1 to JOIN of record b, which is the successor of record a. -/
def execSpawnj (w : Ins) (s : State) : Host.Outcome State Fault Refusal :=
  s.run (.spawnj w) w noEarly fun s st tk =>
    let a := s.srcA st tk w
    match s.blockPlace a 32 causeContinuation with
    | (.error t, s1) => .trapIn s1 t
    | (.ok (va, pa), s1) =>
      match s1.blockRw (s.srcB st tk w) 64 causeContinuation with
      | (.error t, s2) => .trapIn s2 t
      | (.ok (vb, pb), s2) =>
        let s2 := s2.storesOut.noteRead pa 32
        match s2.checkRecord va false with
        | .error t => .trapIn s2 t
        | .ok r =>
          let k := s2.peek (pb + 24) 8
          if !w3Jr k || !w3Wait k || w3Join k = 65535 then .trapIn (s2.noteRead (pb + 24) 8) { cause := causeJoin }
          else match s2.checkRegion r with
            | some t => .trapIn s2 t
            | none =>
              match (if w3Join r.w3 = 0 then (none, s2) else s2.blockWrite va : Option Trap × State) with
              | (some t, s3) => .trapIn s3 t
              | (none, s3) =>
                let s4 := (s3.dieChange (pb + 24) 8 (· + 1)).1
                let s5 := s4.handOver s4.asn va r (some vb) (some s4.ownRegion) none none (some s4.ownCluster)
                .ok s5 (s5.ctx.result st w.dst a) a (latBound w.lat)

/-- SIGJ (R316): one COMPLETED report from no task. -/
def execSigj (w : Ins) (s : State) : Host.Outcome State Fault Refusal :=
  s.run (.sigj w) w noEarly fun s st tk =>
    match s.blockRw (s.srcA st tk w) 64 causeContinuation with
    | (.error t, s1) => .trapIn s1 t
    | (.ok (va, pa), s1) =>
      let s1 := s1.storesOut
      let k := s1.peek (pa + 24) 8
      if w3Killed k then .ok (s1.noteRead (pa + 24) 8) [] 0 (latBound w.lat)
      else if !w3Jr k || !w3Wait k then .trapIn (s1.noteRead (pa + 24) 8) { cause := causeJoin }
      else
        let (s2, ws) := s1.report
          { part := s1.asn, record := 0, region := s1.ownRegion, succ := va, how := .completed, cause := 0, reason := 0,
            launch := none, cluster := some s1.ownCluster, addr := 0, hostCause := 0 }
        .ok (s2.settle ws) [] 0 (latBound w.lat)

/-- JSTAT (R317). -/
def execJstat (w : Ins) (s : State) : Host.Outcome State Fault Refusal :=
  s.run (.jstat w) w noEarly fun s st tk =>
    match s.blockPlace (s.srcA st tk w) 64 causeContinuation with
    | (.error t, s1) => .trapIn s1 t
    | (.ok (_, pa), s1) =>
      let s1 := s1.noteRead pa 64
      if !w3Jr (s1.peek (pa + 24) 8) then .trapIn s1 { cause := causeContinuation }
      else
        let first := s1.peek (pa + 0x28) 8
        let v := if w.imm.toNat = 0 then
            s1.peek (pa + 0x20) 2 * 2 ^ 48 + s1.peek (pa + 0x22) 2 * 2 ^ 32 + bits first 55 48 * 2 ^ 8 + bits first 63 63
          else bits first 47 0
        .ok s1 (s1.ctx.result st w.dst (BitVec.ofNat 64 v)) (BitVec.ofNat 64 v) (latBound w.lat)

/-- YIELD (R316): asks for the task's own pre-emption; its stop is R280's. -/
def execYield (w : Ins) (s : State) : Host.Outcome State Fault Refusal :=
  s.run (.yield w) w noEarly fun s _ _ =>
    match s.ctx.task, s.here.ready.head? with
    | some t, some r =>
      if t.prio ≤ r.prio && t.saveBase ≠ 0 then
        .ok (s.setCtx { s.ctx with task := some { t with preempt := true, yields := true } }) [] 0 (latBound w.lat)
      else .ok s [] 0 (latBound w.lat)
    | _, _ => .ok s [] 0 (latBound w.lat)

/-- The value of a software field is in the range of R304. -/
def rcbRange (f : RcbField) (v : Nat) : Bool :=
  if f = fOvr then v < 64
  else if f = fPrio then v < 16
  else if f = fDomain then v < 3
  else if f = fCtxb then 1 ≤ v && v ≤ 256
  else if f = fPliesb then v ≤ 131072
  else if f = fSpadb then v ≤ 268435456
  else if f = fTvec then v < 2 ^ 48 && v % 4 = 0
  else if f = fFramebase || f = fSavebase then v < 2 ^ 48 && v % 4096 = 0
  else if f = fTimer then v < 2
  else if f = fPreempt then v < 16
  else if f = fProfslots then 1 ≤ v
  else if f = fProfdepth then v ≤ 8
  else if f = fProfflags then v < 8
  else if f = fProfbase then v < 2 ^ 48 && v % 64 = 0
  else true

/-- The fields an own value of which the parent's effective value bounds (R318). -/
def rcbBounded : List RcbField := [fCtxb, fPliesb, fSpadb, fMemb, fPrio]

/-- The own value of a bounded field under the override bits `ovr` keeps to the parent's effective value (R318). -/
def State.rcbWithin (s : State) (part parent ovr : Nat) (f : RcbField) (v : Nat) : Bool :=
  match ovrBit f with
  | some b => !bit ovr b || v ≤ s.rgnEff part parent f
  | none => true

/-- The region an operand names: live, in the issuing task's subtree (R316). -/
def State.namedRegion (s : State) (v : Word) : Except Trap Nat :=
  if v.toNat < 0x10000 && s.rgnWithin s.asn s.ownRegion v.toNat then .ok v.toNat else .error { cause := causeRegion }

/-- The lowest free index of a partition's region table (R318, R352). -/
def State.freeIndex (s : State) (part : Nat) : Option Nat :=
  (List.range (min (s.part part).rgncnt 0xFFFF)).find? fun i => !s.rgnLive part i

/-- The entry that a new region would take lies outside LPDDR-6: its address (R362; notes/assumptions/128). -/
def State.tableFault (s : State) (part : Nat) : Option Nat := (s.freeIndex part).bind fun i =>
  let pa := (s.part part).rgntab + 8 * i
  if pa + 8 ≤ lpddrEnd then none else some pa

/-- RGNNEW (R318): checks at issue, the region at the landing. -/
def execRgnnew (w : Ins) (s : State) : Host.Outcome State Fault Refusal :=
  s.run (.rgnnew w) w noEarly fun s st tk =>
    match s.blockRw (s.srcA st tk w) 256 causeRegion with
    | (.error t, s1) => .trapIn s1 t
    | (.ok (va, pa), s1) =>
      let s1 := s1.noteRead pa 256
      match s1.namedRegion (s.srcB st tk w) with
      | .error t => .trapIn s1 t
      | .ok parent =>
        if s1.rgnDead s1.asn parent then .trapIn s1 { cause := causeRegion }
        else
          let get (f : RcbField) : Nat := s1.peek (pa + f.1) f.2
          if !(rcbSoftware.all fun f => rcbRange f (get f)) ||
              !(rcbBounded.all fun f => s1.rcbWithin s1.asn parent (get fOvr) f (get f)) then .trapIn s1 { cause := causeOperand }
          else match s1.tableFault s1.asn with
            | some addr => .trapIn s1 { cause := causeData, addr }
            | none => .ok s1 [.command (.rgnNew va parent (s1.ctx.target st w.dst))] 0 (latBound w.lat)

/-- The landing of RGNNEW: the lowest free index, or none (R318, R352). -/
def State.regionNew (s : State) (part rcb parent : Nat) : Option Nat × State :=
  match s.freeIndex part with
  | none => (none, s)
  | some i =>
    let s2 := rcbDevice.foldl (fun s f => s.rgnSetField part i f 0) (s.rgnOpen part i rcb)
    (some i, (s2.rgnSetField part i fIndex i).rgnSetField part i fParent parent)

/-- The field IMM names, if its offset starts one (R319). -/
def fieldOf (w : Ins) : Option RcbField := (rcbSoftware ++ rcbDevice).find? fun f => f.1 = bits w.imm.toNat 7 0

/-- RGNSET (R319): checks at issue, the write at the landing. -/
def execRgnset (w : Ins) (s : State) : Host.Outcome State Fault Refusal :=
  s.run (.rgnset w) w noEarly fun s st tk =>
    let b := (s.srcB st tk w).toNat
    match fieldOf w with
    | none => .trap { cause := causeOperand }
    | some f =>
      if bit w.imm.toNat 8 || 2 ^ (8 * f.2) ≤ b || !(rcbSoftware.contains f || (f = fReason && b = 0)) || !rcbRange f b then
        .trap { cause := causeOperand }
      else match s.namedRegion (s.srcA st tk w) with
        | .error t => .trap t
        | .ok i =>
          let read := s.visitPath s.asn (s.rgnPath s.asn i)
          let parent := s.rgnGet s.asn i fParent
          let ovr := if f = fOvr then b else s.rgnGet s.asn i fOvr
          let fits := parent = 0xFFFF ||
            (if f = fOvr then rcbBounded.all fun g => s.rcbWithin s.asn parent ovr g (s.rgnGet s.asn i g)
             else !rcbBounded.contains f || s.rcbWithin s.asn parent ovr f b)
          if fits then .ok read [.command (.rgnSet i f.1 b)] 0 (latBound w.lat) else .trapIn read { cause := causeOperand }

/-- The landing of RGNSET: the field, and the end of LAUNCH-REJECTED when REASON becomes 0 (R306, R319). -/
def State.regionSet (s : State) (part i off v : Nat) : State :=
  match (rcbSoftware ++ rcbDevice).find? fun f => f.1 = off with
  | none => s
  | some f =>
    let s1 := s.rgnSetField part i f v
    if f = fReason && s1.rgnGet part i fState = stRejected then
      s1.rgnSetField part i fState (if s1.rgnGet part i fLive = 0 then stIdle else stActive)
    else s1

/-- A field of a region is read at its home slice, its effective value on the region's path (R305, R324, R349). -/
def State.rgnNote (s : State) (i : Nat) (f : RcbField) (eff : Bool) : State :=
  if eff then s.visitPath s.asn (s.rgnPath s.asn i) else s.visit s.asn (s.rgnEntry s.asn i + f.1) f.2

/-- RGNGET (R319): read at issue. -/
def execRgnget (w : Ins) (s : State) : Host.Outcome State Fault Refusal :=
  s.run (.rgnget w) w noEarly fun s st tk =>
    match fieldOf w with
    | none => .trap { cause := causeOperand }
    | some f =>
      match s.namedRegion (s.srcA st tk w) with
      | .error t => .trap t
      | .ok i =>
        let v := BitVec.ofNat 64 (if bit w.imm.toNat 8 then s.rgnEff s.asn i f else s.rgnGet s.asn i f)
        let s := s.rgnNote i f (bit w.imm.toNat 8)
        .ok s (s.ctx.result st w.dst v) v (latBound w.lat)

/-- RGNKILL (R320): the kill is at the landing. -/
def execRgnkill (w : Ins) (s : State) : Host.Outcome State Fault Refusal :=
  s.run (.rgnkill w) w noEarly fun s st tk =>
    match s.namedRegion (s.srcA st tk w) with
    | .error t => .trap t
    | .ok i => .ok s [.command (.rgnKill i)] 0 (latBound w.lat)

/-- RGNKILL reaches its tasks (R320). -/
def State.regionKill (s : State) (part i : Nat) : State := s.settle [.kill part i false (some (s.focus, s.here.running))]

/-- A proxy descriptor's software fields (R321). -/
structure ProxyDesc where
  target  : Nat
  shadow  : Nat
  slots   : Nat
  batch   : Nat
  timeout : Nat
  deriving DecidableEq, Repr

def State.proxyDesc (s : State) (pa : Nat) : ProxyDesc :=
  { target := s.peek pa 8, shadow := s.peek (pa + 8) 8, slots := s.peek (pa + 16) 4, batch := s.peek (pa + 20) 2,
    timeout := s.peek (pa + 22) 2 }

/-- A power of two from 16 to 65,536. -/
def slotsOk (n : Nat) : Bool := (List.range 13).any fun k => n = 2 ^ (k + 4)

def ProxyDesc.ok (d : ProxyDesc) : Bool :=
  bits d.target 63 58 = 0 && bits d.target 47 44 = 0 && bits d.target 39 0 = 0 && d.shadow < 2 ^ 48 && d.shadow % 64 = 0 &&
    slotsOk d.slots && 1 ≤ d.batch && d.batch ≤ 256 && 1 ≤ d.timeout && d.timeout ≤ 1000

def State.proxyOf (s : State) (part desc : Nat) : Proxy :=
  (s.die.proxies.find? fun p => p.part = part && p.desc = desc).getD
    { part, desc, pushed := [], sent := [], batch := [], flush := none, stopped := false }
def State.setProxy (s : State) (x : Proxy) : State :=
  let d := s.die
  { s with die := { d with proxies := x :: d.proxies.filter fun p => !(p.part = x.part && p.desc = x.desc) } }

/-- The proxy queue whose descriptor stands at a physical address has no room (R322). -/
def State.proxyFull (s : State) (pa slots : Nat) : Bool :=
  (s.peek (pa + 0x18) 8 + 2 ^ 64 - s.peek (pa + 0x28) 8) % 2 ^ 64 = slots

/-- The address of the entry that HEAD names in a shadow ring (R322). -/
def State.proxySlot (s : State) (pa shadow slots : Nat) : Nat := shadow + 16 * (s.peek (pa + 0x18) 8 % slots)

/-- An entry is written at its place and HEAD counts it (R322). -/
def State.pushEntry (s : State) (desc pa at_ entry : Nat) : State :=
  let s1 := (s.diePut at_ 16 entry).diePut (pa + 0x18) 8 ((s.peek (pa + 0x18) 8 + 1) % 2 ^ 64)
  let q := s1.proxyOf s1.asn desc
  s1.setProxy { q with pushed := q.pushed ++ [s1.time] }

/-- PXPUSH (R322, 17 R433): one that finds no room is in flight and waits. -/
def execPxpush (w : Ins) (s : State) : Host.Outcome State Fault Refusal :=
  s.run (.pxpush w) w noEarly fun s st tk =>
    match s.blockRw (s.srcA st tk w) 64 causeProxy with
    | (.error t, s1) => .trapIn s1 t
    | (.ok (va, pa), s1) =>
      let s1 := s1.storesOut.noteRead pa 64
      match taskAddr (s.srcB st tk w) with
      | .error t => .trapIn s1 t
      | .ok record =>
        let p := s1.proxyDesc pa
        let q := s1.proxyOf s1.asn va
        let entry := w.imm.toNat * 2 ^ 48 + record
        if !p.ok || q.stopped || bit (s1.peek (pa + 0x30) 8) 63 then .trapIn s1 { cause := causeProxy }
        else if s1.proxyFull pa p.slots then .ok s1 [.command (.proxyPush va pa p.shadow p.slots entry)] 0 (latBound w.lat)
        else
          let va1 := s1.proxySlot pa p.shadow p.slots
          match s1.translate s1.focus s1.asn va1 .write with
          | (.error c, s2) => .trapIn s2 { cause := c, addr := some va1 }
          | (.ok ph, s2) =>
            if ph.attr ≠ 0 then .trapIn s2 { cause := causeProxy }
            else .ok (s2.pushEntry va pa ph.pa entry) [] 0 (latBound w.lat)

/-- ACCEPTED has reached a HEAD value (R322). -/
def State.flushed (s : State) (pa head : Nat) : Bool := (s.peek (pa + 0x28) 8 + 2 ^ 64 - head) % 2 ^ 64 < 2 ^ 63

/-- PXFLUSH (R322): asks for the forwarding, and is pending until ACCEPTED reaches HEAD, where its landing waits. -/
def execPxflush (w : Ins) (s : State) : Host.Outcome State Fault Refusal :=
  s.run (.pxflush w) w noEarly fun s st tk =>
    match s.blockPlace (s.srcA st tk w) 64 causeProxy with
    | (.error t, s1) => .trapIn s1 t
    | (.ok (va, pa), s1) =>
      let s1 := s1.storesOut.noteRead pa 64
      if !(s1.proxyDesc pa).ok then .trapIn s1 { cause := causeProxy }
      else
        let q := s1.proxyOf s1.asn va
        let head := s1.peek (pa + 0x18) 8
        .ok (s1.setProxy { q with flush := if s1.flushed pa head then none else some head }) [.command (.proxyFlush pa head)] 0 (latBound w.lat)

end Sys2Proof.Machine
end

