-- ==== Sys2Proof/Machine/Retrieval.lean ====
section
/-! DEFINITION. Retrieval: vectors and distances, the visible set, queries, completion rings, and the acceptance of a command
(15 R365 to R397). -/

namespace Sys2Proof.Machine

def State.setRetr (s : State) (r : Retr) : State := { s with retr := r }
def State.idx (s : State) (h : Nat) : Option Index := (s.retr.indexes.find? fun p => p.1 = h).map (·.2)
def State.setIdx (s : State) (h : Nat) (x : Index) : State := s.setRetr { s.retr with indexes := tset s.retr.indexes h x }

/-- Counters of R391. -/
def kSearches : Nat := 0
def kNodes : Nat := 1
def kPockets : Nat := 2
def kPages : Nat := 3
def kBatched : Nat := 4
def kPrefetch : Nat := 5
def kPrefhit : Nat := 6
def kSeamdead : Nat := 7
def kRetryq : Nat := 8
def kAppends : Nat := 9
def kDarns : Nat := 10
def kDarnfail : Nat := 11
def kMedia : Nat := 12

/-- Add to a counter of an index; it wraps (R391). -/
def Index.count (x : Index) (i n : Nat) : Index := { x with counters := vset x.counters i ((vget 0 x.counters i + n) % 2 ^ 64) }
def State.idxCount (s : State) (h i n : Nat) : State := match s.idx h with
  | some x => s.setIdx h (x.count i n)
  | none => s

/-- Bytes of a packed vector (R365), a member or log record (R374, R376), and records in a page of 16 KiB. -/
def Index.vbytes (x : Index) : Nat := x.dim * fmtWidth x.efmt / 8
def Index.recBytes (x : Index) : Nat := (16 + x.vbytes + 15) / 16 * 16
def Index.perPage (x : Index) : Nat := (16384 - 64) / x.recBytes

/-- The elements of a vector in units of 2^-24; none where one is not a number (R366, R370). -/
def Index.elems (x : Index) (bs : List Byte) : Option (List Int) :=
  let vs := (unpackElems (fmtWidth x.efmt) x.dim bs).map fun e => decodeValue e x.efmt true
  if vs.all fun v => v.cls = .num then some (vs.map fun v => v.scaled (-24)) else none

/-- Squared distance in units of 2^-48 (R370). -/
def distSum (q v : List Int) : Int := ((q.zip v).map fun p => (p.1 - p.2) * (p.1 - p.2)).foldl (· + ·) 0
def Index.dist (x : Index) (q v : List Byte) : Nat := match x.elems q, x.elems v with
  | some a, some b => (distSum a b).toNat
  | _, _ => 0

/-- May a subtree be pruned (R371)? -/
def prune (dc rsq : Nat) (t : Option Nat) : Bool := match t with
  | none => false
  | some t => let y : Int := (dc : Int) - rsq - t; decide (0 < y ∧ 4 * (rsq : Int) * t < y * y)

/-- The k-th best distance (R377). -/
def kth (best : List Candidate) (k : Nat) : Option Nat := (best[k - 1]?).map (·.dist)

/-- Order of candidates (R369). -/
def Candidate.before (a b : Candidate) : Bool := a.dist < b.dist || (a.dist = b.dist && a.id < b.id)

/-- Offer a candidate (R377). -/
def offer (best : List Candidate) (k : Nat) (c : Candidate) : List Candidate :=
  if best.any fun b => b.id = c.id then best
  else ((best.filter fun b => b.before c) ++ c :: best.filter fun b => !b.before c).take k

/-- An insertion of an identifier at generation `gen` is visible at `g` (R368). -/
def Index.visibleAt (x : Index) (id gen g : Nat) : Bool :=
  gen ≤ g && !(x.log.any fun e => e.id = id && (match e.gen with
    | some n => gen < n && n ≤ g
    | none => false))

/-- The version a generation sees (R372); versions stand oldest first. -/
def Index.versionAt (x : Index) (g : Nat) : Version :=
  ((x.versions.filter fun v => v.fromGen ≤ g).getLast?).getD { fromGen := 0, cut := 0, root := none, nodes := [], pockets := [] }
def Index.latest (x : Index) : Version :=
  (x.versions.getLast?).getD { fromGen := 0, cut := 0, root := none, nodes := [], pockets := [] }

/-- Log entries that no version holds yet, the accepted and uncommitted among them (R381). -/
def Index.unabsorbed (x : Index) : Nat := (x.log.filter fun e => match e.gen with
  | some n => x.latest.cut < n
  | none => true).length
def Index.logRoom (x : Index) : Nat := x.logPages * x.perPage

/-- The page of the hem log that an entry stands in (R376). -/
def Index.logPage (x : Index) (e : HemEntry) : Nat := e.hpos / x.perPage

/-- The pages of the hem log that hold entries a query takes (R376, R377), ascending. -/
def Index.logsFor (x : Index) (g cut : Nat) : List (Nat × Nat) := x.logFpns.filter fun p => x.log.any fun e =>
  x.logPage e = p.1 && e.gen.any fun n => cut < n && n ≤ g

/-- The offers of a page of the hem log to a query (R377). -/
def Index.hemOffers (x : Index) (page : Nat) (vec : List Byte) (k g cut : Nat) (best : List Candidate) : List Candidate :=
  x.log.foldl (fun best e => match e.vec, e.gen with
    | some v, some n =>
      if x.logPage e = page && cut < n && x.visibleAt e.id n g then
        offer best k { dist := x.dist vec v, id := e.id, source := 0xFFFF_FFFF, gen := n }
      else best
    | _, _ => best) best

/-- The node to open: least bound, then least number (R377). -/
def leastNode : List (Int × Nat) → Option (Int × Nat)
  | [] => none
  | p :: ps => match leastNode ps with
    | none => some p
    | some q => if q.1 < p.1 || (q.1 = p.1 && q.2 < p.2) then some q else some p

/-- Open a node for a query: its children not pruned (R377). -/
def Index.openNode (x : Index) (v : Version) (k : Nat) (q : Query) (n : Nat) : Query :=
  match v.nodes.find? fun t => t.number = n with
  | none => q
  | some t => t.children.foldl (fun q c =>
      let dc := x.dist q.vec c.centre
      if prune dc c.radsq (kth q.best k) then q
      else if c.pocket then { q with pockets := q.pockets ++ [c.number] }
      else { q with nodes := ((dc : Int) - c.radsq, c.number) :: q.nodes }) q

/-- What a query does between two page reads: the nodes opened, and the places of the nodes and headers read, latest first. -/
structure Walked where
  nodes : Nat
  reads : List (Nat × Nat)
  deriving DecidableEq, Repr

/-- Bytes of the copies of a node and of a pocket header (R373, R374). -/
def Index.nodeSize (x : Index) : Nat := 0x840 + 64 * x.vbytes
def Index.headerSize (x : Index) : Nat := 0x500 + x.vbytes

/-- Go on with a query until it needs a page of a pocket or is done (R377). -/
def Index.advance (x : Index) (v : Version) (k : Nat) : Nat → Query → Walked → Query × Walked × Option Pocket
  | 0, q, n => (q, n, none)
  | f + 1, q, n =>
    match q.pockets with
    | p :: rest =>
      (match v.pockets.find? fun t => t.number = p with
      | none => x.advance v k f { q with pockets := rest } n
      | some t =>
        let n := { n with reads := (t.place, x.headerSize) :: n.reads }
        if prune (x.dist q.vec t.centre) t.radsq (kth q.best k) then x.advance v k f { q with pockets := rest } n
        else if t.pages.isEmpty then x.advance v k f { q with pockets := rest, scans := q.scans + 1 } n
        else (q, n, some t))
    | [] =>
      match leastNode q.nodes with
      | none => (q, n, none)
      | some m =>
        let at0 := (v.nodes.find? fun t => t.number = m.2).map fun t => (t.place, x.nodeSize)
        x.advance v k f (x.openNode v k { q with nodes := q.nodes.erase m } m.2) { nodes := n.nodes + 1, reads := at0.toList ++ n.reads }

/-- Enough for every node and pocket of a version. -/
def Version.fuel (v : Version) : Nat := 66 * (v.nodes.length + 1) + v.pockets.length

/-- Statuses of R396. -/
def kOk : Nat := 0
def kBad : Nat := 1
def kHandle : Nat := 2
def kRights : Nat := 3
def kAddress : Nat := 4
def kVector : Nat := 5
def kHemFull : Nat := 6
def kMediaFail : Nat := 7
def kPoison : Nat := 8
def kKilled : Nat := 9
def kAbsent : Nat := 10
def kArena : Nat := 11

/-- The requeue grade of a status (R426): POISON 2, MEDIA 3, the others 0. -/
def statusGrade (status : Nat) : Nat := if status = kPoison then 2 else if status = kMediaFail then 3 else 0

def State.cmd (s : State) (uid : Nat) : Option RetrCmd := s.retr.cmds.find? fun c => c.uid = uid
def State.setCmd (s : State) (c : RetrCmd) : State :=
  s.setRetr { s.retr with cmds := s.retr.cmds.map fun x => if x.uid = c.uid then c else x }

/-- A field of a command's result whose value the spec does not state is a free value, mixed of zero and of what the translation of
the command's own partition lets a task read (R7, R8; notes/assumptions/8). -/
def State.freeField (s : State) (c : RetrCmd) (slot : Nat) : Nat :=
  bytesNat ((List.range 8).map fun i => mixByte (s.readableByte 0 c.part Ctx.reset) s.freeCount (8 * slot + i))

/-- A command has its completion (R390, R396). -/
def State.endCmd (s : State) (uid status gen aux : Nat) : State :=
  match s.cmd uid with
  | none => s
  | some c =>
    let s1 := s.setCmd { c with result := some { status, gen, aux }, query := none }
    if c.op = 0x240 then s1.idxCount c.handle kSearches 1 else s1

/-- A trace record of an index (R392). -/
def State.traceEvent (s : State) (h event ctl level seq v : Nat) : State :=
  match s.idx h with
  | none => s
  | some x =>
    if x.traceSlots = 0 then s
    else match s.vaNat x.part x.traceBase 8 with
      | none => s
      | some n =>
        let s := s.visit x.part x.traceBase 8
        let a := x.traceBase + 64 + 32 * (n % x.traceSlots)
        let s1 := ((s.vaPut x.part a 8 s.now).vaPut x.part (a + 8) 8 (event + ctl * 256 + level * 65536)).vaPut x.part (a + 16) 16
          (seq + v * 2 ^ 64)
        s1.vaPut x.part x.traceBase 8 ((n + 1) % 2 ^ 64)

/-- Controller of a flash page (R363). -/
def pageCtl (fpn : Nat) : Nat := bits fpn 31 28

/-- The flash page of a running number: spread over controllers, channels, dies (R363). -/
def pageNumber (n : Nat) : Nat := n % 16 * 2 ^ 28 + n / 16 % 8 * 2 ^ 25 + n / 128 % 2 * 2 ^ 24 + n / 256 % 2 ^ 24

/-- Flash pages that an index holds. -/
def Index.fpns (x : Index) : List Nat :=
  x.logFpns.map (·.2) ++ (x.versions.flatMap fun v => (v.pockets.flatMap fun p => p.pages.map (·.fpn)) ++ v.nodes.flatMap (·.fpns)) ++
    x.objects.flatMap (·.fpns)

/-- `n` flash pages from a running number on that are not in use, and the number after them. -/
def freshPages (used : List Nat) : Nat → Nat → Nat → List Nat × Nat
  | 0, next, _ => ([], next)
  | f + 1, next, n =>
    if n = 0 then ([], next)
    else if used.contains (pageNumber next) then freshPages used f (next + 1) n
    else
      let r := freshPages used f (next + 1) (n - 1)
      (pageNumber next :: r.1, r.2)

/-- Take `n` flash pages: each is one that no index holds, so that a number names one page (R363). -/
def State.takePages (s : State) (n : Nat) : List Nat × State :=
  let used := s.retr.indexes.flatMap fun p => p.2.fpns
  let r := freshPages used (used.length + n) s.retr.pageNext n
  (r.1, s.setRetr { s.retr with pageNext := r.2 })

/-- Ask for a page of a pocket for some queries: a prefetched page is at hand, another is queued (R377 to R379). -/
def State.askPage (s : State) (h version : Nat) (pocket : Pocket) (page : Nat) (cmds : List Nat) : State :=
  match pocket.pages[page]? with
  | none => s
  | some pg =>
    let seq := ((cmds.head?.bind s.cmd).map (·.seq)).getD 0
    let r : FlashRead := { handle := h, version, fpn := pg.fpn, level := 0, kind := .page pocket.number page, cmds, seq }
    let t := s.retr
    if t.buffered.contains (h, pg.fpn) then
      (s.setRetr { t with decoded := t.decoded ++ [r], buffered := t.buffered.erase (h, pg.fpn) }).idxCount h kPrefhit 1
    else (s.setRetr { t with reads := t.reads ++ [r] }).idxCount h kPages 1

/-- A query waits at a pocket: batched, or with a read of its own (R378). -/
def State.joinPocket (s : State) (h version uid : Nat) (pocket : Pocket) (batchUs : Nat) : State :=
  if batchUs = 0 then s.askPage h version pocket 0 [uid]
  else
    let t := s.retr
    let same (b : Batch) : Bool := b.handle = h && b.version = version && b.pocket = pocket.number && b.cmds.length < 64
    if t.batches.any same then
      s.setRetr { t with batches := t.batches.map fun b => if same b then { b with cmds := b.cmds ++ [uid] } else b }
    else s.setRetr { t with batches := t.batches ++ [{ handle := h, version, pocket := pocket.number, since := s.now, cmds := [uid] }] }

/-- The list a SRCH writes: entry `j` (R394). -/
def resultEntry (best : List Candidate) (j : Nat) : List Byte :=
  match best[j]? with
  | some c => natBytes 8 c.id ++ natBytes 12 c.dist ++ natBytes 4 c.source ++ natBytes 8 c.gen
  | none => natBytes 20 (2 ^ 160 - 1) ++ natBytes 12 0

/-- A query is done: its list at OUT, then its completion (R394). -/
def State.endQuery (s : State) (c : RetrCmd) (q : Query) : State :=
  let s1 := (c.outPas.zipIdx).foldl (fun s p => (s.dieWrite (dieBytes p.1 (resultEntry q.best p.2))).1) s
  s1.endCmd c.uid kOk q.gen (q.scans * 2 ^ 32 + q.best.length)

/-- A query reads a page of the hem log (R376, R377). -/
def State.askLog (s : State) (c : RetrCmd) (version : Nat) (page : Nat × Nat) : State :=
  (s.setRetr { s.retr with reads := s.retr.reads ++
    [{ handle := c.handle, version, fpn := page.2, level := 0, kind := .log page.1, cmds := [c.uid], seq := c.seq }] }).idxCount
      c.handle kPages 1

/-- Go on with a query (R377, R378), which reads nodes and headers at their home slices (R324, R375); a killed one stops (R397). -/
def State.goOn (s : State) (uid : Nat) : State :=
  match s.cmd uid with
  | none => s
  | some c =>
    match c.query, s.idx c.handle with
    | some q, some x =>
      let v := x.versionAt q.gen
      if c.killed then s.endCmd uid kKilled q.gen (q.scans * 2 ^ 32)
      else if let p :: _ := q.logs then s.askLog c v.fromGen p
      else
      let (q1, n, need) := x.advance v c.k v.fuel q { nodes := 0, reads := [] }
      let s0 := n.reads.reverse.foldl (fun s r => s.noteRead r.1 r.2) s
      let s1 := (s0.setCmd { c with query := some { q1 with page := 0, waiting := need.isSome } }).idxCount c.handle kNodes n.nodes
      (match need with
      | none => s1.endQuery c q1
      | some p => s1.joinPocket c.handle v.fromGen uid p x.batchUs)
    | _, _ => s

/-- A controller's translation (R394): normal memory only. -/
def State.ctlPlace (s : State) (part va : Nat) (acc : Acc) : Option Nat × State :=
  match s.translateDie part va acc with
  | (.ok ph, s1) => (if ph.attr = 0 then some ph.pa else none, s1)
  | (.error _, s1) => (none, s1)

/-- Why a controller's access fails: a status and the address of ADDRESS. -/
abbrev CtlFail := Nat × Nat

/-- Bytes a controller reads (R394), page by page. -/
def State.ctlRead (s : State) (part va : Nat) : Nat → Nat → Except CtlFail (List Byte) × State
  | 0, _ => (.ok [], s)
  | f + 1, n =>
    if n = 0 then (.ok [], s)
    else
      let m := min n (4096 - va % 4096)
      match s.ctlPlace part va .read with
      | (none, s1) => (.error (kAddress, va), s1)
      | (some pa, s1) =>
        if (s1.die.poisonIn pa m).isSome then (.error (kPoison, 0), s1)
        else
          let (bs, s2) := s1.dieRead pa m
          match s2.ctlRead part (va + m) f (n - m) with
          | (.error e, s3) => (.error e, s3)
          | (.ok cs, s3) => (.ok (bs ++ cs), s3)

/-- The places of the entries of a result list (R394). -/
def State.outPlaces (s : State) (part out : Nat) : Nat → Nat → Except CtlFail (List Nat) × State
  | 0, _ => (.ok [], s)
  | k + 1, j =>
    match s.ctlPlace part (out + 32 * j) .write with
    | (none, s1) => (.error (kAddress, out + 32 * j), s1)
    | (some pa, s1) =>
      match s1.outPlaces part out k (j + 1) with
      | (.error e, s2) => (.error e, s2)
      | (.ok ps, s2) => (.ok (pa :: ps), s2)

/-- The fields of a command block (R394). -/
structure CmdBlock where
  handle : Nat
  k      : Nat
  block  : Nat
  user   : Nat
  id     : Nat
  vec    : Nat
  out    : Nat
  table  : Nat
  mode   : Nat
  rest   : Nat
  deriving DecidableEq, Repr

def CmdBlock.ofBytes (bs : List Byte) : CmdBlock :=
  let at0 (o n : Nat) : Nat := bytesNat ((bs.drop o).take n)
  { handle := at0 0 2, k := at0 2 2, block := at0 4 4, user := at0 8 8, id := at0 16 8, vec := at0 24 8, out := at0 32 8,
    table := at0 40 8, mode := at0 48 8, rest := at0 56 8 }

def opSrch : Nat := 0x240
def opIns : Nat := 0x241
def opDel : Nat := 0x242
def opKvf : Nat := 0x243
def opDarn : Nat := 0x247

/-- BAD-COMMAND for a condition that does not depend on the handle (R394, R396). -/
def CmdBlock.bad (b : CmdBlock) (op : Nat) : Bool :=
  bits b.handle 15 10 ≠ 0 || b.rest ≠ 0 || b.id = 2 ^ 64 - 1 ||
    (if op = opSrch then b.k < 1 || 1024 < b.k || b.block ≠ 0 || b.id ≠ 0 || b.table ≠ 0 || b.mode ≠ 0 || b.out % 32 ≠ 0
     else if op = opIns || op = opDel then
      b.k ≠ 0 || b.block ≠ 0 || b.out ≠ 0 || b.table ≠ 0 || b.mode ≠ 0 || (op = opDel && b.vec ≠ 0)
     else if op = opKvf then b.k ≠ 0 || b.vec ≠ 0 || b.mode ≠ 0 || 65536 ≤ b.block || b.out % 65536 ≠ 0 || b.table % 16 ≠ 0
     else b.k ≠ 0 || b.block ≠ 0 || b.id ≠ 0 || b.vec ≠ 0 || b.out ≠ 0 || b.table ≠ 0 || 2 < b.mode)

/-- The RIGHTS bit of a command (R365). -/
def rightBit (op : Nat) : Nat :=
  if op = opSrch then 3 else if op = opKvf then 1 else if op = opDarn then 0 else 2

/-- The first status of R396's items 1 to 4. -/
def State.cmdStatus (s : State) (c : RetrCmd) (b : CmdBlock) : Nat :=
  if b.bad c.op then kBad
  else match s.idx (bits b.handle 9 0) with
    | none => kHandle
    | some x =>
      if x.part ≠ c.part || x.dying then kHandle
      else if !s.idxUsable c.part c.region x || !bit x.rights (rightBit c.op) then kRights
      else if (c.op = opSrch || c.op = opIns) && b.vec % (fmtWidth x.efmt / 8) ≠ 0 then kBad
      else kOk

/-- Read a vector for a command (R366, R394). -/
def State.cmdVector (s : State) (part : Nat) (x : Index) (va : Nat) : Except CtlFail (List Byte) × State :=
  match s.ctlRead part va (pageFuel x.vbytes) x.vbytes with
  | (.error e, s1) => (.error e, s1)
  | (.ok bs, s1) => if (x.elems bs).isSome then (.ok bs, s1) else (.error (kVector, 0), s1)

/-- What an acceptance gives: the value d receives, and the state. -/
abbrev Accepted := Nat × State

/-- The failure of a command at its acceptance (R394, R396). -/
def State.failCmd (s : State) (c : RetrCmd) (d : Nat) (e : CtlFail) (gen : Nat) : Accepted :=
  (d, s.endCmd c.uid e.1 gen (if e.1 = kAddress then e.2 else if c.op = opKvf then c.out
    else if c.op = opIns || c.op = opDel then s.freeField c 13 else 0))

/-- SRCH is accepted (R394). -/
def State.acceptSrch (s : State) (c : RetrCmd) (b : CmdBlock) (x : Index) : Accepted :=
  let g := x.gen
  match s.cmdVector c.part x b.vec with
  | (.error e, s1) => s1.failCmd c g e g
  | (.ok vec, s1) =>
    match s1.outPlaces c.part b.out b.k 0 with
    | (.error e, s2) => s2.failCmd c g e g
    | (.ok pas, s2) =>
      let v := x.versionAt g
      let nodes : List (Int × Nat) := match v.root with
        | some r => [(0, r)]
        | none => []
      let q : Query := { gen := g, vec, best := [], logs := x.logsFor g v.cut, nodes, pockets := [], page := 0, scans := 0,
                         waiting := false }
      (g, (s2.setCmd { c with gen := g, outPas := pas, vas := c.vas ++ (List.range b.k).map (b.out + 32 * ·), query := some q }).goOn c.uid)

/-- INS or DEL is accepted (R380, R381, R394): it finds no room where the log's entries, or its pages with those that an older version
still needs, fill it. -/
def State.acceptAppend (s : State) (c : RetrCmd) (b : CmdBlock) (x : Index) : Accepted :=
  let r : Except CtlFail (Option (List Byte)) × State := if c.op = opIns then
      (match s.cmdVector c.part x b.vec with
      | (.error e, s1) => (.error e, s1)
      | (.ok v, s1) => (.ok (some v), s1))
    else (.ok none, s)
  match r with
  | (.error e, s1) => s1.failCmd c (2 ^ 64 - 1) e (s1.freeField c 12)
  | (.ok v, s1) =>
    let e : HemEntry := { hpos := x.hposNext, id := b.id, vec := v, gen := none }
    let stands := x.logFpns.any fun p => p.1 = x.logPage e
    if x.logRoom ≤ x.unabsorbed || (!stands && x.logPages ≤ x.logFpns.length) then
      s1.failCmd c (2 ^ 64 - 1) (kHemFull, 0) (s1.freeField c 12)
    else
      let (ps, s2) := s1.takePages (if stands then 0 else 1)
      let s3 := s2.setIdx c.handle { x with hposNext := x.hposNext + 1, log := x.log ++ [e],
                                            logFpns := x.logFpns ++ ps.map fun n => (x.logPage e, n) }
      (x.hposNext, s3.setCmd { c with hpos := x.hposNext })

/-- The contents of a key-value object at a generation, and the flash pages they stand in (R386). -/
def Index.objectAt (x : Index) (id block g : Nat) : Option (List Byte × List Nat) :=
  ((x.objects.filter fun o => o.id = id && o.block = block && o.gen ≤ g).getLast?).bind fun o => o.contents.map fun c => (c, o.fpns)

/-- The pages of a key-value object are read (R384, R389). -/
def State.askObject (s : State) (c : RetrCmd) (fpns : List Nat) : State :=
  s.setRetr { s.retr with reads := s.retr.reads ++ fpns.map fun fpn =>
    { handle := c.handle, version := 0, fpn, level := 0, kind := .object, cmds := [c.uid], seq := c.seq } }

/-- The place of a block-table entry, which is read and written (R338, R389). -/
def State.entryPlace (s : State) (part va : Nat) : Option Nat × State := match s.ctlPlace part va .read with
  | (none, s1) => (none, s1)
  | (some _, s1) => s1.ctlPlace part va .write

/-- KVF is accepted: steps 1 and 2 of R389, and the reads of step 3. -/
def State.acceptKvf (s : State) (c : RetrCmd) (b : CmdBlock) (x : Index) : Accepted :=
  match s.entryPlace c.part b.table with
  | (none, s1) => s1.failCmd c c.seq (kAddress, b.table) (s1.freeField c 12)
  | (some pa, s1) =>
    if b.out < x.arenaBase || x.arenaBase + x.arenaLen < b.out + 65536 then s1.failCmd c c.seq (kArena, 0) (s1.freeField c 12)
    else if (s1.die.poisonIn pa 16).isSome then s1.failCmd c c.seq (kPoison, 0) (s1.freeField c 12)
    else
      let (w0, s2) := s1.dieNat pa 8
      let (w1, s3) := s2.dieNat (pa + 8) 8
      let s4 := s3.diePut pa 16 (w0 % 2 ^ 63 + w1 * 2 ^ 64)
      let s5 := s4.setCmd { c with gen := x.gen, tablePa := pa, vas := c.vas ++ [b.table] }
      (c.seq, s5.askObject c (((x.objectAt c.id c.blockNo x.gen).map (·.2)).getD []))

/-- DARN is accepted (R394). -/
def State.acceptDarn (s : State) (c : RetrCmd) (b : CmdBlock) (x : Index) : Accepted :=
  if b.mode ≠ 0 then (c.seq, (s.setIdx c.handle { x with paused := b.mode = 1 }).endCmd c.uid kOk 0 0)
  else match x.pass with
    | some p => (c.seq, s.setIdx c.handle { x with pass := some { p with cmds := p.cmds ++ [c.uid] } })
    | none => (c.seq, s.setIdx c.handle { x with asked := x.asked ++ [c.uid] })

/-- A sent command is accepted by a controller: its block is read, its checks are made, and what d receives is known (R393,
R394, R396). -/
def State.acceptCmd (s : State) (c : RetrCmd) : Accepted :=
  let poisoned := (s.die.poisonIn c.blockPa 64).isSome
  let (bs, s1) := s.dieRead c.blockPa 64
  let b := CmdBlock.ofBytes bs
  let h := bits b.handle 9 0
  let c := { c with accepted := true, handle := h, k := b.k, blockNo := b.block, user := b.user, id := b.id, out := b.out,
                    table := b.table }
  let s2 := s1.setCmd c
  let gen := (s2.idx h).map (·.gen)
  let d := if c.op = opSrch then gen.getD (s2.freeField c 11)
    else if c.op = opIns || c.op = opDel then 2 ^ 64 - 1 else c.seq
  let failGen := if c.op = opSrch then d else if c.op = opDarn then 0 else s2.freeField c 12
  if poisoned then s2.failCmd c d (kPoison, 0) failGen
  else
    let st := s2.cmdStatus c b
    match s2.idx h with
    | none => s2.failCmd c d (st, 0) failGen
    | some x =>
      if st ≠ kOk then s2.failCmd c d (st, 0) failGen
      else if c.op = opSrch then s2.acceptSrch c b x
      else if c.op = opIns || c.op = opDel then s2.acceptAppend c b x
      else if c.op = opKvf then s2.acceptKvf c b x
      else s2.acceptDarn c b x

/-- Give d and the tokens of a command their value in the running context of a core, where its flight is. -/
def State.resolveCmd (s : State) (uid d : Nat) : State :=
  let hit (c : Ctx) : Option Flight := c.flights.find? fun f => match f.eff with
    | .command (.retrieval u _) => u = uid
    | _ => false
  let fix (c : Ctx) : Ctx := match hit c with
    | some f => (match f.eff with
      | .command (.retrieval _ dst) => c.resolve f.seq dst (BitVec.ofNat 64 d)
      | _ => c)
    | none => c
  { s with cores := s.cores.map fun k => { k with ctx := k.ctx.map fix } }

/-- Accept one sent command. -/
def State.accept (s : State) (uid : Nat) : State :=
  match s.retr.cmds.find? fun c => c.uid = uid && !c.accepted with
  | none => s
  | some c =>
    let (d, s1) := s.acceptCmd c
    { (s1.resolveCmd uid d) with freeCount := s1.freeCount + 1 }

/-- COMMAND_ACCEPT (R393): the command sent first. -/
def execCommandAccept (s : State) : Host.Outcome State Fault Refusal :=
  match s.retr.cmds.find? fun c => !c.accepted with
  | none => .next s
  | some c => .next (s.accept c.uid)

/-- A completion ring's software fields (R390). -/
structure RingDesc where
  base  : Nat
  slots : Nat
  ok    : Bool
  deriving DecidableEq, Repr

def State.ringDesc (s : State) (pa : Nat) : RingDesc :=
  let base := s.peek pa 8
  let slots := s.peek (pa + 8) 4
  { base, slots,
    ok := base < 2 ^ 48 && base % 32 = 0 && ((List.range 17).any fun k => slots = 2 ^ k) && s.peek (pa + 12) 4 = 0 &&
      s.peek (pa + 0x30) 16 = 0 }

/-- Steps 1 and 2 of R393 for one address operand. -/
def State.retrPlace (s : State) (v : Word) : Except Trap Nat × State :=
  let a := v.toNat
  if a % 64 ≠ 0 then (.error { cause := causeMisaligned, addr := some a }, s)
  else if 2 ^ 48 ≤ a then (.error { cause := causeData, addr := some a }, s)
  else
    let one (s : State) (acc : Acc) : Except Trap Nat × State := match s.translate s.focus s.asn a acc with
      | (.error c, s1) => (.error { cause := c, addr := some a }, s1)
      | (.ok ph, s1) =>
        if ph.attr ≠ 0 then (.error { cause := causeProtection, addr := some a }, s1) else (.ok ph.pa, s1)
    match one s .read with
    | (.error t, s1) => (.error t, s1)
    | (.ok _, s1) => one s1 .write

def causeRing : Nat := 0x40
def causeHandle : Nat := 0x41

/-- Retrieval commands of a task that have written no completion (R393). -/
def State.outstanding (s : State) : Nat :=
  match s.ctx.task with
  | none => 0
  | some t => (s.retr.cmds.filter fun c => c.part = t.part && c.task = t.record).length

/-- The issue of SRCH, INS, DEL, KVF or DARN (R393). -/
def State.retrieve (s : State) (i : Instr) (w : Ins) (op : Nat) : Host.Outcome State Fault Refusal :=
  .next (s.issue i w profileHook [] noEarly (fun s => s.outstanding < 256) fun s st tk =>
    match s.retrPlace (s.srcA st tk w) with
    | (.error t, s1) => .trapIn s1 t
    | (.ok blockPa, s1) =>
      match s1.retrPlace (s.srcB st tk w) with
      | (.error t, s2) => .trapIn s2 t
      | (.ok ringPa, s2) =>
        let s2 := s2.noteRead ringPa 64
        if !(s2.ringDesc ringPa).ok then .trapIn s2 { cause := causeRing }
        else
          let s3 := (s2.forceStores fun f => f.stream = st).writeBackAll s2.focus
          let r := s3.retr
          let c := s3.ctx
          let cmd : RetrCmd := {
            uid := r.uidNext, op, task := (c.task.map (·.record)).getD 0, issue := c.seqNext,
            seq := c.retrNext, part := s3.asn, region := s3.ownRegion, blockPa, ringPa, accepted := false, handle := 0, k := 0,
            blockNo := 0, user := 0, id := 0, out := 0, table := 0, gen := 0, hpos := 0, tablePa := 0, outPas := [],
            vas := [(s.srcA st tk w).toNat, (s.srcB st tk w).toNat], query := none, killed := false, result := none }
          let s4 := (s3.setRetr { r with cmds := r.cmds ++ [cmd], uidNext := r.uidNext + 1 }).setCtx
            { c with retrNext := (c.retrNext + 1) % 2 ^ 48 }
          .ok s4 [.command (.retrieval cmd.uid (c.target st w.dst))] 0 (latBound w.lat))

/-- SRCH (R393, R394). -/
def execSrch (w : Ins) (s : State) : Host.Outcome State Fault Refusal := s.retrieve (.srch w) w opSrch
/-- INS (R393, R394). -/
def execIns (w : Ins) (s : State) : Host.Outcome State Fault Refusal := s.retrieve (.ins w) w opIns
/-- DEL (R393, R394). -/
def execDel (w : Ins) (s : State) : Host.Outcome State Fault Refusal := s.retrieve (.del w) w opDel
/-- KVF (R389, R393). -/
def execKvf (w : Ins) (s : State) : Host.Outcome State Fault Refusal := s.retrieve (.kvf w) w opKvf
/-- DARN (R393, R394). -/
def execDarn (w : Ins) (s : State) : Host.Outcome State Fault Refusal := s.retrieve (.darn w) w opDarn

/-- A completion ring holds an entry. -/
def State.ringHolds (s : State) (pa : Nat) : Bool := s.peek (pa + 0x18) 8 < s.peek (pa + 0x10) 8

/-- Pop a completion ring in one step: the slot address (R395); the core's copies are read afresh after it (R345). -/
def State.popRing (s : State) (pa : Nat) : Option (Nat × State) :=
  let d := s.ringDesc pa
  let r := s.peek (pa + 0x18) 8
  if r < s.peek (pa + 0x10) 8 then
    some (d.base + 32 * (r % d.slots), (s.diePut (pa + 0x18) 8 (r + 1)).markStale s.focus)
  else none

/-- RPOP (R395): where the ring is empty and nb is 0, its landing waits for an entry. -/
def execRpop (w : Ins) (s : State) : Host.Outcome State Fault Refusal :=
  s.run (.rpop w) w noEarly fun s st tk =>
    match s.retrPlace (s.srcA st tk w) with
    | (.error t, s1) => .trapIn s1 t
    | (.ok pa, s1) =>
      let s1 := s1.noteRead pa 64
      if !(s1.ringDesc pa).ok then .trapIn s1 { cause := causeRing }
      else match s1.popRing pa with
        | some (a, s2) => .ok s2 (s2.ctx.result st w.dst (BitVec.ofNat 64 a)) (BitVec.ofNat 64 a) (latBound w.lat)
        | none =>
          if bit w.imm.toNat 0 then .ok s1 (s1.ctx.result st w.dst 0) 0 (latBound w.lat)
          else match s1.ctx.target st w.dst with
            | some t => .ok s1 [.command (.pop pa t)] 0 (latBound w.lat)
            | none => .ok s1 [] 0 (latBound w.lat)

/-- The index RSTAT or GENQ names (R395). -/
def State.usableIdx (s : State) (h : Word) : Option Index :=
  if h.toNat < 1024 then
    (s.idx h.toNat).filter fun x => !x.dying && s.idxUsable s.asn s.ownRegion x
  else none

/-- RSTAT (R395). -/
def execRstat (w : Ins) (s : State) : Host.Outcome State Fault Refusal :=
  s.run (.rstat w) w noEarly fun s st tk =>
    if 13 ≤ w.imm.toNat then .trap { cause := causeOperand }
    else match s.usableIdx (s.srcA st tk w) with
      | none => .trap { cause := causeHandle }
      | some x =>
        let v := BitVec.ofNat 64 (vget 0 x.counters w.imm.toNat)
        .ok s (s.ctx.result st w.dst v) v (latBound w.lat)

/-- GENQ (R395). -/
def execGenq (w : Ins) (s : State) : Host.Outcome State Fault Refusal :=
  s.run (.genq w) w noEarly fun s st tk =>
    match s.usableIdx (s.srcA st tk w) with
    | none => .trap { cause := causeHandle }
    | some x =>
      let n := match w.imm.toNat with
        | 0 => x.gen
        | 1 => x.hposNext
        | 2 => (x.versions.head?.map (·.fromGen)).getD 0
        | _ => x.versions.length
      let v := BitVec.ofNat 64 n
      .ok s (s.ctx.result st w.dst v) v (latBound w.lat)

end Sys2Proof.Machine
end

