-- ==== Sys2Proof/Machine/Land.lean ====
section
/-! DEFINITION. Landings: what an effect in flight does when it lands, which flights of a cycle land, the retries of locks and
pops, and the carrying and withdrawing of a stop (01 R19 to R23, R39, R40; 05 R167; 07 R210; 09 R267, R449). -/

namespace Sys2Proof.Machine

def causeOverflow : Nat := 0x05

/-- Put a value into a result-queue entry, if it is still one of the sixteen (R15). -/
def Stream.putQ (t : Stream) (alloc : Nat) (v : Word) : Stream :=
  if alloc < t.qCount then { t with q := vset t.q (t.qCount - 1 - alloc) v } else t

/-- A register result lands (R19). -/
def Ctx.landReg (c : Ctx) (t : Target) (v : Word) : Ctx := match t with
  | .x st n => c.setStream st { c.stream st with x := vset (c.stream st).x n v }
  | .q st a => c.setStream st ((c.stream st).putQ a v)
  | .b n => { c with b := setFlag c.b n (flagBit v) }
  | .sys n => c.writeSys n v

/-- HELD of a tile's header: 64 plies for DENSE, 2·RANK for PAIR, none for ZERO (R211, R212). -/
def heldOf (rep rank : Nat) : Nat := if rep = 1 then 64 else if rep = 2 then 2 * rank else 0

/-- A tile write lands: the plies it reserved beyond those the result holds return to FREE (R231); header and plies change together (R20, R213, R215). -/
def Ctx.landTile (c : Ctx) (n : Nat) (u : TileUpd) : Ctx :=
  let z := c.tile n
  match u with
  | .write rep rank plies rcap rinv _ =>
    { c with z := vset c.z n { z with rep, rank, tag := 0x1F, held := heldOf rep rank, plies },
             factctl := c.factctl ||| (if rcap then 0x200 else 0) ||| (if rinv then 0x100 else 0) }
  | .limit l => { c with z := vset c.z n { z with limit := l } }
  | .free => { c with z := vset c.z n { z with rep := 0, rank := 0, tag := 0, held := 0, plies := [] } }

/-- The tokens pushed with an issue take a payload (R35). -/
def Ctx.payTokens (c : Ctx) (seq : Nat) (pay : Word) : Ctx :=
  { c with flights := c.flights.map fun f => if f.seq = seq then
      (match f.eff with
      | .token q i _ => { f with eff := .token q i pay }
      | _ => f) else f }

/-- A register of VFILL's set that is not its first: the payload is the first's (R35, R200). -/
def Flight.laterOfSet (f : Flight) (n : Nat) : Bool :=
  opcodeOf f.word = 0x138 && firstOfSet (f.word.extractLsb' 64 32).toNat ≠ some n

/-- Lanes of a vector result merge with the register's (R181); the payload of its pushes is the register's as it then stands
(R35, R182). -/
def Ctx.landVec (c : Ctx) (f : Flight) (n : Nat) (lanes : Vector Lane 64) (mask : Word) : Ctx :=
  let old := c.vreg n
  let new : Vector Lane 64 := Vector.ofFn fun (j : Fin 64) => if mask.getLsbD j then lanes[j] else old.lanes[j]
  let c1 := { c with v := vset c.v n { old with lanes := new } }
  if f.laterOfSet n then c1 else c1.payTokens f.seq (lanePayload new)

/-- The bits of a mask result merge with the register's; the payload of its pushes is the register as it then stands (R35, R182). -/
def Ctx.landMask (c : Ctx) (f : Flight) (n : Nat) (v mask : Word) : Ctx :=
  let new := (vget 0 c.k n &&& ~~~mask) ||| (v &&& mask)
  if n = 0 then c else { c with k := vset c.k n new }.payTokens f.seq new

/-- A pushed token becomes visible (R34). -/
def Ctx.landToken (c : Ctx) (queue id : Nat) (v : Word) : Ctx :=
  { c with tokens := vset c.tokens queue ((c.queue queue).map fun t => if t.id = id then { t with v := some v } else t) }

/-- Release a lock bit (R121). -/
def State.landUnlock (s : State) (off : Nat) : State :=
  let c := s.ctx
  let s1 := s.setCtx { c with lockS := if c.lockS = some off then none else c.lockS,
                              lockL := if c.lockS ≠ some off && c.lockL = some off then none else c.lockL }
  s1.setHere { s1.here with locks := s1.here.locks &&& ~~~(BitVec.twoPow 512 (lockBit off)) }

/-- A granted acquire is complete: the context holds the guard, and reads lines afresh (R133, R345). -/
def State.landAcquired (s : State) (va pa : Nat) (excl : Bool) (dst : Option Target) (version : Nat) : State :=
  let s1 := s.markStale s.focus
  let c := { s1.ctx with guards := s1.ctx.guards ++ [{ addr := va, pa, excl }] }
  s1.setCtx (match dst with
    | some t => c.landReg t (BitVec.ofNat 64 version)
    | none => c)

/-- A granted acquire is performed whole before its bound, for a release that has waited for the grant or at a stop; its landing then
only writes its destination (R134, R267). -/
def State.finishAcquire (s : State) (f : Flight) : State :=
  match f.eff with
  | .command (.acquired va pa excl dst version) =>
    let s1 := s.landAcquired va pa excl none version
    s1.setCtx (s1.ctx.resolve f.seq dst (BitVec.ofNat 64 version))
  | _ => s

/-- A release lands: the guard is held, or granted to an acquire that has not landed (R134). -/
def State.landRelease (s : State) (pa : Nat) : State :=
  let s1 := match s.ctx.holdsGuard pa, s.ctx.flights.find? fun f => f.eff.granted = some pa with
    | none, some f => s.finishAcquire f
    | _, _ => s
  match s1.ctx.holdsGuard pa with
  | some h => s1.releaseGuard h
  | none => s1

/-- A device access is performed (R335): the value of a load goes to its destination at the landing. -/
def State.performDevice (s : State) (f : Flight) : State :=
  match f.eff with
  | .command (.deviceLoad pa size signed dst) =>
    let (v, s1) := s.devRead pa
    s1.setCtx (s1.ctx.resolve f.seq (some dst) (loadedWord size signed (natBytes size (devPart pa size v))))
  | .command (.deviceStore pa _ v) =>
    let s1 := s.devWrite s.asn pa v
    s1.setCtx (s1.ctx.resolve f.seq none 0)
  | _ => s

/-- A flight is a device access not yet performed. -/
def Flight.device (f : Flight) : Bool := match f.eff with
  | .command (.deviceLoad _ _ _ _) => true
  | .command (.deviceStore _ _ _) => true
  | _ => false

/-- The device accesses of a stream up to an issue, in issue order (R335). -/
def State.deviceUpTo (s : State) (st seq : Nat) : State :=
  (s.ctx.flights.filter fun f => f.stream = st && f.seq ≤ seq && f.device).foldl (fun s f => s.performDevice f) s

/-- A handler's XSCHED has discarded the FAULTED record: the INDEX of the frame says none (R262, R272; notes/assumptions/95). -/
def State.frameForgets (s : State) : State :=
  match s.storeCells (s.ctx.frameAddr.toNat + 0x127) (wholeBytes [0xFF]) with
  | (.error _, s1) => s1
  | (.ok cs, s1) => (s1.performCells s1.focus s1.asn cs).1

/-- An operation still in its unbounded wait; a release whose guard is held or granted waits no more (R449). -/
def State.waiting (s : State) (f : Flight) : Bool := f.eff.unbounded && (match f.eff with
  | .command (.release pa) => (s.ctx.holdsGuard pa).isNone && !s.ctx.granted pa
  | _ => true)

/-- An issue whose operation is withdrawn leaves no flight, and its stream stands at it again with its issue work done (R449). -/
def Ctx.withdraw (c : Ctx) (f : Flight) : Ctx :=
  let c1 := { c with flights := c.flights.filter fun g => g.seq ≠ f.seq }
  match f.back with
  | none => c1
  | some b =>
    let t := c1.stream f.stream
    let q : Vector Word 16 := if t.qCount = b.qCount then t.q
      else Vector.ofFn fun (i : Fin 16) => if i.val = 15 then vget 0 b.q 15 else vget 0 t.q (i.val + 1)
    c1.setStream f.stream { t with pc := b.pc, pos := b.pos, loops := b.loops, redo := b.redo, q, qCount := b.qCount, status := .run
                                   last := b.last }

/-- Withdraw the operations that still wait without bound (R449). The stream of one stands at it again, where that is all its stream
has issued since; otherwise the operation keeps its place on the core, with no entry and out of its guard's order, and its stream's
record names the first such operation (Ctx.shown; notes/assumptions/109). -/
def State.withdrawWaits (s : State) : State :=
  let ws := s.ctx.flights.filter s.waiting
  let last (f : Flight) : Bool := (s.ctx.stream f.stream).last = f.seq && !(ws.any fun g => g.stream = f.stream && g.seq ≠ f.seq)
  let s1 := s.setCtx ((ws.filter last).foldl (fun c f => c.withdraw f) s.ctx)
  let d := s1.die
  { s1 with die := { d with guardReqs := d.guardReqs.filter fun r =>
      !(r.core = s.focus && r.slot = s.here.running && ws.any fun f => f.seq = r.seq) } }

/-- The acquires that a stop took out of their guards' orders enter them again (R449). -/
def State.reenter (s : State) (core slot : Nat) : State :=
  let x := s.ctxAt core slot
  let s := s.setCore core ((s.core core).setSlot slot { x with seq := { x.seq with entry := none } })
  x.flights.foldl (fun s f => match f.eff with
    | .command (.acquire _ pa excl _) =>
      let d := s.die
      if d.guardReqs.any fun r => r.core = core && r.slot = slot && r.seq = f.seq then s
      else { s with die := { d with guardReqs := d.guardReqs ++ [{ guard := pa, core, slot, seq := f.seq, excl }] } }
    | _ => s) s

/-- A captured acquire or release is performed whole (R267). -/
def State.carryGuard (s : State) (f : Flight) : State :=
  match f.eff with
  | .command (.release pa) => if (s.ctx.holdsGuard pa).isSome then (s.landRelease pa).setCtx ((s.landRelease pa).ctx.resolve f.seq none 0) else s
  | _ => s.finishAcquire f

/-- A retrieval command in flight is accepted (R267, R393). -/
def State.carryRetrieval (s : State) (f : Flight) : State := match f.eff with
  | .command (.retrieval uid _) => s.accept uid
  | _ => s

/-- A captured instruction-cache flush is performed whole (R267). -/
def State.carryFlush (s : State) (f : Flight) : State := match f.eff with
  | .command (.icflush lo len scope) =>
    let s1 := s.dropCaptures (flushScope s.focus scope) s.asn lo len
    s1.setCtx (s1.ctx.resolve f.seq none 0)
  | _ => s

/-- The instructions whose lanes or registers are all performed in a stop's freeze (R267): VSCAT and VSPILL. -/
def Flight.byLanes (f : Flight) : Bool := [0x135, 0x137].contains (opcodeOf f.word)

/-- The waiting operations are withdrawn, and every captured one is carried to the point before its landing (R267, R449). -/
def State.carry (s : State) : State :=
  let s1 := s.withdrawWaits.forceStores Flight.byLanes
  let s2 := s1.ctx.flights.foldl (fun s f => s.carryGuard f) s1
  let s3 := s2.ctx.flights.foldl (fun s f => s.carryRetrieval f) s2
  let s4 := s3.ctx.flights.foldl (fun s f => if f.device then s.performDevice f else s) s3
  s4.ctx.flights.foldl (fun s f => s.carryFlush f) s4

/-- The kill of regions lands: every other task of them has stopped, and the issuing task, where it is of one, ends, what it has in flight carried as at any stop (R267, R320). -/
def State.ownKill (s : State) (subs : List Nat) : State :=
  if s.ctx.task.any fun t => subs.contains t.region then
    let r := s.carry.endContext s.focus s.here.running .killed causeKilled 0 causeKilled
    r.1.settle r.2
  else s

/-- The effect of a landing command (R274). -/
def State.landCommand (s : State) (c : Command) : State :=
  match c with
  | .acquired va pa excl dst version => s.landAcquired va pa excl dst version
  | .release pa => s.landRelease pa
  | .unlock off => s.landUnlock off
  | .rgnNew rcb parent dst =>
    let (i, s1) := s.regionNew s.asn rcb parent
    let v : Word := match i with
      | some i => BitVec.ofNat 64 i
      | none => BitVec.allOnes 64
    (match dst with
    | some t => s1.setCtx (s1.ctx.landReg t v)
    | none => s1)
  | .rgnKill i => s.regionKill s.asn i
  | .killing _ subs => s.ownKill subs
  | .rgnSet i off v => s.regionSet s.asn i off v
  | .bindPort p gen r => s.setCtx (s.ctx.bindPort p gen r)
  | .rowpred v => s.setCtx { s.ctx with rowpred := v }
  | .clearBitmap n keep => s.setCtx { s.ctx with cb := vset s.ctx.cb n keep }
  | .xsched idx recs =>
    let s1 := s.setCtx (s.ctx.landSeq c)
    if s.ctx.handler && (List.range recs.length).any fun i => (s.ctx.slotAt (idx + i)).state = .faulted then s1.frameForgets else s1
  | .xstage _ => s.setCtx (s.ctx.landSeq c)
  | .ringset _ _ => s.setCtx (s.ctx.landSeq c)
  | .icflush lo len scope => s.dropCaptures (flushScope s.focus scope) s.asn lo len
  | _ => s

/-- Add to an event counter; above 65,535 it saturates, and the POST that issued last names the fault (R38, R40). -/
def State.landPosts (s : State) (n : Nat) (ps : List Flight) : State :=
  let total := (ps.map fun f => match f.eff with
    | .post _ k => k
    | _ => 0).sum
  let c := s.ctx
  let v := (vget 0 c.events n).toNat + total
  let c1 := { c with events := vset c.events n (BitVec.ofNat 16 (min v 65535)) }
  if v ≤ 65535 then s.setCtx c1
  else
    let last := ps.foldl (fun (b : Option Flight) f => match b with
      | none => some f
      | some g => if g.issued < f.issued || (g.issued = f.issued && g.stream ≤ f.stream) then some f else some g) none
    match last with
    | none => s.setCtx c1
    | some f => (s.setCtx c1).addFault
        { cause := causeOverflow, origin := f.stream, pc := f.pc, word := f.word, aux := n, addr := none, straddle := false,
          imprecise := false, redo := none, cbsel := none, seqPart := none }

/-- One flight lands; it is in flight no longer. -/
def State.landFlight (s : State) (f : Flight) : State :=
  let drop (s : State) : State := s.setCtx { s.ctx with flights := s.ctx.flights.erase f }
  match f.eff with
  | .reg t v => (drop s).setCtx ((drop s).ctx.landReg t v)
  | .kreg n v mask => (drop s).setCtx ((drop s).ctx.landMask f n v mask)
  | .vec n lanes mask => (drop s).setCtx ((drop s).ctx.landVec f n lanes mask)
  | .tile n u => (drop s).setCtx ((drop s).ctx.landTile n u)
  | .nest n v => (drop s).setCtx { (drop s).ctx with nests := vset (drop s).ctx.nests n v }
  | .store _ _ => drop (s.landStore f)
  | .token q i v => (drop s).setCtx ((drop s).ctx.landToken q i v)
  | .post n _ => (drop s).landPosts n [f]
  | .command c => (drop s).landCommand c
  | .mark => drop s

/-- An earlier write of a destination of a flight has not landed: in interlocked mode writes to one destination land in the order of
issue (R23). -/
def Ctx.follows (c : Ctx) (f : Flight) : Bool := !c.exposed && c.flights.any fun g => g.seq < f.seq && g.eff.shares f.eff

/-- A task of some regions of the partition, other than the one in focus, has still to stop for a kill (R320). -/
def State.killRuns (s : State) (subs : List Nat) : Bool :=
  (List.range 128).any fun n => (List.range 2).any fun c =>
    !(n = s.focus && c = s.here.running) && (s.ctxAt n c).task.any fun t => t.killed && t.part = s.asn && subs.contains t.region

/-- What a landing still waits for, beside its time (R23, R34, R134, R320, R322, R393, R395). -/
def State.mayLand (s : State) (f : Flight) : Bool :=
  !s.ctx.follows f && match f.eff with
  | .command (.acquire _ _ _ _) => false
  | .command (.lock _ _) => false
  | .command (.pop _ _) => false
  | .command (.proxyPush _ _ _ _ _) => false
  | .command (.retrieval _ _) => false
  | .command (.rgnKill _) => false
  | .command (.killing _ subs) => !s.killRuns subs
  | .command (.release pa) => (s.ctx.holdsGuard pa).isSome || s.ctx.granted pa
  | .command (.proxyFlush pa head) => s.flushed pa head
  | .token _ _ _ => !(s.ctx.flights.any fun g => g.seq = f.seq && (match g.eff with
      | .token _ _ _ => false
      | _ => true))
  | _ => true

/-- Its landing cycle has come, and its result is ready. -/
def Ctx.due (c : Ctx) (f : Flight) : Bool := f.land ≤ c.cycle && (f.ready.any fun r => r ≤ c.coreCycle)

/-- Order of landings in a cycle (R21, R215): system registers first, then landing cycle, then issue. -/
def Flight.key (f : Flight) : Nat × Nat × Nat := (match f.eff with
  | .reg (.sys _) _ => 0
  | _ => 1, f.land, f.seq)
def keyLt (a b : Nat × Nat × Nat) : Bool := a.1 < b.1 || (a.1 = b.1 && (a.2.1 < b.2.1 || (a.2.1 = b.2.1 && a.2.2 < b.2.2)))

/-- The first flight, by that order, that a selection names. -/
def Ctx.firstFlight (c : Ctx) (sel : Flight → Bool) : Option Flight :=
  (c.flights.filter sel).foldl (fun (b : Option Flight) f => match b with
    | none => some f
    | some g => if keyLt f.key g.key then some f else some g) none

/-- Does a flight end the context it stands in when it lands (R320)? -/
def Flight.kills (f : Flight) : Bool := match f.eff with
  | .command (.killing _ _) => true
  | _ => false

/-- A flight is a POST. -/
def Flight.post? (f : Flight) : Option Nat := match f.eff with
  | .post n _ => some n
  | _ => none

/-- Land one by one what a selection names; a kill of a region ends the run, for it may end the context. -/
def State.landAll (s : State) (sel : State → Flight → Bool) : Nat → State
  | 0 => s
  | k + 1 =>
    match s.ctx.firstFlight (sel s) with
    | none => s
    | some f =>
      if f.kills then s.landFlight f
      else
        let s1 := if f.device then s.deviceUpTo f.stream f.seq else s
        match s1.ctx.flights.find? fun g => g.seq = f.seq && g.land = f.land && (g = f || f.device) with
        | none => s1.landAll sel k
        | some g => (s1.landFlight g).landAll sel k

/-- The posts of a cycle land together, counter by counter (R40). -/
def State.landDuePosts (s : State) (sel : State → Flight → Bool) : State :=
  (List.range 32).foldl (fun s n =>
    let ps := s.ctx.flights.filter fun f => f.post? = some n && sel s f
    if ps.isEmpty then s
    else (s.setCtx { s.ctx with flights := s.ctx.flights.filter fun f => !(ps.contains f) }).landPosts n ps) s

/-- A retry's one bank access (R167): a second does not come before the first is granted. -/
def Ctx.askOnce (c : Ctx) (req off : Nat) : Ctx := if c.wantsBank req (bits off 11 7) then c else c.askBanks req [(off, 8)]

/-- A waiting LDLK of a stream tries its lock bit (R167). -/
def State.retryLock (s : State) (st : Nat) : State :=
  match s.ctx.flights.find? fun f => f.stream = st && (match f.eff with
      | .command (.lock _ _) => true
      | _ => false) with
  | none => s
  | some f =>
    match f.eff with
    | .command (.lock off t) =>
      if s.here.locks.getLsbD (lockBit off) then s.setCtx (s.ctx.askOnce (8 + st) off)
      else
        let v := loadedWord 8 false (s.loadSpad st off 8)
        let s1 := (s.setHere { s.here with locks := s.here.locks ||| BitVec.twoPow 512 (lockBit off) }).askBanks (8 + st) [(off, 8)]
        let c := s1.ctx.resolve f.seq (some t) v
        s1.setCtx (if st = 0 then { c with lockS := some off } else { c with lockL := some off })
    | _ => s

/-- LOCK_RETRY (R167): S is stream 0, L is stream 1. -/
def execLockRetry (core stream : Nat) (s : State) : Host.Outcome State Fault Refusal :=
  if 2 ≤ stream then .refused .noSuchPlace else s.atCore core fun s => s.retryLock stream

/-- A waiting RPOP tries its ring (R395). -/
def State.retryPop (s : State) (f : Flight) : State :=
  match f.eff with
  | .command (.pop ring t) => (match (if s.ringHolds ring then s.noteRead ring 64 else s).popRing ring with
      | some (a, s1) => s1.setCtx (s1.ctx.resolve f.seq (some t) (BitVec.ofNat 64 a))
      | none => s)
  | _ => s
def State.retryPops (s : State) : State := s.ctx.flights.foldl (fun s f => s.retryPop f) s

/-- A waiting PXPUSH writes its entry once there is room; where its place may not be written, the push stops with that fault (R322,
R449; notes/assumptions/109). -/
def State.retryPush (s : State) (f : Flight) : State :=
  match f.eff with
  | .command (.proxyPush desc pa shadow slots entry) =>
    if s.proxyFull pa slots then s
    else
      let va := s.proxySlot pa shadow slots
      (match s.translate s.focus s.asn va .write with
      | (.error c, s1) =>
        (s1.setCtx (s1.ctx.resolve f.seq none 0)).addFault { f.rmwFault va with cause := c }
      | (.ok ph, s1) =>
        let s2 := if ph.attr = 0 then s1.pushEntry desc pa ph.pa entry else s1.addFault { f.rmwFault va with cause := causeProxy, addr := none }
        s2.setCtx (s2.ctx.resolve f.seq none 0))
  | _ => s
def State.retryPushes (s : State) : State := s.ctx.flights.foldl (fun s f => s.retryPush f) s

/-- A RGNKILL whose landing cycle has come reaches the tasks of its region and of those below, once (R320). -/
def State.startKill (s : State) (f : Flight) : State :=
  match f.eff with
  | .command (.rgnKill i) =>
    let subs := (s.rgnAll s.asn).filter fun j => s.rgnWithin s.asn i j
    let c := s.ctx
    (s.setCtx { c with flights := c.flights.map fun g => if g = f then { g with eff := .command (.killing i subs) } else g }).landCommand
      (.rgnKill i)
  | _ => s
def State.startKills (s : State) : State := (s.ctx.flights.filter s.ctx.due).foldl (fun s f => s.startKill f) s

/-- The array starts its next step (R210). -/
def Ctx.stepArray (c : Ctx) : Ctx :=
  match c.array with
  | [] => c
  | (seq, cost, issued) :: rest =>
    let start := max c.arrayFree (issued + 1)
    if c.coreCycle < start then c
    else
      { c with array := rest, arrayFree := start + cost
               flights := c.flights.map fun f => if f.seq = seq then { f with ready := some (start + cost + 8) } else f }

/-- MATRIX_STEP (R210). -/
def execMatrixStep (core : Nat) (s : State) : Host.Outcome State Fault Refusal := s.atCore core fun s => s.setCtx s.ctx.stepArray

/-- The waiting locks, pops and pushes of the running context try again, and a kill that is due goes out (R167, R320, R322, R395). -/
def State.retryWaits (s : State) : State := ((s.retryLock 0).retryLock 1).retryPops.retryPushes.startKills

/-- What may land now lands, posts first (R19, R39, R40). -/
def State.landDueNow (s : State) : State :=
  let sel : State → Flight → Bool := fun s f => s.ctx.due f && s.mayLand f
  let s1 := s.landDuePosts sel
  s1.landAll sel s1.ctx.flights.length

/-- What lands at the start of the running context's cycle (R19, R39). -/
def State.landNow (s : State) : State := (s.setCtx s.ctx.stepArray).retryWaits.landDueNow

/-- The next landing of a context: whether some flight may land now. -/
def State.lands (s : State) : Bool := s.ctx.flights.any fun f => s.ctx.due f && s.mayLand f

/-- RESULT_LAND (R19): at the start of a cycle of a task that may move. -/
def execResultLand (core : Nat) (s : State) : Host.Outcome State Fault Refusal :=
  s.atCore core fun s => if s.here.turn = 0 && s.ctx.moves then s.landNow else s

/-- Remaining latencies at a stop that drains nothing (R41, R280): in interlocked mode those of the bounds. -/
def Ctx.holdFlights (c : Ctx) : Ctx :=
  { c with
    flights := c.flights.map fun f =>
      let remain := if c.exposed then max 1 (f.land - c.cycle) else max 1 (f.bound - (c.cycle - f.issued))
      { f with land := c.cycle + remain, ready := some 0 }
    array := [] }

/-- An engine command of a stream is performed ahead of its landing, which then does nothing or only writes its destination (R135). -/
def State.performEngine (s : State) (f : Flight) : State :=
  match f.eff with
  | .command (.retrieval uid _) => s.accept uid
  | .command (.deviceLoad _ _ _ _) => s.performDevice f
  | .command (.deviceStore _ _ _) => s.performDevice f
  | .command (.rgnKill _) => s.startKill f
  | .command (.killing _ _) => s
  | .command c => (s.landCommand c).setCtx ((s.landCommand c).ctx.resolve f.seq none 0)
  | _ => s

/-- FENCE (R135, R346): every earlier access and engine command of the stream is performed at the scope before a later access. In
interlocked mode it waits for the accesses to device registers and the engine commands; in exposed mode, where the wait is a freeze
and no landing comes, they are performed in it, ahead of their landings (notes/assumptions/107). -/
def execFence (w : Ins) (s : State) : Host.Outcome State Fault Refusal :=
  .next <| s.issue (.fence w) w profileHook [] noEarly (fun s => !s.ctx.fenced (s.streamOf w)) fun s st _ =>
    let scope := w.imm.toNat
    let s0 := (s.ctx.flights.filter fun f => f.stream = st && f.eff.engine).foldl (fun s f => s.performEngine f) s
    let s1 := s0.forceStores fun f => f.stream = st
    let s2 := if 2 ≤ scope then (s1.writeBackAll s1.focus).markStale s1.focus else s1
    .ok s2 [] 0 (latBound w.lat)

end Sys2Proof.Machine
end

