-- ==== Sys2Proof/Machine/Fetch.lean ====
section
/-! DEFINITION. Fetching code: the captures of the instruction cache and the bytes of the instruction at an address, or the cause
of a failing fetch (02 R64, R65; 13 R338). -/

namespace Sys2Proof.Machine

/-- Code as a capture reads it: its physical address, its bytes, and the addresses of the poisoned words it meets. -/
structure CodeRead where
  pa     : Nat
  bytes  : List Byte
  poison : List Nat
  deriving DecidableEq, Repr

/-- Bytes of code from a virtual address, within one page, as a fill reads them, or the cause of the failure: FETCH-FAULT
(R65), or what a walk gives for a malformed or poisoned entry (R338; notes/assumptions/41). -/
def State.codeBytes (s : State) (core asn va n : Nat) : Except Nat CodeRead × State :=
  match s.translate core asn va .fetch with
  | (.error c, s1) => (.error (if c = causeTableInvalid || c = causeTablePoisoned then c else causeFetch), s1)
  | (.ok ph, s1) =>
    let r := s1.dieRead ph.pa n
    (.ok { pa := ph.pa, bytes := r.1, poison := s1.die.poison.filter fun w => w < ph.pa + n && ph.pa < w + 32 }, r.2)

/-- The offsets, from `base`, of the bytes of a read that are poisoned. -/
def CodeRead.bad (c : CodeRead) (base : Nat) : List Nat :=
  (List.range c.bytes.length).filterMap fun i => if c.poison.any (fun w => w ≤ c.pa + i && c.pa + i < w + 32) then some (base + i) else none

/-- A fill of the focus core's instruction cache for a virtual line: the line and the twelve bytes that follow, as far as they
can be fetched (R64). -/
def State.fillCapture (s : State) (vline : Nat) : State :=
  let asn := s.asn
  match s.codeBytes s.focus asn (128 * vline) 128 with
  | (.error _, s1) => s1
  | (.ok c, s1) =>
    let (more, s2) := s1.codeBytes s.focus asn (128 * vline + 128) 12
    let k := s2.here
    let tail := more.toOption
    let new : ICapture := { asn, vline, pline := c.pa / 128, bytes := c.bytes ++ (tail.map (·.bytes)).getD [],
                            poison := c.bad 0 ++ (tail.map (·.bad 128)).getD [] }
    let rest := k.icache.filter fun x => !(x.asn = asn && x.vline = vline)
    s2.setHere { k with icache := new :: rest }

/-- The capture of an address. -/
def Core.captureAt (c : Core) (asn pc : Nat) : Option ICapture := c.icache.find? fun x => x.asn = asn && x.vline = pc / 128

/-- The bytes a capture of the instruction cache holds from an address on (R64). -/
def Core.captured (c : Core) (asn pc : Nat) : Option (List Byte) := (c.captureAt asn pc).map fun x => x.bytes.drop (pc % 128)

/-- The bytes of the instruction at an address, or why and where its fetch fails (R65). -/
inductive Fetched where
  | bytes (bs : List Byte)
  | fault (cause addr : Nat) (straddle : Bool)
  deriving DecidableEq, Repr

/-- The instruction in some captured bytes is whole. -/
def wholeIn (bs : List Byte) : Bool := match decodeHead bs with
  | .error .short => false
  | _ => true

/-- Bytes an instruction takes, as its first byte says; one where that names no length. -/
def extentOf (bs : List Byte) : Nat := ((bs.head?.bind lenOf).map (·.bytes)).getD 1

/-- A fault at an address of an instruction's bytes: in its first page, or in the page that follows (R65). -/
def fetchFault (cause pc addr : Nat) : Fetched :=
  if addr / 4096 = pc / 4096 then .fault cause pc false else .fault cause ((pc / 4096 + 1) * 4096) true

/-- The instruction at an address in a capture that holds it: its bytes, or the fault of a poisoned one among them
(R65; notes/assumptions/41). -/
def ICapture.instr (x : ICapture) (pc : Nat) : Fetched :=
  let bs := x.bytes.drop (pc % 128)
  match x.poison.find? fun o => pc % 128 ≤ o && o < pc % 128 + extentOf bs with
  | some o => fetchFault causeFetch pc (pc / 128 * 128 + o)
  | none => .bytes bs

/-- The capture of an address holds the instruction whole. -/
def Core.holdsWhole (c : Core) (asn pc : Nat) : Bool := (c.captured asn pc).any wholeIn

/-- Fetch the instruction at a stream's address, filling the cache where it must (R64, R65). -/
def State.fetch (s : State) (pc : Nat) : Fetched × State :=
  let asn := s.asn
  let s1 := if s.here.holdsWhole asn pc then s else s.fillCapture (pc / 128)
  match s1.here.captureAt asn pc with
  | none => (match s1.codeBytes s1.focus asn pc 1 with
      | (.error c, s2) => (fetchFault c pc pc, s2)
      | (.ok _, s2) => (fetchFault causeFetch pc pc, s2))
  | some x =>
    if s1.here.holdsWhole asn pc then (x.instr pc, s1)
    else match s1.codeBytes s1.focus asn (128 * (pc / 128) + 128) 12 with
      | (.error c, s2) => (fetchFault c pc (128 * (pc / 128) + 128), s2)
      | (.ok _, s2) => (fetchFault causeFetch pc (128 * (pc / 128) + 128), s2)

end Sys2Proof.Machine
end

