-- ==== Sys2Proof/Machine/Frame.lean ====
section
/-! DEFINITION. The fault frame as bytes: stream records, sequencer part, task state and snapshot entries (09 R269 to R274). -/

namespace Sys2Proof.Machine

def causeFrame : Nat := 0x1A

/-- Lay fields, each with its offset, into `n` zero bytes. -/
def layFields (n : Nat) (fs : List (Nat × List Byte)) : List Byte :=
  (fs.foldl (fun acc f => acc.take f.1 ++ f.2 ++ acc.drop (f.1 + f.2.length)) (List.replicate n 0)).take n

/-- Pad some bytes with zeros to a multiple of 16. -/
def pad16 (bs : List Byte) : List Byte := bs ++ List.replicate ((16 - bs.length % 16) % 16) 0

/-- The completion bitmap an operand names. -/
def operandBitmap : Operand → Option Nat
  | .cb n => some n
  | _ => none

/-- The completion bitmap that an instruction names (R56). -/
def instrBitmap (i : Instr) : Option Nat :=
  match i.code? with
  | some (_, w) => ([w.sa, w.sb, w.sc].map operandBitmap).findSome? id
  | none => none

/-- The operation of a stream that a stop has taken out of its unbounded wait and left on the core, the first if there are several
(R449; notes/assumptions/109). -/
def Ctx.heldWait (c : Ctx) (st : Nat) : Option Flight := c.flights.find? fun f => f.stream = st && f.eff.unbounded && f.back.isSome

/-- A stream as its record shows it (R271, R449): at the operation held for it, which re-executes; else where it stands. -/
def Ctx.shown (c : Ctx) (st : Nat) : Stream :=
  let t := c.stream st
  match (c.heldWait st).bind (·.back) with
  | some b => { t with pc := b.pc, pos := b.pos, loops := b.loops, redo := b.redo, status := .run }
  | none => t

/-- The completion bitmap named by the instruction a stream resumes at, where the stream itself executes it
(R271; notes/assumptions/106). -/
def State.resumeBitmap (s : State) (st : Nat) : Option Nat :=
  match (s.fetch (s.ctx.shown st).pc).1 with
  | .fault _ _ _ => none
  | .bytes bs =>
    match decode bs with
    | .error _ => none
    | .ok i => (match i.code? with
      | some (_, w) => if tagStream w.tag = st && w.tag ≠ .A then instrBitmap i else none
      | none => none)

/-- The flags of RESUME for an instruction that re-executes (R271). -/
def Redo.flags (r : Redo) : Nat :=
  2 ^ 63 + (if r.awd then 2 ^ 62 else 0) + (if r.pfr.isSome then 2 ^ 61 else 0) + (if r.pbr.isSome then 2 ^ 60 else 0) +
    (if r.wfd.isSome then 2 ^ 59 else 0) + (if r.wbd.isSome then 2 ^ 58 else 0)

/-- A stream record (R271): the stream, its issue work, and the bitmap its resume instruction names. -/
def streamRecord (t : Stream) (redo : Option Redo) (cb : Option (Nat × Word)) : List Byte :=
  natBytes 8 (t.pc + (redo.map Redo.flags).getD 0) ++
    natBytes 8 (((redo.bind (·.wfd)).getD 0).toNat) ++ natBytes 8 (((redo.bind (·.wbd)).getD 0).toNat) ++
    (match cb with
      | some (n, v) => natBytes 8 (8 + n) ++ natBytes 8 v.toNat
      | none => natBytes 16 0) ++ natBytes 8 0

/-- The sequencer part (R272); INDEX 0xFF where no record faulted. -/
def seqBytes : Option SeqPart → List Byte
  | none => natBytes 8 (0xFF * 2 ^ 56) ++ natBytes 24 0
  | some p => natBytes 8 (p.index * 2 ^ 56 + p.cond * 2 ^ 48 + p.row * 2 ^ 32 + p.col * 2 ^ 16 + p.e) ++
      natBytes 8 (p.i3 * 2 ^ 48 + p.i2 * 2 ^ 32 + p.i1 * 2 ^ 16 + p.i0) ++ natBytes 8 p.n ++ natBytes 8 0

/-- A table of entries of `w` bytes, `n` of them, the missing ones zero. -/
def tableBytes (n w : Nat) (xs : List Nat) : List Byte := (List.range n).flatMap fun i => natBytes w (xs.getD i 0)

/-- The task state of a context (R273), 3,584 bytes: a token is visible once those before it are (R34). -/
def Ctx.taskState (c : Ctx) : List Byte :=
  let qs := c.tokens.toList
  let visible (q : List Token) : List Nat := (q.takeWhile fun t => t.v.isSome).filterMap fun t => t.v.map BitVec.toNat
  layFields 3584
    [ (0x000, tableBytes 32 2 (c.events.toList.map BitVec.toNat)),
      (0x040, tableBytes 8 1 (qs.map fun q => (visible q).length)),
      (0x048, tableBytes 8 1 (qs.map fun q => q.length - (visible q).length)),
      (0x050, qs.flatMap fun q => tableBytes 16 8 (visible q)),
      (0x350, c.streams.toList.flatMap fun t => tableBytes 16 8 (t.q.toList.map BitVec.toNat)),
      (0x5D0, c.streams.toList.flatMap fun t =>
        tableBytes 16 8 (t.loops.flatMap fun l => [l.trips * 2 ^ 48 + l.stop, l.start])),
      (0x850, c.streams.toList.flatMap fun t =>
        natBytes 8 t.pos ++ natBytes 4 t.brCount ++ natBytes 1 t.loops.length ++ natBytes 3 0),
      (0x8A0, natBytes 8 c.outcomes.length),
      (0x8A8, tableBytes 64 8 (c.outcomes.map fun o => (if o.taken then 2 ^ 63 else 0) + o.target)),
      (0xAA8, natBytes 8 (c.slip + (if c.exposed then 2 ^ 63 else 0))) ]

/-- Destination code of a scalar target (R57); a system register has none and shows as absent. -/
def Target.code : Target → Nat
  | .x _ n => 0x10 + n
  | .q _ _ => 0
  | .b n => 0x58 + n
  | .sys _ => 1

/-- The new header of a tile write in the layout of TRANK with FREE zero (R274). -/
def Ctx.tileHeader (c : Ctx) (n : Nat) (u : TileUpd) : Nat :=
  let z := c.tile n
  match u with
  | .write rep rank _ _ _ _ => headerWord { z with rep, rank, tag := 0x1F, held := heldOf rep rank } 0
  | .limit l => headerWord { z with limit := l } 0
  | .free => headerWord { z with rep := 0, rank := 0, tag := 0, held := 0 } 0

/-- The first address and the length of a packed vector store, whose disabled elements show as bytes not enabled (R196, R274). -/
def Flight.packedSpan (f : Flight) : Option (Nat × Nat) :=
  if opcodeOf f.word = 0x131 then
    some ((f.a + (f.word.extractLsb' 64 32).signExtend 64).toNat, 8 * fmtWidth (f.word.extractLsb' 56 6).toNat)
  else none

/-- Cells of a store cut into runs of consecutive addresses, at most 256 bytes each. -/
def storeRunsOf : List StoreCell → List (List StoreCell)
  | [] => []
  | x :: xs =>
    match storeRunsOf xs with
    | (y :: ys) :: rest => if y.va = x.va + 1 && ys.length < 255 then (x :: y :: ys) :: rest else [x] :: (y :: ys) :: rest
    | rest => [x] :: rest

/-- The spans that the entries of a store show: address, length and cells (R274; notes/assumptions/110). -/
def Flight.spans (f : Flight) (cells : List StoreCell) : List (Nat × Nat × List StoreCell) :=
  match f.packedSpan with
  | some (a, n) => [(a, n, cells)]
  | none => (storeRunsOf cells).map fun r => ((r.head?.map (·.va)).getD 0, r.length, r)

/-- A STORE entry's AUX and payload: the data, then one enable bit per byte (R274). -/
def storeEntry (spad : Bool) (a n : Nat) (cells : List StoreCell) : Nat × List Byte :=
  let at? (i : Nat) : Option StoreCell := cells.find? fun x => x.va = a + i && x.mask ≠ 0
  let en := (List.range n).foldr (fun i v => 2 * v + (if (at? i).isSome then 1 else 0)) 0
  ((if spad then 2 ^ 63 else 0) + (n - 1) * 2 ^ 48 + a % 2 ^ 48,
    pad16 ((List.range n).map fun i => ((at? i).map (·.val)).getD 0) ++ pad16 (natBytes ((n + 7) / 8) en))

/-- The destination a command writes at its landing, as its entry shows it (R57, R274). -/
def Command.dest : Command → Option Target
  | .acquire _ _ _ d => d
  | .acquired _ _ _ d _ => d
  | .lock _ d => some d
  | .pop _ d => some d
  | .rgnNew _ _ d => d
  | .retrieval _ d => d
  | .deviceLoad _ _ _ d => some d
  | _ => none

/-- The instructions of R198 to R200: the clearing of their bitmap is no entry of its own where they have a result or a store in
flight. -/
def Ctx.clearShows (c : Ctx) (f : Flight) : Bool := !(c.flights.any fun g => g.seq = f.seq && (match g.eff with
  | .vec _ _ _ => true
  | .store _ _ => !g.done
  | _ => false))

/-- The entries of one effect in flight (R274): kind, destination, AUX and payload. A performed store shows as MARK. -/
def Ctx.entryParts (c : Ctx) (f : Flight) : List (Nat × Nat × Nat × List Byte) :=
  match f.eff with
  | .reg t v => [(0x01, t.code, 0, natBytes 16 v.toNat)]
  | .kreg n v _ => [(0x01, 0x50 + n, 0, natBytes 16 v.toNat)]
  | .vec n lanes _ => [(0x02, 0x20 + n, 0, lanes.toList.flatMap fun x => natBytes 4 x.toNat)]
  | .tile n u => [(0x03, 0x30 + n, c.tileHeader n u, [])]
  | .nest n v => [(0x04, 0x70 + n, 0, natBytes 64 v.toNat)]
  | .store spad cells =>
    if f.byLanes then []
    else if f.done then [(0x09, 1, 0, [])]
    else (f.spans cells).map fun r =>
      let e := storeEntry spad r.1 r.2.1 r.2.2
      (0x05, 1, e.1, e.2)
  | .token q _ v => [(0x06, q, 0, natBytes 16 v.toNat)]
  | .post n k => [(0x07, n, k, [])]
  | .command (.clearBitmap _ _) => if c.clearShows f then [(0x09, 1, 0, [])] else []
  | .command k => [(0x08, (k.dest.map Target.code).getD 1, 0, natBytes 16 f.word.toNat ++ natBytes 8 f.a.toNat ++ natBytes 8 f.b.toNat ++ natBytes 16 f.c.toNat)]
  | .mark => [(0x09, 1, 0, [])]

/-- The entries of a flight as bytes, at a stop in cycle `stop` (R274). -/
def Ctx.entryBytes (c : Ctx) (stop : Nat) (f : Flight) : List (List Byte) :=
  (c.entryParts f).map fun (kind, dst, aux, payload) =>
    natBytes 8 (kind * 2 ^ 56 + f.stream * 2 ^ 53 + dst * 2 ^ 46 + f.tag.toNat * 2 ^ 40 + payload.length / 16 * 2 ^ 28 +
      (f.land - stop) % 8192) ++ natBytes 8 aux ++ payload

/-- Put a flight behind those that land before it or were issued before it. -/
def insertFlight (f : Flight) : List Flight → List Flight
  | [] => [f]
  | g :: gs => if f.land < g.land || (f.land = g.land && f.seq < g.seq) then f :: g :: gs else g :: insertFlight f gs

/-- A flight belongs to an operation withdrawn without effect: itself, or a push of the same instruction (R449). -/
def Ctx.withdrawn (c : Ctx) (f : Flight) : Bool := c.flights.any fun g => g.seq = f.seq && g.eff.unbounded

/-- The flights of a context in the order of their landings; an operation withdrawn without effect takes no entry (R274, R449). -/
def Ctx.ordered (c : Ctx) : List Flight := (c.flights.filter fun f => !c.withdrawn f).foldl (fun l f => insertFlight f l) []

/-- The snapshot at a stop: its entries (R274). -/
def Ctx.snapEntries (c : Ctx) (stop : Nat) : List (List Byte) := c.ordered.flatMap (c.entryBytes stop)

/-- What the head of a frame says (R269). -/
structure FrameHead where
  cause   : Nat
  origin  : Nat
  flags   : Nat
  stop    : Nat
  addr    : Nat
  word    : IWord
  aux     : Nat
  seqPart : Option SeqPart
  deriving DecidableEq, Repr

/-- Bytes of a frame area for the snapshot (R269). -/
def snapRoom : Nat := 126976

/-- The bitmaps that the five streams' resume instructions name. -/
def State.resumeBitmaps (s : State) : List (Option Nat) := (List.range 5).map s.resumeBitmap

/-- A frame of a context (R269): the fixed part and the snapshot in use. `rx` says whether the streams' issue work shows (R281: a
pre-emption frame has every RX 0), `marks` gives the bitmaps of the resume instructions. -/
def Ctx.frameBytes (c : Ctx) (h : FrameHead) (rx : Bool) (marks : List (Option Nat)) : List Byte :=
  let es := c.snapEntries h.stop
  let snap := es.flatten
  layFields 0x1000
    [ (0x000, natBytes 2 1), (0x002, natBytes 1 h.cause), (0x003, natBytes 1 h.origin), (0x004, natBytes 4 h.flags),
      (0x008, natBytes 8 h.stop), (0x010, natBytes 8 h.addr), (0x018, natBytes 16 h.word.toNat), (0x028, natBytes 8 h.aux),
      (0x030, (List.range 5).flatMap fun st =>
        let t := c.shown st
        streamRecord t (if rx then t.redo else none) ((marks.getD st none).map fun n => (n, vget 0 c.cb n))),
      (0x120, seqBytes h.seqPart),
      (0x140, natBytes 4 es.length ++ natBytes 4 snap.length),
      (0x200, c.taskState) ] ++ snap.take snapRoom

end Sys2Proof.Machine
end

