-- ==== Sys2Proof/Machine/Traps.lean ====
section
/-! DEFINITION. Taking a trap, the return from one, the mode barrier, the timer and the completion of a task
(01 R24, R41 to R44; 04 R126, R141, R142, R146; 09 R269, R276 to R279, R449). -/

namespace Sys2Proof.Machine

def causeTimer : Nat := 0x10

/-- The fault a frame reports: the first by origin (R276). -/
def Ctx.reported (c : Ctx) : Option Fault1 :=
  c.faults.foldl (fun (b : Option Fault1) f => match b with
    | none => some f
    | some g => if f.origin < g.origin then some f else some g) none

/-- The running context of a core ends, with what that sets off. -/
def State.endRunning (s : State) (how : How) (cause addr : Nat) : State :=
  let r := s.endContext s.focus s.here.running how cause addr cause
  r.1.settle r.2

/-- The task ends faulted (R141). -/
def State.endFaulted (s : State) (f : Fault1) : State := s.endRunning .faulted f.cause (f.addr.getD 0)

/-- Its landing cycle is at or before the stop (R41); a result of an interlocked context must also be complete (R23). -/
def Ctx.landed (c : Ctx) (f : Flight) : Bool := if c.exposed then f.land ≤ c.cycle else c.due f

/-- What has its landing at or before the stop lands (R41). -/
def State.landDue (s : State) : State :=
  let sel : State → Flight → Bool := fun s f => s.ctx.landed f && s.mayLand f
  let s1 := s.landDuePosts sel
  s1.landAll sel s1.ctx.flights.length

/-- What a trap waits for beyond that: in interlocked mode everything in flight but the withdrawn (R44, R449). -/
def Ctx.drains (c : Ctx) (f : Flight) : Bool := (!c.exposed || f.land ≤ c.cycle) && !f.eff.unbounded

/-- Everything a trap waits for lands. -/
def State.drain (s : State) : State :=
  let sel : State → Flight → Bool := fun s f => s.ctx.drains f && s.mayLand f
  let s1 := s.landDuePosts sel
  s1.landAll sel s1.ctx.flights.length

/-- Bytes of a frame area that could not be written whole: each is written or not, as a free value says (R269, R7). -/
def State.blurFrame (s : State) (va : Nat) (bs : List Byte) : State :=
  let go (s : State) (k : Nat) : State :=
    match s.translate s.focus s.asn (va + 4096 * k) .write with
    | (.error _, s1) => s1
    | (.ok ph, s1) =>
      if ph.attr ≠ 0 then s1
      else
        let cells := pieceCells [⟨va + 4096 * k, ph, 4096⟩] (wholeBytes ((bs.drop (4096 * k)).take 4096))
        let some := cells.filter fun c => (Config.freeByte s.freeCount (c.va - va)).getLsbD 0
        -- word by word, so that one that cannot be merged keeps no other from being written
        ((some.map fun c => c.pa / 32).eraseDups).foldl (fun s w => (s.performCells s.focus s.asn (some.filter fun c => c.pa / 32 = w)).1) s1
  let s1 := (List.range ((bs.length + 4095) / 4096)).foldl go s
  { s1 with freeCount := s1.freeCount + 1 }

/-- Write a frame at core scope; false where any part of it cannot be written (R269). -/
def State.writeFrame (s : State) (va : Nat) (bs : List Byte) : Bool × State :=
  match s.translateRange s.focus s.asn va .write (pageFuel bs.length) bs.length with
  | (.error _, s1) => (false, s1.blurFrame va bs)
  | (.ok ps, s1) =>
    if ps.any fun p => p.ph.attr ≠ 0 then (false, s1.blurFrame va bs)
    else
      match s1.performCells s1.focus s1.asn (pieceCells ps (wholeBytes bs)) with
      | (s2, []) => (true, s2)
      | (s2, _) => (false, s2.blurFrame va bs)

/-- The head of a fault's frame (R269); the sequencer part is that of any sequencer fault of the stop. -/
def Ctx.faultHead (c : Ctx) (f : Fault1) : FrameHead :=
  let sp := c.faults.findSome? (·.seqPart)
  { cause := f.cause, origin := f.origin, stop := c.cycle, addr := f.addr.getD 0, word := f.word, aux := f.aux, seqPart := sp,
    flags := (if c.exposed then 16 else 0) + (if sp.isSome then 8 else 0) + (if f.addr.isSome then 4 else 0) +
      (if f.straddle then 2 else 0) + (if f.imprecise then 1 else 0) }

/-- Each faulting stream keeps the issue work done (R271, R276). -/
def Ctx.markRedo (c : Ctx) : Ctx :=
  c.faults.foldl (fun c f =>
    if 5 ≤ f.origin then c
    else
      let t := c.stream f.origin
      c.setStream f.origin { t with redo := f.redo.orElse fun _ => t.redo }) c

/-- The scalars of a stream under the other bank of x12 to x15 (R141). -/
def bankSwap (x : Vector Word 16) (alt : Vector Word 4) : Vector Word 16 :=
  Vector.ofFn fun (i : Fin 16) => if i.val < 12 then x[i] else vget 0 alt (i.val - 12)
def bankOf (x : Vector Word 16) : Vector Word 4 := Vector.ofFn fun (i : Fin 4) => vget 0 x (i.val + 12)

/-- The streams as the handler finds them (R141). -/
def Ctx.handlerStream (c : Ctx) (cause : Nat) (st : Nat) : Stream :=
  let t := c.stream st
  let x := bankSwap t.x t.xAlt
  { Stream.reset with
    pc := c.tvec.toNat
    x := if st = 0 then vset (vset x 14 (BitVec.ofNat 64 cause)) 15 (c.frameAddr.setWidth 64) else x
    xAlt := bankOf t.x }

/-- The context in handler mode (R141). -/
def Ctx.enterHandler (c : Ctx) (f : Fault1) : Ctx :=
  { c with
    saved := some { streams := c.streams, outcomes := c.outcomes, tokens := c.tokens, events := c.events, slip := c.slip,
                    exposed := c.exposed, flights := c.flights, stop := c.cycle, cause := f.cause, fault := f }
    streams := Vector.ofFn fun (i : Fin 5) => c.handlerStream f.cause i.val
    outcomes := [], tokens := Vector.replicate 6 [], events := Vector.replicate 32 0, slip := 4096, exposed := false
    seq := { c.seq with raised := none }, handler := true, hcause := BitVec.ofNat 8 f.cause, hfail := false, flights := [], array := [], faults := [] }

/-- The frame is written and the handler entered, or the task ends (R141, R269). -/
def State.enter (s : State) (f : Fault1) : State :=
  let c := s.ctx.markRedo
  let c := if f.origin = 6 then { c with timerEn := false } else c
  let s1 := s.setCtx c.holdFlights
  match s1.writeFrame c.frameAddr.toNat (s1.ctx.frameBytes (c.faultHead f) true s1.resumeBitmaps) with
  | (false, s2) => s2.endFaulted f
  | (true, s2) => (s2.setCtx (s2.ctx.enterHandler f)).setHere
      { (s2.setCtx (s2.ctx.enterHandler f)).here with turn := 0 }

/-- The same context still runs. -/
def State.sameTask (s t : State) : Bool := s.here.running = t.here.running && s.ctx.task = t.ctx.task && t.ctx.task.isSome

/-- A trap is taken: its faults stand, no instruction of this cycle has executed (R41, R44, R141). A flush that waits on a proxy
queue is waited for. -/
def State.takeTrap (s : State) : State :=
  match s.ctx.reported with
  | none => s
  | some _ =>
    let s1 := s.landDue
    if !s.sameTask s1 then s1
    else match s1.ctx.reported with
      | none => s1
      | some f =>
        if s1.ctx.handler || s1.ctx.tvec = 0 then s1.endFaulted f
        else
          let s2 := s1.carry
          let s3 := s2.drain
          if !s2.sameTask s3 then s3
          else if s3.ctx.flights.any s3.ctx.drains then s3
          else match s3.ctx.reported with
            | none => s3
            | some f => s3.enter f

/-- TRAP_ENTRY (R141). -/
def execTrapEntry (core : Nat) (s : State) : Host.Outcome State Fault Refusal := s.atCore core State.takeTrap

/-- TIMER_FIRE is due (R146). -/
def State.timerDue (s : State) : Bool :=
  let c := s.ctx
  s.here.turn = 0 && c.moves && !c.handler && c.timerEn && c.timecmp.toNat ≤ c.cycle &&
    !(c.faults.any fun f => f.origin = 6)

/-- The timer raises TIMER at the start of a cycle (R146). -/
def State.fireTimer (s : State) : State :=
  if s.timerDue then s.addFault { cause := causeTimer, origin := 6, pc := 0, word := 0, aux := 0, addr := none, straddle := false,
                                  imprecise := false, redo := none, cbsel := none, seqPart := none }
  else s

/-- TIMER_FIRE (R146). -/
def execTimerFire (core : Nat) (s : State) : Host.Outcome State Fault Refusal := s.atCore core State.fireTimer

/-- All five streams stand at one instruction (R24, R126, R142). No stream passes a barrier alone, so this is one dynamic
instance, also where a handler moved a stream and its position no longer tells (notes/assumptions/72). -/
def Ctx.together (c : Ctx) (p : StreamStatus → Bool) : Bool :=
  let a := c.stream 0
  c.streams.all fun t => p t.status && t.pc = a.pc

/-- MODE_BARRIER_PASS is possible: the mode it sets, and the length passed (R24). -/
def State.barrierReady (s : State) : Option (Bool × Nat) :=
  let c := s.ctx
  match (c.stream 0).status with
  | .barrier exposed len =>
    if s.here.turn = 0 && c.moves && c.faults.isEmpty && c.flights.isEmpty && c.together (fun x => x = .barrier exposed len) then some (exposed, len)
    else none
  | _ => none

/-- Every stream passes the barrier in the new mode (R24). -/
def State.passBarrier (s : State) : State :=
  match s.barrierReady with
  | none => s
  | some (exposed, len) =>
    (List.range 5).foldl (fun s st =>
      let c := s.ctx.setStream st { s.ctx.stream st with status := .run }
      let r := c.stepPast st len
      profileHook (s.setCtx r.1) st r.2) (s.setCtx { s.ctx with exposed })

/-- MODE_BARRIER_PASS (R24). -/
def execModeBarrierPass (core : Nat) (s : State) : Host.Outcome State Fault Refusal := s.atCore core State.passBarrier

/-- TASK_COMPLETE is possible (R126). -/
def State.completes (s : State) : Bool :=
  let c := s.ctx
  s.here.turn = 0 && c.moves && c.faults.isEmpty && c.flights.isEmpty && c.together (· = .done) && (c.handler || c.seqIdle)

/-- The task completes, or is completed as faulted by its handler (R126, R142). -/
def State.complete (s : State) : State :=
  if !s.completes then s
  else
    let c := s.ctx
    if c.handler && c.hfail then s.endRunning .faulted c.hcause.toNat (((c.saved.bind fun x => x.fault.addr)).getD 0)
    else s.endRunning .completed 0 0

/-- TASK_COMPLETE (R126). -/
def execTaskComplete (core : Nat) (s : State) : Host.Outcome State Fault Refusal := s.atCore core State.complete

/-- ERET_RETURN is possible (R142). -/
def State.returns (s : State) : Option SavedTask :=
  let c := s.ctx
  if s.here.turn = 0 && c.moves && c.handler && c.faults.isEmpty && c.flights.isEmpty && c.together (· = .eret) then c.saved
  else none

/-- The unit whose first element has some indices, in a record's walk (R278). -/
def Nest.unitAt (r : Nest) (i0 i1 i2 i3 e : Nat) : Option Nat :=
  let t (k : Nat) := r.trips.getD k 1
  let n := e + r.count * (i0 + t 0 * (i1 + t 1 * (i2 + t 2 * i3)))
  if i0 < t 0 && i1 < t 1 && i2 < t 2 && i3 < t 3 && e < r.count && n % r.unitSize = 0 then some (n / r.unitSize) else none

/-- The fields of a stream record that ERET reads (R271, R278). -/
structure ResumeRec where
  resume : Nat
  tkf    : Nat
  tkb    : Nat
  cbsel  : Nat
  cbval  : Nat
  deriving DecidableEq, Repr

/-- The stream records of a frame's bytes. -/
def resumeRecs (bs : List Byte) : List ResumeRec :=
  (List.range 5).map fun st =>
    let w (k : Nat) := bytesNat ((bs.drop (0x030 + 48 * st + 8 * k)).take 8)
    { resume := w 0, tkf := w 1, tkb := w 2, cbsel := w 3, cbval := w 4 }

/-- A stream record that ERET turns away (R278). -/
def ResumeRec.bad (r : ResumeRec) (t : Stream) : Bool :=
  bits r.resume 1 0 ≠ 0 || bits r.resume 57 48 ≠ 0 || (!bit r.resume 63 && bits r.resume 62 58 ≠ 0) ||
    (bit r.resume 61 && (t.redo.bind (·.pfr)).isNone) || (bit r.resume 60 && (t.redo.bind (·.pbr)).isNone) || r.cbsel / 16 ≠ 0

/-- A stream re-executes where the handler left its record (R279). -/
def ResumeRec.again (r : ResumeRec) (t : Stream) : Bool := bit r.resume 63 && bits r.resume 47 0 = t.pc

/-- The issue work a stream finds done on return (R279). -/
def ResumeRec.redo (r : ResumeRec) (t : Stream) : Option Redo :=
  if !r.again t then none
  else some { awd := bit r.resume 62
              pfr := if bit r.resume 61 then t.redo.bind (·.pfr) else none
              pbr := if bit r.resume 60 then t.redo.bind (·.pbr) else none
              wfd := if bit r.resume 59 then some (BitVec.ofNat 64 r.tkf) else none
              wbd := if bit r.resume 58 then some (BitVec.ofNat 64 r.tkb) else none }

/-- Reserved entries that the return releases (R279). -/
def ResumeRec.released (r : ResumeRec) (t : Stream) : List Nat :=
  let kept := r.redo t
  ([(t.redo.bind (·.pfr), kept.bind (·.pfr)), (t.redo.bind (·.pbr), kept.bind (·.pbr))].filterMap fun p =>
    if p.2.isSome then none else p.1)

/-- The record leaves the operations held for a stream as they are: it names the first one as the stop did (R449). -/
def ResumeRec.keeps (r : ResumeRec) (c : Ctx) (st : Nat) : Bool :=
  (c.heldWait st).isSome && r.again (c.shown st) && r.redo (c.shown st) = (c.shown st).redo

/-- A stream goes on as its record says (R279, R449): where operations are held for it and the record is another, they are dropped,
and the entries reserved by those after the first are released. -/
def Ctx.putRecord (c : Ctx) (st : Nat) (r : ResumeRec) : Ctx :=
  if r.keeps c st then c
  else
    let t := c.shown st
    let waits := (c.flights.filter fun f => f.stream = st && f.eff.unbounded).map (·.seq)
    let gone := r.released t ++ c.flights.filterMap fun f => match f.eff with
      | .token _ i _ => if (waits.drop 1).contains f.seq then some i else none
      | _ => none
    let here := bits r.resume 47 0 = t.pc
    { c.setStream st { t with pc := bits r.resume 47 0, redo := r.redo t, status := if here then t.status else .run
                              passBrk := t.passBrk && here } with
      flights := c.flights.filter fun f => !(waits.contains f.seq)
      tokens := c.tokens.map fun (q : List Token) => q.filter fun x => !(gone.contains x.id : Bool) }

/-- The position the sequencer resumes at, as a frame gives it; none where it is no unit's first element (R263, R278). -/
def Ctx.resumeUnit (c : Ctx) (bs : List Byte) : Option Nat :=
  match (c.slotsIn (· = .faulted)).head? with
  | none => some 0
  | some i =>
    let x := c.slotAt i
    let w0 := bytesNat ((bs.drop 0x120).take 8)
    let w1 := bytesNat ((bs.drop 0x128).take 8)
    if x.invalid then some 0
    else x.nest.unitAt (bits w1 15 0) (bits w1 31 16) (bits w1 47 32) (bits w1 63 48) (bits w0 15 0)

/-- A captured flight lands as long after the return as it would have after the stop (R42). -/
def Flight.shift (stop back : Nat) (f : Flight) : Flight := { f with land := back + (f.land - stop) }

/-- The task's state as the trap kept it, with what the handler shares with it (R141, R142). -/
def Ctx.restored (c : Ctx) (sv : SavedTask) : Ctx :=
  { c with
    streams := Vector.ofFn fun (i : Fin 5) =>
      let t := vget Stream.reset sv.streams i.val
      let h := c.stream i.val
      { t with x := bankSwap h.x (bankOf t.x), xAlt := bankOf h.x }
    outcomes := sv.outcomes, events := sv.events, slip := sv.slip, exposed := sv.exposed, handler := false, saved := none
    tokens := sv.tokens, flights := sv.flights.map (Flight.shift sv.stop c.cycle) }

/-- The task as it returns (R142, R279). -/
def Ctx.resume (c : Ctx) (sv : SavedTask) (rs : List ResumeRec) (unit : Nat) : Ctx :=
  let cb := rs.foldl (fun (v : Vector Word 8) r => if bit r.cbsel 3 then vset v (bits r.cbsel 2 0) (BitVec.ofNat 64 r.cbval) else v) c.cb
  let c1 := (rs.zipIdx).foldl (fun (c : Ctx) p => c.putRecord p.2 p.1) { c.restored sv with cb }
  c1.resumeSequencer unit

/-- ERET's return from the frame in memory, or FRAME-INVALID (R142, R278, R279). -/
def State.eret (s : State) : State :=
  match s.returns with
  | none => s
  | some sv =>
    match s.loadVirt 0 s.ctx.frameAddr.toNat 0x140 with
    | (.error f, s1) => s1.endRunning .faulted causeFrame f.addr
    | (.ok bs, s1) =>
      let rs := resumeRecs bs
      let bad := (rs.zipIdx).any fun p => p.1.bad ((s1.ctx.restored sv).shown p.2)
      match s1.ctx.resumeUnit bs with
      | none => s1.endRunning .faulted causeFrame 0
      | some u =>
        if bytesNat (bs.take 2) ≠ 1 || bad then s1.endRunning .faulted causeFrame 0
        else
          let s2 := s1.setCtx (s1.ctx.resume sv rs u)
          s2.reenter s2.focus s2.here.running

/-- ERET_RETURN (R142). -/
def execEretReturn (core : Nat) (s : State) : Host.Outcome State Fault Refusal := s.atCore core State.eret

end Sys2Proof.Machine
end

