-- ==== Sys2Proof/Machine/Save.lean ====
section
/-! DEFINITION. Pre-emption: the request, the save of a context in the layout of its save area, and the restore (09 R280 to
R282; 12 R313, R314, R316). -/

namespace Sys2Proof.Machine

/-- An item of the save area: its own width rounded up to 8 bytes (R281). -/
def item (n : Nat) : List Byte := natBytes 8 n

/-- A walk's next element as I0 to I3 and E (R281). -/
def Nest.indexItems (r : Nest) (n : Nat) : List Byte :=
  let (is, e) := if r.total = 0 then ([], 0) else r.indices n
  ((List.range 4).flatMap fun k => item (is.getD k 0)) ++ item e

/-- Section 0x02_0000: scalars, system registers, mode and guards (R281). -/
def Ctx.scalarSection (c : Ctx) : List Byte :=
  (c.streams.toList.flatMap fun t => t.x.toList.flatMap fun v => item v.toNat) ++
    ([c.slip, c.vcvtpol.toNat, c.factctl.toNat, c.ftol.toNat, c.cycle, c.timecmp.toNat, if c.timerEn then 1 else 0, c.tvec.toNat,
      c.rowpred.toNat, if c.exposed then 1 else 0].flatMap item) ++
    (List.range 4).flatMap fun i => item (match c.guards[i]? with
      | some h => h.addr + (if h.excl then 2 ^ 63 else 0)
      | none => 0)

/-- Section 0x02_1000: vectors, tags, masks and bitmaps. -/
def Ctx.vectorSection (c : Ctx) : List Byte :=
  (c.v.toList.flatMap fun r => r.lanes.toList.flatMap fun x => natBytes 4 x.toNat) ++
    (c.v.toList.flatMap fun r => natBytes 1 r.tag.toNat) ++ ((c.k.toList.drop 1).flatMap fun k => item k.toNat) ++
    c.cb.toList.flatMap fun k => item k.toNat

/-- Section 0x02_3000: tile headers, FREEZE, and the profile counters in the layout of their record. -/
def Ctx.tileSection (c : Ctx) : List Byte :=
  (c.z.toList.flatMap fun t => item (headerWord t 0)) ++ item c.freeze ++ (c.profBytes 0).drop 0x40

/-- Section 0x02_5000: schedule, rings, the next unit and the captured entries. -/
def Ctx.sequencerSection (c : Ctx) : List Byte :=
  let q := c.seq
  let pos : Option (Nat × Nest) := ((c.slotsIn fun x => x = .running || x = .faulted).head?).map fun i => (i, (c.slotAt i).nest)
  (q.slots.toList.flatMap fun x => natBytes 64 x.record.toNat) ++ (q.slots.toList.flatMap fun x => natBytes 1 x.state.ctorIdx) ++
    item q.stage ++ (c.rings.toList.flatMap fun h => item h.slots ++ item h.rp ++ item h.wp ++ item h.filled) ++
    (match pos with
      | some (_, r) => r.indexItems (q.unit * r.unitSize)
      | none => natBytes 40 0) ++
    q.captured.flatMap fun e => item e.1 ++ item e.2

/-- State number of a port (R281): unbound, read, write, ended, stopped with its cause above. -/
def PortState.code : PortState → Nat
  | .unbound => 0
  | .read => 1
  | .write => 2
  | .ended => 3
  | .stopped cause _ _ => 4 + 256 * cause

/-- A port's slot (R281). -/
def Port.bytes (p : Port) : List Byte :=
  let r := Nest.ofBits p.record
  let head := natBytes 64 p.record.toNat ++ r.indexItems p.next ++ item p.state.code ++
    p.ahead.flatMap fun e => match e with
      | .lanes v => v.toList.flatMap fun x => natBytes 4 x.toNat
      | .tile _ => []
  let tile := p.ahead.flatMap fun e => match e with
    | .lanes _ => []
    | .tile rows => (rowsToPlanes (fmtWidth r.sfmt) (rows512 64 rows)).flatMap fun pl => pl.flatMap fun row => natBytes 64 row
  layFields 0x2_5000 [(0, head.take 0x1000), (0x1000, tile)]

/-- A ply: 64 values of 36 bits. -/
def plyBytes (vs : List (BitVec 36)) : List Byte := natBytes 288 (vs.foldr (fun v a => 2 ^ 36 * a + v.toNat) 0)

/-- Values cut into plies of 64. -/
def cutPlies : Nat → List (BitVec 36) → List (List (BitVec 36))
  | 0, _ => []
  | k + 1, vs => if vs.isEmpty then [] else vs.take 64 :: cutPlies k (vs.drop 64)

/-- The plies of the tiles, then all those reserved by tile writes in flight, in snapshot order; one the result leaves empty holds
zeros (R281). -/
def Ctx.plies (c : Ctx) : List (List (BitVec 36)) :=
  let held := c.z.toList.flatMap fun t => cutPlies 1024 t.plies
  let coming := c.ordered.flatMap fun f => match f.eff with
    | .tile _ (.write _ _ vs _ _ need) =>
      let ps := cutPlies 1024 vs
      ps ++ List.replicate (need - ps.length) (List.replicate 64 0)
    | _ => []
  held ++ coming

/-- The sections of a save area but for the scratchpad: offset, size and contents (R281). -/
def Ctx.areaSections (c : Ctx) (marks : List (Option Nat)) : List (Nat × Nat × List Byte) :=
  let head : FrameHead := { cause := 0, origin := 7, flags := if c.exposed then 16 else 0, stop := c.cycle, addr := 0, word := 0,
                            aux := 0, seqPart := none }
  [ (0x00_0000, 0x2_0000, c.frameBytes head false marks),
    (0x02_0000, 0x1000, c.scalarSection),
    (0x02_1000, 0x2000, c.vectorSection),
    (0x02_3000, 0x1000, c.tileSection),
    (0x02_4000, 0x1000, c.nests.toList.flatMap fun n => natBytes 64 n.toNat),
    (0x02_5000, 0x3000, c.sequencerSection),
    (0x02_8000, 0x12_8000, c.ports.toList.flatMap Port.bytes),
    (0x15_0000, 0x4_8000, c.plies.flatMap plyBytes) ]

/-- Offset of the scratchpad in a save area (R281). -/
def areaSpad : Nat := 0x19_8000
/-- Bytes of a save area (R280). -/
def areaSize : Nat := 0x39_8000

/-- Exactly `n` bytes: cut, or filled up with zeros. -/
def fitBytes (n : Nat) (bs : List Byte) : List Byte := (bs ++ List.replicate (n - bs.length) 0).take n

/-- Write bytes from a virtual address at die scope, sector by sector; what is not mapped as writable memory takes none. -/
def State.areaPut (s : State) (part va : Nat) (bs : List Byte) : State :=
  (List.range ((bs.length + 31) / 32)).foldl (fun s i =>
    match s.vaLook part (va + 32 * i) .write with
    | some pa => ((s.walked part (va + 32 * i) .write).dieWrite (dieBytes pa ((bs.drop (32 * i)).take 32))).1
    | none => s) s

/-- Read bytes from a virtual address at die scope. -/
def State.areaGet (s : State) (part va n : Nat) : List Byte × State :=
  (List.range ((n + 31) / 32)).foldl (fun acc i =>
    match acc.2.vaLook part (va + 32 * i) .read with
    | some pa =>
      let r := (acc.2.walked part (va + 32 * i) .read).dieRead pa (min 32 (n - 32 * i))
      (acc.1 ++ r.1, r.2)
    | none => (acc.1 ++ List.replicate (min 32 (n - 32 * i)) 0xFF, acc.2)) ([], s)

/-- The address of a task's save area: slot s of SAVEBASE (R304, R313). -/
def Task.saveArea (t : Task) : Nat := t.saveBase + 0x37_8000 * t.slot

/-- Put a record back into its core's list (R313, R316): at the head of its priority, or after the head of the list. -/
def insertSaved (r : Ready) (afterHead : Bool) (l : List Ready) : List Ready :=
  if afterHead then l.take 1 ++ r :: l.drop 1
  else l.takeWhile (fun x => r.prio < x.prio) ++ r :: l.dropWhile fun x => r.prio < x.prio

/-- The Cuff finds that the head of a core's list asks for the running context's place (R313). -/
def State.wantsPreempt (s : State) : Bool :=
  match s.ctx.task, s.here.ready.head? with
  | some t, some r => t.margin ≠ 0 && t.saveBase ≠ 0 && t.prio + t.margin ≤ r.prio && !t.preempt
  | _, _ => false

/-- PREEMPT (R313): the running context is asked to stop. -/
def State.requestPreempt (s : State) : State :=
  match s.ctx.task with
  | none => s
  | some t => if s.wantsPreempt then s.setCtx { s.ctx with task := some { t with preempt := true, yields := false } } else s

/-- PREEMPT (R313). -/
def execPreempt (core : Nat) (s : State) : Host.Outcome State Fault Refusal := s.atCore core State.requestPreempt

/-- A requested pre-emption may stop the context in this cycle (R280). -/
def State.stopsForSave (s : State) : Bool :=
  let c := s.ctx
  s.here.turn = 0 && c.moves && c.faults.isEmpty && (c.task.any fun t => t.preempt) && c.lockS.isNone && c.lockL.isNone && !c.handler

/-- A stop that drains nothing: what has landed by the stop lands, the rest is carried and held; false while some operation must
still be waited for, or one has faulted (R267, R280, R284, R449). -/
def State.capture (s : State) : Bool × State :=
  let s1 := s.landDue
  if !s.sameTask s1 then (false, s1)
  else
    let s2 := s1.carry
    let waits := s2.ctx.flights.any fun f => match f.eff with
      | .command (.proxyFlush pa head) => !s2.flushed pa head
      | .command (.retrieval _ _) => true
      | _ => false
    if waits || !s2.ctx.faults.isEmpty then (false, s2)
    else
      let sel : State → Flight → Bool := fun s f => s.ctx.exposed && f.land ≤ s.ctx.cycle && s.mayLand f
      let s3 := (s2.landDuePosts sel).landAll sel s2.ctx.flights.length
      if !s.sameTask s3 || !s3.ctx.faults.isEmpty then (false, s3) else (true, s3.setCtx s3.ctx.holdFlights)

/-- Write back and forget a core's copies of memory: its block cache and TLB are cold (R282). -/
def State.coldCaches (s : State) : State :=
  let s1 := s.writeBackAll s.focus
  s1.setHere { s1.here with lines := [], blocks := [], tlb := [] }

/-- The banks give a save its rows, and what the context still waits for at them (R152, R282). -/
def State.serveSave (s : State) : State :=
  let c := s.ctx.askBanks 15 [(0, s.ctx.spadGrant)]
  let c1 := c.serveBanks c.coreCycle (((s.ctx.wants.map (·.2)).sum) + 1)
  (s.setCtx c1).raiseNotices ((c.conflicts.map (·.1)).filter fun i => tget 0 c1.conflicts i < tget 0 c.conflicts i)

/-- The running context is saved and leaves the core; its record goes back into the list (R280, R281, R313). -/
def State.saveContext (s : State) : State :=
  if !s.stopsForSave then s
  else if !(s.writeBackAll s.focus).ctx.faults.isEmpty then s.writeBackAll s.focus
  else match (s.writeBackAll s.focus).capture with
    | (false, s1) => s1
    | (true, s1) =>
      match s1.ctx.task with
      | none => s1
      | some t =>
        let base := t.saveArea
        let s2 := (s1.writeBackAll s1.focus).serveSave
        let spad := s2.spadRead s2.focus s2.ctx.spbase s2.ctx.spadGrant
        let marks := s2.resumeBitmaps
        let s3 := (s2.ctx.areaSections marks).foldl (fun s x => s.areaPut t.part (base + x.1) (fitBytes x.2.1 x.2.2)) s2
        let s4 := s3.areaPut t.part (base + areaSpad) (fitBytes 0x20_0000 spad)
        let c := { s4.ctx with task := some { t with preempt := false, yields := false } }
        let r : Ready := { record := t.record, part := t.part, region := t.region, prio := t.prio, want := t.prio, launch := t.launch, succ := t.succ,
                           code := t.code, frame := t.frame, pin := t.pin, saved := some { base, ctx := c, marks } }
        let k := s4.here
        let slot := k.running
        s4.setHere ({ k.setSlot slot Ctx.reset with ready := insertSaved r t.yields k.ready }.handOn slot)

/-- A kill may stop the context in this cycle, as a pre-emption would (R280, R320). -/
def State.stopsForKill (s : State) : Bool :=
  let c := s.ctx
  s.here.turn = 0 && c.moves && c.faults.isEmpty && (c.task.any fun t => t.killed) && c.lockS.isNone && c.lockL.isNone && !c.handler

/-- A killed task stops: what it has in flight is carried, unless that faults, and the captured state is discarded (R267, R320). -/
def State.killContext (s : State) : State :=
  if !s.stopsForKill then s
  else
    let s1 := s.landDue
    if !s.sameTask s1 then s1
    else
      let s2 := s1.carry
      if !s2.ctx.faults.isEmpty then s2
      else
        let r := s2.endContext s2.focus s2.here.running .killed causeKilled 0 causeKilled
        r.1.settle r.2

/-- CONTEXT_SAVE (R280). -/
def execContextSave (core : Nat) (s : State) : Host.Outcome State Fault Refusal := s.atCore core State.saveContext

/-- The context of a core that a task could take, if one is empty: the running one first. A task with two contexts needs both,
and shuts the other out (R309). -/
def Core.freeSlot (k : Core) (ctxs : Nat) : Option Nat :=
  let other := 1 - k.running
  let run := (k.slot k.running).task
  let oth := (k.slot other).task
  let lone := (run.any fun t => t.ctxs = 2) || (oth.any fun t => t.ctxs = 2)
  if lone || (ctxs = 2 && (run.isSome || oth.isSome)) then none
  else if run.isNone then some k.running
  else if oth.isNone then some other
  else none

/-- Scratchpad and plies that the contexts of a core leave (R150). -/
def Core.freeSpad (k : Core) : Nat := 0x20_0000 - (k.slot 0).spadGrant - (k.slot 1).spadGrant
def Core.freePlies (k : Core) : Nat := 1024 - (k.slot 0).plyGrant - (k.slot 1).plyGrant

/-- Where a grant is placed: at the bottom, or at the top when the other context stands at the bottom. -/
def Core.chooseBase (k : Core) (slot grant : Nat) : Nat :=
  let o := k.slot (1 - slot)
  if o.spadGrant ≠ 0 && o.spbase = 0 then 0x20_0000 - grant else 0

/-- A store in flight to the scratchpad follows its grant to another base. -/
def Flight.rebase (base : Nat) (f : Flight) : Flight :=
  match f.eff with
  | .store true cells => { f with eff := .store true (cells.map fun x => { x with pa := base + x.va }) }
  | _ => f

/-- So do the sequencer's writes to bytes of its own source (R259). -/
def Sequencer.rebase (base : Nat) (q : Sequencer) : Sequencer :=
  { q with held := q.held.map fun x => if x.1 then (true, { x.2 with pa := base + x.2.va }) else x }

/-- The pages of a grant now belong to a task of a region (R150). -/
def Core.ownPages (k : Core) (base grant : Nat) (who : Nat × Nat) : Core :=
  { k with spOwner := (List.range (grant / 4096)).foldl (fun o i => tset o (base / 4096 + i) who) k.spOwner }

/-- A saved context fits a core (R282). -/
def State.restorable (s : State) (core : Nat) (r : Ready) : Option Nat :=
  match r.saved with
  | none => none
  | some x =>
    let k := s.core core
    match x.ctx.task with
    | none => none
    | some t => if x.ctx.spadGrant ≤ k.freeSpad && x.ctx.plyGrant ≤ k.freePlies then k.freeSlot t.ctxs else none

/-- The core whose list holds a saved record that core `n` can restore, and the record: its own list first, then the cluster's. -/
def State.savedFor (s : State) (n : Nat) : Option (Nat × Ready) :=
  let lists := n :: (List.range 8).map fun j => 8 * clusterOf n + j
  lists.findSome? fun k => ((s.core k).ready.find? fun r => (s.restorable n r).isSome).map fun r => (k, r)

/-- The sections that a saved context answers for. -/
def savedView (x : Saved) : List (Nat × Nat × List Byte) := x.ctx.areaSections x.marks

/-- A saved context goes on at the focus core (R282): its area must stand as it was saved, else the task ends with FRAME-INVALID. -/
def State.restoreFrom (s : State) (list : Nat) (r : Ready) : State :=
  match s.restorable s.focus r, r.saved with
  | some slot, some x =>
    match x.ctx.task with
    | none => s
    | some t =>
      let l := s.core list
      let s1 := s.setCore list { l with ready := l.ready.erase r }
      let k := s1.here
      let base := k.chooseBase slot x.ctx.spadGrant
      let c := { x.ctx with
        spbase := base, flights := x.ctx.flights.map (Flight.rebase base), seq := x.ctx.seq.rebase base }
      let live := (k.slot k.running).task.isNone
      let k1 := (k.setSlot slot c).ownPages base c.spadGrant (t.part, t.region)
      let s2 := (s1.setHere { k1 with running := if live then slot else k1.running, turn := if live then 0 else k1.turn })
      let same := (savedView x).all fun y => (s2.areaGet t.part (x.base + y.1) y.2.1).1 = fitBytes y.2.1 y.2.2
      if !same then
        let e := s2.endContext s2.focus slot .faulted causeFrame 0 causeFrame
        e.1.settle e.2
      else
        let g := s2.areaGet t.part (x.base + areaSpad) c.spadGrant
        let s3 := if live then g.2.coldCaches else g.2.coldCaches.askSave s.focus [(0, c.spadGrant)]
        (s3.spadPut s.focus base g.1).reenter s.focus slot
  | _, _ => s

/-- The Cuff restores the first saved context it can on a core (R282, R313). -/
def State.restoreContext (s : State) : State :=
  match s.savedFor s.focus with
  | none => s
  | some (list, r) => s.restoreFrom list r

/-- CONTEXT_RESTORE (R282). -/
def execContextRestore (core : Nat) (s : State) : Host.Outcome State Fault Refusal := s.atCore core State.restoreContext

end Sys2Proof.Machine
end

