-- ==== Sys2Proof/Machine/Placement.lean ====
section
/-! DEFINITION. Placement: the checks of a launch, the resources it takes, the context it starts, and the Cuff's moves of
records (02 R83, R84; 05 R149, R150; 08 R237, R238; 12 R305 to R312). -/

namespace Sys2Proof.Machine

/-- Bytes at a virtual address as the leaf controller reads them at placement: mapped for reading as normal memory, not
poisoned, within a page (R84). -/
def State.look (s : State) (part va n : Nat) : Option (List Byte) :=
  match s.vaLook part va .read with
  | none => none
  | some pa => if (s.die.poisonIn pa n).isSome then none else some (s.die.mem.load pa n)

/-- The schedule records of a code object (R84). -/
def State.lookRecords (s : State) (part va : Nat) : Nat → Option (List (BitVec 512))
  | 0 => some []
  | k + 1 =>
    match s.look part va 64, s.lookRecords part (va + 64) k with
    | some bs, some rs => some (BitVec.ofNat 512 (bytesNat bs) :: rs)
    | _, _ => none

/-- A code-object header: its 256 bytes (R83). -/
structure Header where
  bytes : List Byte
  deriving DecidableEq, Repr

def Header.get (h : Header) (off n : Nat) : Nat := bytesNat ((h.bytes.drop off).take n)

def Header.flags (h : Header) : Nat := h.get 0x06 2
def Header.textOff (h : Header) : Nat := h.get 0x08 4
def Header.textLen (h : Header) : Nat := h.get 0x0C 4
def Header.entry (h : Header) : Nat := h.get 0x10 4
def Header.dataOff (h : Header) : Nat := h.get 0x14 4
def Header.dataLen (h : Header) : Nat := h.get 0x18 4
def Header.schedOff (h : Header) : Nat := h.get 0x1C 4
def Header.schedCnt (h : Header) : Nat := h.get 0x20 2
def Header.slip (h : Header) : Nat := h.get 0x22 2
def Header.ctx (h : Header) : Nat := h.get 0x2A 2
def Header.spad (h : Header) : Nat := h.get 0x2C 4
def Header.plies (h : Header) : Nat := h.get 0x30 4

/-- Scratchpad bytes granted (R150). -/
def Header.grant (h : Header) : Nat := (h.spad + 4095) / 4096 * 4096

/-- Spans of the sections that hold any byte. -/
def Header.spans (h : Header) : List (Nat × Nat) :=
  [(h.textOff, h.textLen), (h.dataOff, h.dataLen), (h.schedOff, 64 * h.schedCnt)].filter fun p => p.2 ≠ 0

/-- Two spans share no byte. -/
def spansApart (p q : Nat × Nat) : Bool := p.1 + p.2 ≤ q.1 || q.1 + q.2 ≤ p.1

/-- Offsets and lengths keep R83, for a header at `code`. -/
def Header.layoutOk (h : Header) (code : Nat) : Bool :=
  let ends := [h.textOff + h.textLen, h.dataOff + h.dataLen, h.schedOff + 64 * h.schedCnt]
  h.textOff % 128 = 0 && h.textLen % 4 = 0 && h.entry % 4 = 0 && h.entry < h.textLen && h.dataOff % 256 = 0 && h.schedOff % 64 = 0 &&
    (h.spans.all fun p => 256 ≤ p.1) &&
    ((List.range h.spans.length).all fun i => (List.range i).all fun j =>
      spansApart (h.spans.getD i (0, 0)) (h.spans.getD j (0, 0))) &&
    (ends.all fun e => e ≤ 2 ^ 32) && code + ends.foldl max 256 ≤ 2 ^ 48

/-- Why the header itself turns a launch away (R84, R311), first reason first. -/
def Header.reason (h : Header) (code : Nat) : Option Nat :=
  if h.get 0x00 4 ≠ 0x4B4C_5643 || h.get 0x04 2 ≠ 1 then some 0x01
  else if h.flags / 2 ≠ 0 || h.get 0x34 12 ≠ 0 || h.get 0xC0 64 ≠ 0 then some 0x02
  else if !h.layoutOk code then some 0x03
  else if (List.range 6).any fun i => 16 < h.get (0x24 + i) 1 then some 0x04
  else if (List.range 32).any fun i => 65535 < h.get (0x40 + 4 * i) 4 then some 0x05
  else if h.slip < 16 || 4096 < h.slip then some 0x06
  else if 64 < h.schedCnt then some 0x07
  else if h.ctx = 0 || 2 < h.ctx then some 0x08
  else if 2097152 < h.spad then some 0x09
  else if 1024 < h.plies then some 0x0A
  else none

/-- The demand of a launch passes an effective budget of the path outright (R309, R311). -/
def State.overBudget (s : State) (part region : Nat) (h : Header) : Bool :=
  s.rgnNever part region fCtxb h.ctx || s.rgnNever part region fSpadb h.grant || s.rgnNever part region fPliesb h.plies

/-- A code object as the leaf controller reads it (R84): its header, and where that passes its schedule records. -/
def State.launched (s : State) (part code : Nat) : Launched :=
  match s.look part code 256 with
  | none => { header := none, recs := none }
  | some bs =>
    let h : Header := { bytes := bs }
    { header := some bs, recs := if (h.reason code).isSome then none else s.lookRecords part (code + h.schedOff) h.schedCnt }

/-- The reads of a code object at its home slices (R84, R324, R349). -/
def State.readCode (s : State) (part code : Nat) : State :=
  let s1 := s.visit part code 256
  match s.look part code 256 with
  | none => s1
  | some bs =>
    let h : Header := { bytes := bs }
    if (h.reason code).isSome then s1
    else (List.range h.schedCnt).foldl (fun s i => s.visit part (code + h.schedOff + 64 * i) 64) s1

/-- What a launch's checks say of a code object that was read: the header with its records, or the reason (R309, R311). -/
def State.judge (s : State) (part region code : Nat) (x : Launched) : Except Nat (Header × List (BitVec 512)) :=
  let dead := s.rgnDead part region || !s.rgnLive part region
  match x.header with
  | none => .error (if dead then 0x0C else 0x0D)
  | some bs =>
    let h : Header := { bytes := bs }
    match h.reason code with
    | some r => .error r
    | none =>
      if s.overBudget part region h then .error 0x0B
      else if dead then .error 0x0C
      else match x.recs with
        | none => .error 0x0D
        | some recs => .ok (h, recs)

/-- The checks of a launch that do not depend on what is free (R309, R311). -/
def State.checkLaunch (s : State) (part region code : Nat) : Except Nat (Header × List (BitVec 512)) :=
  s.judge part region code (s.launched part code)

/-- Every task that holds a slot: running, staged, reserved or pre-empted (R309, R313). -/
def State.tasks (s : State) : List Task :=
  (List.range 128).flatMap fun n =>
    let k := s.core n
    (k.ctx.toList.filterMap fun c => c.task) ++ k.ready.filterMap fun r => r.saved.bind fun x => x.ctx.task

/-- The lowest context slot of a region that is free, below its effective CTXB (R309). -/
def State.freeRegionSlot (s : State) (part region : Nat) : Option Nat :=
  let used := (s.tasks.filter fun t => t.part = part && t.region = region).map fun t => t.slot
  (List.range (s.rgnEff part region fCtxb)).find? fun i => !used.contains i

/-- A launch that passed its checks fits now: the context of a core it takes and its slot (R305, R309). -/
def State.fits (s : State) (core part region : Nat) (h : Header) : Option (Nat × Nat) :=
  let k := s.core core
  if k.freeSpad < h.grant || k.freePlies < h.plies then none
  else if !(s.rgnFits part region fUsectx fCtxb h.ctx && s.rgnFits part region fUsespad fSpadb h.grant &&
      s.rgnFits part region fUseplies fPliesb h.plies) then none
  else match k.freeSlot h.ctx, s.freeRegionSlot part region with
    | some c, some slot => some (c, slot)
    | _, _ => none

/-- Charge a placement to its region and every ancestor (R305). -/
def State.charge (s : State) (part region ctxs spad plies : Nat) : State :=
  ((s.rgnCharge part region fUsectx ctxs).rgnCharge part region fUsespad spad).rgnCharge part region fUseplies plies

/-- A page of a grant at the first instruction: zero where a task of another region held it last, undefined else (R150). -/
def Core.pageBytes (k : Core) (who : Nat × Nat) (src : Nat → Byte) (use page : Nat) : List Byte :=
  let left (i : Nat) : Byte := if i % 2 = 0 then (k.spad.load (4096 * page + i / 2 % 4096) 1).headD 0 else src (i / 2)
  match k.spOwner.find? fun p => p.1 = page with
  | some (_, o) => if o = who then (List.range 4096).map fun i => mixByte left use (4096 * page + i) else List.replicate 4096 0
  | none => (List.range 4096).map fun i => mixByte left use (4096 * page + i)

/-- The scratchpad of a grant as a placement leaves it (R150); `src` is what else the region may read. -/
def Core.grantPages (k : Core) (base grant : Nat) (who : Nat × Nat) (src : Nat → Byte) (use : Nat) : Core :=
  (List.range (grant / 4096)).foldl (fun k' i =>
    let page := base / 4096 + i
    { k' with spad := k'.spad.store (4096 * page) (k.pageBytes who src use page) }) (k.ownPages base grant who)

/-- The task a placement makes of a record (R298, R304, R309); PRIO and DOMAIN count as whole bytes, PREEMPT by its low four bits
(notes/assumptions/117). -/
def State.taskOf (s : State) (r : Ready) (h : Header) (slot : Nat) (gated : Bool) : Task :=
  let g (f : RcbField) := s.rgnGet r.part r.region f
  let prio := min r.want (s.rgnEff r.part r.region fPrio)
  { record := r.record, part := r.part, region := r.region, frame := r.frame, code := r.code, succ := r.succ, prio,
    placed := s.now, launch := r.launch, spad := h.grant, plies := h.plies, killed := false, preempt := false, yields := false,
    margin := g fPreempt % 16, saveBase := g fSavebase, profBase := g fProfbase, profSlots := g fProfslots,
    profDepth := g fProfdepth, profFlags := g fProfflags, domain := s.rgnEff r.part r.region fDomain, slot, ctxs := h.ctx, pin := r.pin, gated }

/-- The context at a task's first instruction (R14, R84, R147, R304, R309); of TIMER only bit 0 counts (notes/assumptions/117). -/
def State.firstCtx (s : State) (t : Task) (h : Header) (base : Nat) : Ctx :=
  let g (f : RcbField) := s.rgnGet t.part t.region f
  let st : Stream := { Stream.reset with
    pc := t.code + h.textOff + h.entry
    x := vset (vset Stream.reset.x 0 (BitVec.ofNat 64 t.frame)) 1 (BitVec.ofNat 64 t.record) }
  { Ctx.reset with
    task := some t
    streams := Vector.replicate 5 st
    slip := h.slip, exposed := bit h.flags 0, timecmp := BitVec.ofNat 64 (g fTimecmp), timerEn := bit (g fTimer) 0
    tvec := BitVec.ofNat 48 (g fTvec), frameAddr := BitVec.ofNat 48 (g fFramebase + 0x2_0000 * t.slot)
    spbase := base, spadGrant := h.grant, plyGrant := h.plies }

/-- A checked launch takes a context of a core (R150, R237, R238, R305, R306, R309, R310). -/
def State.placeAt (s : State) (core c slot : Nat) (r : Ready) (h : Header) (recs : List (BitVec 512)) (gated : Bool) : State :=
  let t := s.taskOf r h slot gated
  let s1 := (s.markStale core).charge r.part r.region h.ctx h.grant h.plies
  let k := s1.core core
  let base := k.chooseBase c h.grant
  let live := (k.slot k.running).task.isNone
  let x := s1.firstCtx t h base
  let x := if live then x.startSequencer recs else { x with staging := recs }
  let k1 := ((k.grantPages base h.grant (r.part, r.region) (s1.readableByte core r.part Ctx.reset) s1.freeCount).setSlot c x)
  { s1 with freeCount := s1.freeCount + 1 }.setCore core
    { k1 with running := if live then c else k1.running, turn := if live then 0 else k1.turn }

/-- A successful placement ends LAUNCH-REJECTED (R306). -/
def State.placedState (s : State) (part region : Nat) : State :=
  if s.rgnGet part region fState = stRejected then s.rgnSetField part region fState stActive else s

/-- A core may take tasks: its cluster serves, and a context of it holds none (R309; 17 R423, R441). -/
def State.mayPlace (s : State) (core : Nat) : Bool := ((s.core core).freeSlot 1).isSome && !(s.cluster (clusterOf core)).retired

/-- A partition may place tasks (17 R423, R429). -/
def State.partPlaces (s : State) (part : Nat) : Bool := match (s.part part).state with
  | .active => true
  | .draining => true
  | _ => false

/-- What a record of a list meets at placement on a core. -/
inductive PlaceRes where
  | wait
  | reject (reason : Nat)
  | place (c slot : Nat) (h : Header) (recs : List (BitVec 512))
  | restore
  deriving DecidableEq, Repr

/-- What placement on a core makes of a record: its code object as it was read, else as it stands. -/
def State.tryPlace (s : State) (core : Nat) (r : Ready) : PlaceRes :=
  if !s.partPlaces r.part then .wait
  else if r.saved.isSome then (if (s.restorable core r).isSome then .restore else .wait)
  else match s.judge r.part r.region r.code (r.kept.getD (s.launched r.part r.code)) with
    | .error e => .reject e
    | .ok (h, recs) => (match s.fits core r.part r.region h with
      | some (c, slot) => .place c slot h recs
      | none => .wait)

/-- The first record of a core's list that is placed or rejected (R309). -/
def State.nextPlaced (s : State) (core : Nat) : Option (Ready × PlaceRes) :=
  if !s.mayPlace core then none
  else (s.core core).ready.findSome? fun r => match s.tryPlace core r with
    | .wait => none
    | p => some (r, p)

/-- The leaf controller reads the code objects of a list's records, each once, up to the first that is placed or rejected (R84,
R309, R349). -/
def State.readList (s : State) (core : Nat) : List Ready → State
  | [] => s
  | r :: rest =>
    let unread := r.kept.isNone && r.saved.isNone && s.partPlaces r.part
    let s1 := if unread then
        let k := s.core core
        (s.setCore core { k with ready := k.ready.map fun x => if x = r then { r with kept := some (s.launched r.part r.code) } else x }).readCode
          r.part r.code
      else s
    match s.tryPlace core r with
    | .wait => s1.readList core rest
    | _ => s1

/-- Placement at a core has something to do: a record to place or reject, or a code object to read (R309). -/
def State.mayRead (s : State) (core : Nat) : Bool :=
  s.mayPlace core && (s.core core).ready.any fun r => r.kept.isNone && r.saved.isNone && s.partPlaces r.part

/-- A record leaves a core's list. -/
def State.unlist (s : State) (core : Nat) (r : Ready) : State :=
  let k := s.core core
  s.setCore core { k with ready := k.ready.erase r }

/-- A record of a core's list is placed, rejected or restored (R309, R311); the RCBs on its region's path are read for it (R305). -/
def State.placeRecord (s : State) (r : Ready) : PlaceRes → State
  | .place c slot h recs =>
    (((s.unlist s.focus r).visitPath r.part (s.rgnPath r.part r.region)).placeAt s.focus c slot r h recs false).placedState r.part r.region
  | .reject reason =>
    ((s.unlist s.focus r).visitPath r.part (s.rgnPath r.part r.region)).settle
      [.ended { r.ending .rejected causeRejected reason causeRejected with cluster := some (clusterOf s.focus) }]
  | .restore => s.restoreFrom s.focus r
  | .wait => s

/-- A core's empty context takes a record (R309, R311). -/
def State.place (s : State) : State :=
  let s1 := if s.mayPlace s.focus then s.readList s.focus s.here.ready else s
  match s1.nextPlaced s.focus with
  | none => s1
  | some (r, p) => s1.placeRecord r p

/-- PLACEMENT (R309). -/
def execPlacement (core : Nat) (s : State) : Host.Outcome State Fault Refusal := s.atCore core State.place

/-- Records of tasks not yet placed in a list (R307, R314). -/
def unplaced (l : List Ready) : Nat := (l.filter fun r => r.saved.isNone).length

/-- Insert at the tail of its priority (R307, R312). -/
def insertReady (r : Ready) (l : List Ready) : List Ready :=
  l.takeWhile (fun x => r.prio ≤ x.prio) ++ r :: l.dropWhile fun x => r.prio ≤ x.prio

/-- The oldest record of the highest non-empty priority of a slice (R307). -/
def Cluster.oldest (k : Cluster) : Option Ready :=
  ((List.range 16).reverse.findSome? fun p => (vget [] k.queues p).head?)

/-- The core of a cluster whose list holds the fewest unplaced records, if any holds fewer than 32 (R307). -/
def State.emptiest (s : State) (cluster : Nat) : Option Nat :=
  let c := (List.range 8).foldl (fun (b : Nat) j =>
    let n := 8 * cluster + j
    if unplaced (s.core n).ready < unplaced (s.core b).ready then n else b) (8 * cluster)
  if unplaced (s.core c).ready < 32 then some c else none

/-- The Cuff moves one record from the queues to a list (R307). -/
def State.moveRecord (s : State) (cluster : Nat) : State :=
  match (s.cluster cluster).oldest, s.emptiest cluster with
  | some r, some n =>
    let k := s.cluster cluster
    let s1 := s.setCluster cluster { k with queues := k.queues.map fun (q : List Ready) => q.erase r }
    let c := s1.core n
    s1.setCore n { c with ready := insertReady r c.ready }
  | _, _ => s

/-- RECORD_MOVE (R307). -/
def execRecordMove (cluster : Nat) (s : State) : Host.Outcome State Fault Refusal :=
  if cluster < 16 then .next (s.moveRecord cluster) else .refused .noSuchPlace

/-- The pairs of an epoch (R312). -/
def balancePairs (epoch : Nat) : List (Nat × Nat) :=
  if epoch % 3 = 0 then [(0, 1), (2, 3), (4, 5), (6, 7)]
  else if epoch % 3 = 1 then [(1, 2), (5, 6)]
  else [(0, 4), (1, 5), (2, 6), (3, 7)]

/-- Take the last `n` records that may move out of a list (R312): those that stay, and those that go. -/
def takeTail (n : Nat) (l : List Ready) : List Ready × List Ready :=
  let r := l.reverse.foldl (fun (acc : List Ready × List Ready) x =>
    if acc.2.length < n && !x.pin && x.saved.isNone then (acc.1, x :: acc.2) else (x :: acc.1, acc.2)) ([], [])
  r

/-- One core's list gives records to its partner's (R312). -/
def State.balancePair (s : State) (a b : Nat) : State :=
  let oa := unplaced (s.core a).ready
  let ob := unplaced (s.core b).ready
  let (src, dst, n) := if ob < oa then (a, b, min ((oa - ob) / 4) (32 - ob)) else (b, a, min ((ob - oa) / 4) (32 - oa))
  let t := takeTail n (s.core src).ready
  let s1 := s.setCore src { s.core src with ready := t.1 }
  s1.setCore dst { s1.core dst with ready := t.2.foldl (fun l r => insertReady r l) (s1.core dst).ready }

/-- An epoch boundary of a cluster (R312). -/
def State.balance (s : State) (cluster : Nat) : State :=
  let k := s.cluster cluster
  let s1 := (balancePairs k.epoch).foldl (fun s p => s.balancePair (8 * cluster + p.1) (8 * cluster + p.2)) s
  let k1 := s1.cluster cluster
  s1.setCluster cluster { k1 with epoch := k1.epoch + 1 }

/-- BALANCE_EPOCH (R312). -/
def execBalanceEpoch (cluster : Nat) (s : State) : Host.Outcome State Fault Refusal :=
  if cluster < 16 then .next (s.balance cluster) else .refused .noSuchPlace

end Sys2Proof.Machine
end

