-- ==== Sys2Proof/Machine/Gang.lean ====
section
/-! DEFINITION. Gangs: the reservation phase, commit, roll back, the start and the timeout (13 R353 to R355; 17 R413). A gang is
named by its LAUNCH. -/

namespace Sys2Proof.Machine

/-- The gang whose reservation phase runs: the earliest submitted that is not committed (R354). -/
def State.reserving (s : State) : Option Gang := s.die.gangs.find? fun g => g.start.isNone

def PartPhase.failure : PartPhase → Option Nat
  | .failed r => some r
  | _ => none

/-- The reason of the first part that failed, or of another module (R354; 17 R413). -/
def Gang.failure (g : Gang) : Option Nat := (g.parts.findSome? fun p => p.phase.failure).orElse fun _ => g.fabric.bind (·.failed)

/-- A gang may start at a time (R354): one at least 2 µs away; a fabric gang at the time the lowest-numbered module chooses, which is
this one where every other is ready and none is lower (17 R413). -/
def Gang.mayStart (g : Gang) (now time : Nat) : Bool := match g.fabric with
  | none => now + 2000 ≤ time
  | some f => match f.told with
    | some t => t = time
    | none => f.ready.length + 1 = f.modules && (f.ready.all fun m => Config.moduleId.toNat < m) && now + 2000 ≤ time

/-- The checks of a part, made once (R354): those it keeps, or those of its first RESERVE, of the record that its LAUNCH read. -/
def State.partCheck (s : State) (p : GangPart) : Except Nat KeptCheck :=
  match p.kept, p.ready with
  | some k, _ => .ok k
  | none, none => .error 0x0D
  | none, some r => match s.checkLaunch p.part r.region r.code with
    | .error e => .error e
    | .ok (h, recs) => .ok { ready := r, header := h.bytes, recs }

/-- What a part's first check and its reservation read at home slices: the code object, and the RCBs on its region's path (R84, R305,
R349). -/
def State.partReads (s : State) (p : GangPart) : State := match p.ready with
  | none => s
  | some r => (if p.kept.isNone then s.readCode p.part r.code else s).visitPath p.part (s.rgnPath p.part r.region)

/-- The core of a cluster that can hold a checked part, with its context and slot (R354). -/
def State.reserveCore (s : State) (p : GangPart) (k : KeptCheck) (cluster : Nat) : Option (Nat × Nat × Nat) :=
  ((List.range 8).map fun j => 8 * cluster + j).findSome? fun n =>
    if !s.mayPlace n || (s.runCtx n).task.isSome then none
    else (s.fits n p.part k.ready.region { bytes := k.header }).map fun x => (n, x.1, x.2)

/-- The part that a RESERVE to a cluster is for: the first not yet asked whose partition holds the cluster, or one that waits
there (R354). -/
def State.reservePart (s : State) (g : Gang) (cluster : Nat) : Option (Nat × GangPart) :=
  match g.first fun p => p.phase = .waiting && p.cluster = cluster with
  | some x => some x
  | none =>
    match g.first fun p => p.phase = .idle with
    | some (i, p) => if (s.part p.part).clusters.getLsbD cluster then some (i, p) else none
    | none => none

/-- A gang is rejected with a reason: each part's record is rejected (R354, R355; 17 R413). -/
def State.rejectGang (s : State) (g : Gang) (reason : Nat) : State :=
  let s1 := s.dropGang g.launch
  g.parts.foldl (fun s p => match p.ready with
    | none => s.launchEnd (some g.launch) p.record outRejected causeRejected reason
    | some r => (s.rgnLiveUp p.part r.region).settle [.ended (r.ending .rejected causeRejected reason causeRejected)]) s1

/-- A gang that failed and holds no reservation any more is rejected (R354). -/
def State.closeGang (s : State) (launch : Nat) : State :=
  match s.gang launch with
  | none => s
  | some g => (match g.failure with
    | some r => if g.parts.any fun p => p.phase = .reserved then s else s.rejectGang g r
    | none => s)

/-- A leaf controller answers RESERVE (R354). -/
def State.answerReserve (s : State) (launch cluster : Nat) : State :=
  match s.reserving with
  | none => s
  | some g =>
    if g.launch ≠ launch || g.failure.isSome then s
    else match s.reservePart g cluster with
      | none => s
      | some (i, p) =>
        let g := { g with sent := g.sent.orElse fun _ => some s.now }
        let read := s.partReads p
        match s.partCheck p with
        | .error e => (read.setGang (g.setPart i { p with phase := .failed e, cluster })).closeGang launch
        | .ok k => match s.reserveCore p k cluster with
          | none => read.setGang (g.setPart i { p with phase := .waiting, cluster, kept := some k })
          | some (n, c, slot) =>
            (read.placeAt n c slot k.ready { bytes := k.header } k.recs true).setGang
              (g.setPart i { p with phase := .reserved, cluster, core := some n, kept := some k })

/-- RESERVE over the link of its cluster (R353, R354). -/
def State.reserve (s : State) (launch cluster : Nat) : State :=
  s.overLink cluster (.reserve launch cluster) fun s => s.answerReserve launch cluster

/-- RESERVE (R354). -/
def execReserve (gang cluster : Nat) (s : State) : Host.Outcome State Fault Refusal :=
  if cluster < 16 then .next (s.reserve gang cluster) else .refused .noSuchPlace

/-- A part has been handed over (17 R412). -/
def State.markHanded (s : State) (launch i : Nat) : State :=
  s.setHost { s.host with launches := s.host.launches.map fun l =>
    if l.ident ≠ launch then l
    else { l with parts := l.parts.zipIdx.map fun x => if x.2 = i then { x.1 with handed := true } else x.1 } }

/-- The handover of a LAUNCH begins (18 R442). notes/assumptions/124 says when. -/
def State.countLaunch (s : State) (part : Nat) : State := s.setPstat part { s.pstat part with launches := (s.pstat part).launches + 1 }

/-- Every part has replied OK (R354). -/
def Gang.allReserved (g : Gang) : Bool := g.parts.all fun p => p.phase = .reserved || p.phase = .committed

/-- A COMMIT may carry a start instant (R354): the one chosen, while it is at least 2 µs away; where the chosen one no longer is,
the Crown chooses again (notes/assumptions/51). That of a fabric gang is the one told (17 R413). -/
def Gang.mayCommit (g : Gang) (now time : Nat) : Bool := match g.start with
  | none => g.mayStart now time
  | some t => if g.fabric.isSome then t = time else now + 2000 ≤ time && (t = time || t < now + 2000)

/-- COMMIT of a reserved part (R354). -/
def State.doCommit (s : State) (launch cluster time : Nat) : State :=
  match s.gang launch with
  | none => s
  | some g =>
    let mine := g.start.isSome || (s.reserving.any fun x => x.launch = launch)
    if !g.allReserved || !g.mayCommit s.now time || !mine then s
    else match g.first fun p => p.phase = .reserved && p.cluster = cluster with
      | none => s
      | some (i, p) =>
        let s0 := if g.start.isNone then s.countLaunch p.part else s
        let s1 := (s0.setGang { g.setPart i { p with phase := .committed } with start := some time }).markHanded launch i
        match p.kept with
        | some k => (s1.rgnLiveUp p.part k.ready.region).placedState p.part k.ready.region
        | none => s1

/-- COMMIT over the link of its cluster (R353, R354). -/
def State.commitPart (s : State) (launch cluster time : Nat) : State :=
  s.overLink cluster (.commit launch cluster time) fun s => s.doCommit launch cluster time

/-- COMMIT (R354). -/
def execCommit (gang cluster time : Nat) (s : State) : Host.Outcome State Fault Refusal :=
  if cluster < 16 then .next (s.commitPart gang cluster time) else .refused .noSuchPlace

/-- Release a reservation with its charges (R354). -/
def State.releasePart (s : State) (p : GangPart) : State :=
  match s.gatedSlot p with
  | none => s
  | some (n, c) => s.unreserve n c

/-- ROLLBACK of a part of a gang that failed (R354). -/
def State.doRollback (s : State) (launch cluster : Nat) : State :=
  match s.gang launch with
  | none => s
  | some g =>
    if g.failure.isNone then s
    else match g.first fun p => p.phase = .reserved && p.cluster = cluster with
      | none => s
      | some (i, p) => ((s.releasePart p).setGang (g.setPart i { p with phase := .idle, core := none, kept := none })).closeGang launch

/-- ROLLBACK over the link of its cluster (R353, R354). -/
def State.rollbackPart (s : State) (launch cluster : Nat) : State :=
  s.overLink cluster (.rollback launch cluster) fun s => s.doRollback launch cluster

/-- ROLLBACK (R354). -/
def execRollback (gang cluster : Nat) (s : State) : Host.Outcome State Fault Refusal :=
  if cluster < 16 then .next (s.rollbackPart gang cluster) else .refused .noSuchPlace

/-- GANG_START (R354). -/
def execGangStart (gang cluster : Nat) (s : State) : Host.Outcome State Fault Refusal :=
  if cluster < 16 then .next (s.startPart gang cluster) else .refused .noSuchPlace

/-- A phase in which some part has waited for 10 ms fails with GANG-TIMEOUT (R355). -/
def State.timeoutGang (s : State) (launch : Nat) : State :=
  match s.gang launch with
  | none => s
  | some g =>
    if g.start.isSome || g.failure.isSome || !(g.sent.any fun t => t + 10000000 ≤ s.now) then s
    else match g.first fun p => p.phase = .waiting with
      | none => s
      | some (i, p) => (s.setGang (g.setPart i { p with phase := .failed 0x0E })).closeGang launch

/-- GANG_TIMEOUT (R355). -/
def execGangTimeout (gang : Nat) (s : State) : Host.Outcome State Fault Refusal := .next (s.timeoutGang gang)

/-- A phase is aborted: every reservation is rolled back and the LAUNCH reports ABANDONED with a cause (R355). -/
def State.abortGang (s : State) (g : Gang) (cause : Nat) : State :=
  let s1 := (g.parts.foldl (fun s p => if p.phase = .reserved then s.releasePart p else s) s).dropGang g.launch
  g.parts.foldl (fun s p => s.launchEnd (some g.launch) p.record outAbandoned cause 0) s1

/-- A message of another module of a fabric gang (17 R413). -/
def State.gangMessage (s : State) (ident : Nat) (f : Fabric → Fabric) : State :=
  match s.die.gangs.find? fun g => g.start.isNone && g.fabric.any fun x => x.ident = ident with
  | none => s
  | some g => (s.setGang { g with fabric := g.fabric.map f }).closeGang g.launch

/-- The gangs still in or before their reservation phase that a condition names are aborted. -/
def State.abortGangs (s : State) (p : Gang → Bool) (cause : Nat) : State :=
  (s.die.gangs.filter fun g => g.start.isNone && p g).foldl (fun s g => s.abortGang g cause) s

end Sys2Proof.Machine
end

