-- ==== Sys2Proof/Machine/Packets.lean ====
section
/-! DEFINITION. Command streams: levels, windows and packets, and what each packet does (17 R409 to R416, R420, R424; 19 R445 to
R447). -/

namespace Sys2Proof.Machine

def Packet.word (p : Packet) (i : Nat) : Nat := p.words.getD i 0

/-- The level that a queue's next packet stands in. -/
def Queue.top (x : Queue) : Level :=
  x.levels.headD { kind := .ring, host := x.host, start := 0, stop := 0, pos := x.rptr, passes := 0, window := none }
def Queue.setTop (x : Queue) (l : Level) : Queue := { x with levels := match x.levels with
  | [] => [l]
  | _ :: rest => l :: rest }

/-- The level whose memory holds the next packet: a loop's body lies in the level around it (R414). -/
def Queue.holder (x : Queue) : Level := (x.levels.find? fun l => l.kind ≠ .loop).getD x.top

def Queue.inRing (x : Queue) : Bool := x.holder.kind = .ring

/-- Buffers entered (R414). -/
def Queue.depth (x : Queue) : Nat := (x.levels.filter fun l => l.kind = .ib).length

/-- Bytes from one position to another; those of the ring wrap at 2^32 (R409). -/
def Queue.dist (x : Queue) (a b : Nat) : Nat := if x.inRing then (b + 2 ^ 32 - a % 2 ^ 32) % 2 ^ 32 else b - a
def Queue.after (x : Queue) (a n : Nat) : Nat := if x.inRing then (a + n) % 2 ^ 32 else a + n

/-- End of what the next packets may take: WPTR, or the end of the buffer or body (R409, R415). -/
def Queue.limit (x : Queue) : Nat := match x.top.kind with
  | .ring => x.wptr
  | _ => x.top.stop

/-- The address word of a position (R409, R410). -/
def Queue.addrWord (x : Queue) (pos : Nat) : Nat :=
  let a := if x.inRing then x.base + pos % x.size else pos
  if x.holder.host then 2 ^ 63 + a else a

/-- The window that stands for the level of the next packet (R415, R446). -/
def Queue.window (x : Queue) : Option PktWindow := match x.top.kind with
  | .loop => x.top.window
  | _ => (x.windows.find? fun w => w.1 = x.depth).map (·.2)

def Queue.setWindow (x : Queue) (w : PktWindow) : Queue := match x.top.kind with
  | .loop => x.setTop { x.top with window := some w }
  | _ => { x with windows := tset x.windows x.depth w }

/-- Bytes of the level's window from a position on, when it holds the position. -/
def Queue.windowBytes (x : Queue) (pos : Nat) : List Byte :=
  match x.window with
  | none => []
  | some w =>
    if w.host ≠ x.holder.host || (!x.inRing && pos < w.start) then []
    else w.bytes.drop (x.dist w.start pos)

/-- The length of the packet that some bytes begin with. -/
def packetLen (bs : List Byte) : Nat := (bs.getD 1 0).toNat

/-- A whole packet at the head of some bytes (R410). -/
def parsePacket (pos : Nat) (bs : List Byte) : Option Packet :=
  let n := packetLen bs
  if bs.length < 8 || n = 0 || bs.length < 8 * n then none
  else
    let h := bytesNat (bs.take 8)
    some { pos, kind := bits h 7 0, len := n, arg := bits h 63 32, rsv := bits h 31 16,
           words := (List.range (n - 1)).map fun i => bytesNat ((bs.drop (8 * (i + 1))).take 8) }

/-- The next packet, when the level's window holds it whole below WPTR, or the end of the buffer or body (R409, R415, R446). -/
def Queue.packet (x : Queue) : Option Packet := parsePacket x.top.pos ((x.windowBytes x.top.pos).take (x.dist x.top.pos x.limit))

/-- The packet in progress, or the next one. -/
def Queue.doing (x : Queue) : Option Packet := x.current.orElse fun _ => x.packet

/-- No window of a queue stands any more; a packet in progress is kept as it was decoded (R415, R419, R446). -/
def Queue.dropWindows (x : Queue) : Queue :=
  { x with windows := [], levels := x.levels.map fun l => { l with window := none },
           current := if x.progress ≠ .none || x.skip ≠ 0 then x.doing else none }

/-- Bytes of whole packets at the head of some bytes (R415). -/
def wholePackets : Nat → List Byte → Nat
  | 0, _ => 0
  | k + 1, bs =>
    let n := 8 * packetLen bs
    if bs.length < 8 || n = 0 || bs.length < n then 0 else n + wholePackets k (bs.drop n)

/-- Read packet memory from a position, at most `n` bytes, up to the first byte that cannot be read; its cause is answered. -/
def State.readStream (s : State) (x : Queue) (pos : Nat) : Nat → Nat → Option Nat × List Byte × State
  | 0, _ => (none, [], s)
  | k + 1, n =>
    if n = 0 then (none, [], s)
    else
      let w := x.addrWord pos
      let m := min n (128 - w % 128)
      match s.pktRead x.part w m with
      | (.error c, s1) => (some c, [], s1)
      | (.ok v, s1) =>
        let r := s1.readStream x (x.after pos m) k (n - m)
        (r.1, natBytes m v ++ r.2.1, r.2.2)

/-- What a fetch at a position finds (R409, R415). -/
inductive FetchRes where
  | window (w : PktWindow)
  /-- the packet is not yet whole below WPTR -/
  | wait
  | stop (cause : Nat)
  deriving DecidableEq, Repr

/-- Fetch a window that starts at a position of the queue's level (R415). -/
def State.fetchAt (s : State) (x : Queue) (pos : Nat) : FetchRes × State :=
  let n := min 4096 (x.dist pos x.limit)
  let (fault, bs, s1) := s.readStream x pos 34 n
  let m := wholePackets 512 bs
  let short := if x.top.kind = .ring then FetchRes.wait else .stop causePacket
  if m ≠ 0 then (.window { host := x.holder.host, start := pos, bytes := bs.take m }, s1)
  else if bs.length < 8 then ((match fault with
    | some c => .stop c
    | none => short), s1)
  else if packetLen bs = 0 then (.stop causePacket, s1)
  else match fault with
    | some c => (.stop c, s1)
    | none => (short, s1)

/-- A queue that the Crown or the Mitten serves now, with a packet to look at (R409, R419, R420, R443). -/
def State.serves (s : State) (x : Queue) : Bool :=
  x.state = .running && (if s.host.mitten then x.mapped else s.host.crown = 1) &&
    (match (s.part x.part).state with
      | .resetting => false
      | .failed => false
      | _ => true)

/-- The Mitten performs this packet (R420). -/
def mittenPacket (p : Packet) : Bool :=
  [0x00, 0x02, 0x06, 0x07, 0x08, 0x09].contains p.kind || (p.kind = 0x01 && p.arg % 16 = 0 && p.word 1 = 0)

/-- An address word with an alignment (R410, R411). -/
def wordAligned (w n : Nat) : Bool := wordOk w && wordAddr w % n = 0

/-- The packet keeps the table of R411: lengths, reserved fields and operand ranges. -/
def Packet.valid (p : Packet) : Bool :=
  p.rsv = 0 && (match p.kind with
    | 0x00 => true
    | 0x01 =>
      let n := p.arg % 16 + 1
      p.arg / 32 = 0 && p.len = 3 + n && wordAligned (p.word 0) 16 && bits (p.word 1) 53 48 = 0 &&
        (List.range n).all fun i => p.word (2 + i) < 2 ^ 48 && p.word (2 + i) % 32 = 0
    | 0x02 => p.arg = 0 && p.len = 3 && wordAligned (p.word 0) 8 && p.word 1 % 8 = 0 && 8 ≤ p.word 1 && p.word 1 ≤ 1048576
    | 0x03 => bits p.arg 7 3 = 0 && p.arg / 2 ^ 16 = 0 && bits p.arg 2 0 < 6 && bits p.arg 15 8 ≠ 0 && p.len = 4 && wordAligned (p.word 0) 8
    | 0x04 => p.arg = 0 && p.len = 2 && bits (p.word 0) 63 32 % 8 = 0 && 8 ≤ bits (p.word 0) 63 32 && bits (p.word 0) 63 32 ≤ 4096
    | 0x05 => p.arg < 6 && p.len = 4 && wordAligned (p.word 0) 8
    | 0x06 => p.arg < 2 && p.len = 3 && wordAligned (p.word 0) (if bit p.arg 0 then 8 else 4)
    | 0x07 => p.arg < 2 ^ 11 && p.len = (if bit p.arg 10 then 3 else 1) && (!bit p.arg 10 || wordAligned (p.word 0) 8)
    | 0x08 => p.arg = 0 && p.len = 2 && wordAligned (p.word 0) 8
    | 0x09 => p.arg = 0 && p.len = 1
    | _ => false)

/-- The packet crosses no end of the ring (R409). -/
def Queue.ringFits (x : Queue) (p : Packet) : Bool := !x.inRing || p.pos % x.size + 8 * p.len ≤ x.size

/-- What a queue does next. -/
inductive QNext where
  | none
  /-- fetch a window, or find that the packet cannot be performed -/
  | fetch
  | packet (p : Packet)
  deriving DecidableEq, Repr

def State.queueNext (s : State) (x : Queue) : QNext :=
  if !s.serves x then .none
  else if x.size < x.dist x.rptr x.wptr && x.top.kind = .ring then .fetch
  else if x.dist x.top.pos x.limit = 0 then .none
  else match x.doing with
    | none => .fetch
    | some p => if !p.valid || !x.ringFits p then .fetch else .packet p

/-- Work is left in a queue. -/
def Queue.busy (x : Queue) : Bool := 1 < x.levels.length || x.dist x.top.pos x.wptr ≠ 0

/-- A body or buffer whose last packet has completed completes; a loop with passes left begins again (R412, R414, R447). -/
def Queue.unwind (x : Queue) : Nat → Queue
  | 0 => x
  | k + 1 =>
    match x.levels with
    | l :: rest =>
      if l.kind = .ring || l.pos ≠ l.stop then x
      else if l.kind = .loop && 1 < l.passes then { x with levels := { l with pos := l.start, passes := l.passes - 1 } :: rest }
      else { x with levels := rest, completed := (x.completed + 1) % 2 ^ 32 }.unwind k
    | [] => x

/-- The queue after its packet has moved it on: RPTR, its state and its timer (R409, R422). -/
def Queue.settled (x : Queue) (now : Nat) : Queue :=
  let x := if x.levels.length ≤ 1 then { x with rptr := x.top.pos } else x
  { x with state := if x.busy then .running else .idle, began := if x.busy then some now else none, progress := .none, skip := 0, current := none }

/-- A packet completes (R412): the stream goes on at `pos`. -/
def State.finishAt (s : State) (q : Nat) (x : Queue) (pos : Nat) : State :=
  let x := { x.setTop { x.top with pos } with completed := (x.completed + 1) % 2 ^ 32 }
  s.setQueue q ((x.unwind 5).settled s.now)

def State.finishPacket (s : State) (q : Nat) (x : Queue) (p : Packet) : State := s.finishAt q x (x.after p.pos (8 * p.len))

/-- An address a packet names cannot be used: the queue stops there (R410, R416). -/
def State.packetFault (s : State) (q : Nat) (x : Queue) (pos cause : Nat) : State := s.stopQueue q .faulted cause (x.addrWord pos)

/-- A packet of a given type, if the queue's next packet is one; the Mitten holds its queue at others (R420). -/
def State.withPacket (s : State) (q kind : Nat) (f : Queue → Packet → State) : Host.Outcome State Fault Refusal :=
  if 1024 ≤ q then .refused .noSuchPlace
  else .next <| match s.queueOf q with
    | none => s
    | some x => (match s.queueNext x with
      | .packet p =>
        if p.kind ≠ kind then s
        else if s.host.mitten && !mittenPacket p then s.setQueue q { x with state := .mitten }
        else f x p
      | _ => s)

/-- WINDOW_FETCH (R415, R416): the window of the next packet; a packet that breaks the table stops the queue. -/
def State.windowFetch (s : State) (q : Nat) (x : Queue) : State :=
  match s.queueNext x with
  | .fetch =>
    if x.size < x.dist x.rptr x.wptr && x.top.kind = .ring then s.packetFault q x x.top.pos causePacket
    else (match x.packet with
      | some _ => s.packetFault q x x.top.pos causePacket
      | none => (match s.fetchAt x x.top.pos with
        | (.window w, s1) => s1.setQueue q (x.setWindow w)
        | (.wait, s1) => s1.setQueue q { x with state := .waiting }
        | (.stop c, s1) => s1.packetFault q x x.top.pos c))
  | _ => s

def execWindowFetch (queue : Nat) (s : State) : Host.Outcome State Fault Refusal :=
  if 1024 ≤ queue then .refused .noSuchPlace
  else .next <| match s.queueOf queue with
    | none => s
    | some x => s.windowFetch queue x

/-- NOP (R411). -/
def execNopPacket (queue : Nat) (s : State) : Host.Outcome State Fault Refusal :=
  s.withPacket queue 0x00 fun x p => s.finishPacket queue x p

/-- IB (R411, R414): the first packet of the buffer starts (R412, R422). -/
def execIb (queue : Nat) (s : State) : Host.Outcome State Fault Refusal :=
  s.withPacket queue 0x02 fun x p =>
    if 2 ≤ x.depth then s.packetFault queue x p.pos causePacket
    else
      let a := wordAddr (p.word 0)
      let l : Level := { kind := .ib, host := wordHost (p.word 0), start := a, stop := a + p.word 1, pos := a, passes := 1, window := none }
      let x := x.setTop { x.top with pos := x.after p.pos 24 }
      s.setQueue queue { x with levels := l :: x.levels, began := some s.now }

/-- LOOP (R411, R414, R409): the first packet of the body starts (R412, R422). -/
def execLoopPacket (queue : Nat) (s : State) : Host.Outcome State Fault Refusal :=
  s.withPacket queue 0x04 fun x p =>
    let body := bits (p.word 0) 63 32
    let passes := bits (p.word 0) 31 0
    if x.top.kind = .loop then s.packetFault queue x p.pos causePacket
    else if x.dist p.pos x.limit < 16 + body then
      (if x.top.kind = .ring then s.setQueue queue { x with state := .waiting } else s.packetFault queue x p.pos causePacket)
    else
      let start := x.after p.pos 16
      let stop := x.after start body
      if passes = 0 then s.finishAt queue x stop
      else
        let l : Level := { kind := .loop, host := x.holder.host, start, stop, pos := start, passes, window := none }
        let x := x.setTop { x.top with pos := stop }
        s.setQueue queue { x with levels := l :: x.levels, began := some s.now }

/-- The comparison a FUNC names (R411). -/
def funcHolds (func m value mask : Nat) : Bool :=
  let a := m &&& mask
  let b := value &&& mask
  if func = 0 then a = b
  else if func = 1 then a ≠ b
  else if func = 2 then a < b
  else if func = 3 then b ≤ a
  else if func = 4 then signExtend a 64 < signExtend b 64
  else signExtend b 64 ≤ signExtend a 64

/-- How the count of skipped packets ends (R414). -/
inductive SkipRes where
  | past (pos : Nat)
  | wait
  | stop (cause : Nat)
  deriving DecidableEq, Repr

/-- Pass `n` packets from a position by their headers, fetching windows as they are needed (R414). -/
def State.skipRun (s : State) (x : Queue) (pos : Nat) : Nat → SkipRes × Queue × State
  | 0 => (.past pos, x, s)
  | k + 1 =>
    let beyond : SkipRes := if x.top.kind = .ring then .wait else .stop causePacket
    if x.dist pos x.limit = 0 then (beyond, x, s)
    else
      let (res, x, s) : Option SkipRes × Queue × State :=
        if (parsePacket pos (x.windowBytes pos)).isSome then (none, x, s)
        else match s.fetchAt x pos with
          | (.window w, s1) => (none, x.setWindow w, s1)
          | (.wait, s1) => (some .wait, x, s1)
          | (.stop c, s1) => (some (.stop c), x, s1)
      match res with
      | some r => (r, x, s)
      | none =>
        match parsePacket pos (x.windowBytes pos) with
        | none => (.stop causePacket, x, s)
        | some p =>
          let n := 8 * p.len + (if p.kind = 0x04 then bits (p.word 0) 63 32 else 0)
          if x.dist pos x.limit < n then (beyond, x, s) else s.skipRun x (x.after pos n) k

/-- PRED (R411, R412, R414): its word is read once; `skip` keeps the count while the packets to pass are not yet there. -/
def execPktPred (queue : Nat) (s : State) : Host.Outcome State Fault Refusal :=
  s.withPacket queue 0x03 fun x p =>
    let go (s : State) (x : Queue) : State :=
      match s.skipRun x (x.after p.pos 32) x.skip with
      | (.past pos, x1, s1) => s1.finishAt queue x1 pos
      | (.wait, x1, s1) => s1.setQueue queue { x1 with state := .waiting }
      | (.stop c, _, s1) => s1.packetFault queue x p.pos c
    if x.skip ≠ 0 then go s x
    else match s.pktRead x.part (p.word 0) 8 with
      | (.error c, s1) => s1.packetFault queue x p.pos c
      | (.ok m, s1) =>
        if funcHolds (bits p.arg 2 0) m (p.word 1) (p.word 2) then s1.finishPacket queue x p
        else go s1 { x with skip := bits p.arg 15 8 }

/-- A read of a WAITMEM's word (R412). -/
def State.tryWait (s : State) (q : Nat) (x : Queue) (p : Packet) : State :=
  match s.pktRead x.part (p.word 0) 8 with
  | (.error c, s1) => s1.packetFault q x p.pos c
  | (.ok m, s1) =>
    if funcHolds (bits p.arg 2 0) m (p.word 1) (p.word 2) then s1.finishPacket q x p
    else s1.setQueue q { x with progress := .waitmem s.now }

/-- WAITMEM (R412): its first read. -/
def execWaitmem (queue : Nat) (s : State) : Host.Outcome State Fault Refusal :=
  s.withPacket queue 0x05 fun x p => if x.progress = .none then s.tryWait queue x p else s

/-- WAITMEM_POLL (R412): a read again. -/
def execWaitmemPoll (queue : Nat) (s : State) : Host.Outcome State Fault Refusal :=
  s.withPacket queue 0x05 fun x p => match x.progress with
    | .waitmem _ => s.tryWait queue x p
    | _ => s

/-- WRITEMEM (R411, R412). -/
def execWritemem (queue : Nat) (s : State) : Host.Outcome State Fault Refusal :=
  s.withPacket queue 0x06 fun x p =>
    let n := if bit p.arg 0 then 8 else 4
    match s.pktWrite x.part (p.word 0) n (p.word 1) with
    | (some c, s1) => s1.packetFault queue x p.pos c
    | (none, s1) => s1.finishPacket queue x p

/-- SIGNAL (R411, R412): its write, then the interrupt message. -/
def execSignal (queue : Nat) (s : State) : Host.Outcome State Fault Refusal :=
  s.withPacket queue 0x07 fun x p =>
    let send (s : State) : State := s.setHost { s.host with msix := s.host.msix ++ [bits p.arg 9 0] }
    if !bit p.arg 10 then (send s).finishPacket queue x p
    else match s.pktWrite x.part (p.word 0) 8 (p.word 1) with
      | (some c, s1) => s1.packetFault queue x p.pos c
      | (none, s1) => (send s1).finishPacket queue x p

/-- TIMESTAMP (R412): TBASE at the packet's start. -/
def execTimestamp (queue : Nat) (s : State) : Host.Outcome State Fault Refusal :=
  s.withPacket queue 0x08 fun x p =>
    match s.pktWrite x.part (p.word 0) 8 (x.began.getD s.now) with
    | (some c, s1) => s1.packetFault queue x p.pos c
    | (none, s1) => s1.finishPacket queue x p

/-- FETCHFENCE (R415). -/
def execFetchfence (queue : Nat) (s : State) : Host.Outcome State Fault Refusal :=
  s.withPacket queue 0x09 fun x p => s.finishPacket queue x.dropWindows p

/-- Why a record as it was read cannot be handed over (R301, R316; 17 R413). -/
def State.recordRefused (s : State) (part va : Nat) (gang : Bool) : Option Record → Option Nat
  | none => some causeContinuation
  | some r =>
    if w3Wait r.w3 || w3Killed r.w3 || r.bad va || (gang && w3Join r.w3 ≠ 0) then some causeContinuation
    else if !s.recordRegionOk part (w3Region r.w3) none then some causeRegion
    else none
def State.handFault (s : State) (part va : Nat) (gang : Bool) : Option Nat := s.recordRefused part va gang (s.readRecord part va)

/-- The record of a LAUNCH's parts as the packet names them. -/
def Packet.records (p : Packet) : List Nat := (List.range (p.arg % 16 + 1)).map fun i => p.word (2 + i)

/-- The gang a GANG word names (R411, R413). -/
def fabricOf (w : Nat) : Option Fabric :=
  if w = 0 then none else some { ident := bits w 47 0, modules := bits w 63 54 + 1, ready := [], told := none, failed := none }

/-- The cause of a record address that a queue may not use (R410): records are read, and a waiting one is written (R300). -/
def State.recordFault (s : State) (part va : Nat) : Option Nat := match s.pktFault part va .read with
  | some c => some c
  | none => (match s.readRecord part va with
    | some r => if w3Join r.w3 = 0 then none else s.pktFault part va .write
    | none => none)

/-- The LAUNCH that a packet asks for (R413). -/
def Packet.launch (p : Packet) (q : Nat) (x : Queue) (ident : Nat) : Launch1 :=
  { ident, queue := q, packet := x.addrWord p.pos, part := x.part, report := p.word 0, wait := bit p.arg 4,
    gang := 1 < p.records.length || p.word 1 ≠ 0, parts := p.records.map fun r => { record := r, handed := false, outcome := none } }

/-- Hand the parts of a LAUNCH over, whose records have been read (R413): as tasks, as a gang, or, where a record is faulty, to no
core. -/
def State.handParts (s : State) (l : Launch1) (gang : Nat) (read : List (Nat × Option Record)) : State :=
  let recs := l.parts.map (·.record)
  match read.findSome? fun x => s.recordRefused l.part x.1 l.gang x.2 with
  | some c => recs.foldl (fun s r => s.launchEnd (some l.ident) r outRejected c 0) (s.countLaunch l.part)
  | none =>
    if l.gang then
      let d := s.die
      let g : Gang := { queue := l.queue, launch := l.ident, sent := none, start := none, fabric := fabricOf gang,
                        parts := read.map fun x =>
                          { part := l.part, record := x.1, ready := x.2.map fun r => s.readyOf l.part x.1 r none (some l.ident),
                            cluster := 0, core := none, phase := .idle, kept := none } }
      { s with die := { d with gangs := d.gangs ++ [g] } }
    else read.foldl (fun s x => match x.2 with
      | some r => (s.handOver l.part x.1 r none none (some l.ident) none none).markHanded l.ident 0
      | none => s) (s.countLaunch l.part)

/-- A LAUNCH begins (R413): an address that cannot be used stops the queue (R410); else its records are read, each once (R349), and
its parts are handed over. -/
def State.startLaunch (s : State) (q : Nat) (x : Queue) (p : Packet) : State :=
  match p.records.findSome? fun r => s.recordFault x.part r with
  | some c => s.packetFault q x p.pos c
  | none =>
    let l := p.launch q x s.host.launchNext
    let s1 := s.setHost { s.host with launchNext := l.ident + 1, launches := s.host.launches ++ [l] }
    let s2 := p.records.foldl (fun s va => s.visit x.part va 32) s1
    (s2.setQueue q { x with progress := .launch l.ident }).handParts l (p.word 1) (p.records.map fun va => (va, s.readRecord x.part va))

/-- A LAUNCH in progress has completed (R412). -/
def State.launchDone (s : State) (ident : Nat) : Bool :=
  match s.host.launches.find? fun l => l.ident = ident with
  | none => true
  | some l => l.ended || (!l.wait && l.parts.all fun p => p.handed || p.outcome.isSome)

/-- The packet ends: the table keeps a LAUNCH only while its report is to come. -/
def State.endLaunch (s : State) (ident : Nat) : State :=
  s.setHost { s.host with launches := s.host.launches.filter fun l => !(l.ident = ident && l.ended) }

/-- LAUNCH (R413, R424): at a drain it holds its queue; else it begins, or completes when what it waits for has come. -/
def execLaunch (queue : Nat) (s : State) : Host.Outcome State Fault Refusal :=
  s.withPacket queue 0x01 fun x p =>
    match x.progress with
    | .launch ident => if s.launchDone ident then (s.endLaunch ident).finishPacket queue x p else s
    | _ =>
      match (s.part x.part).state with
      | .draining => s.setQueue queue { x with state := .held, began := none }
      | .drained => s.setQueue queue { x with state := .held, began := none }
      | _ => s.startLaunch queue x p

end Sys2Proof.Machine
end

