-- ==== Sys2Proof/Machine/Proxy.lean ====
section
/-! DEFINITION. The forwarding engine of proxy queues, the target's side of one, and its losses (12 R321, R322; 17 R433). -/

namespace Sys2Proof.Machine

/-- The physical place of a proxy descriptor, which the engine reads and writes: a page that may not be written gives none (R8, R338). -/
def State.proxyPlace (s : State) (part desc : Nat) : Option Nat := (s.vaLook part desc .write).bind fun _ => s.vaLook part desc .read

/-- The forwarding engine has a reason to send (R322). -/
def State.proxySends (s : State) (x : Proxy) (d : ProxyDesc) : Bool :=
  !x.stopped && (match x.pushed with
    | [] => false
    | t :: _ => d.batch ≤ x.pushed.length || x.flush.isSome || t + d.timeout * 1000 * timeUnit ≤ s.time)

/-- Entry `k` of a shadow ring as the engine reads it: OP and record; one that cannot be read is a SPAWN of address 0, which the target
turns away (R321; notes/assumptions/47). -/
def State.shadowEntry (s : State) (part : Nat) (d : ProxyDesc) (k : Nat) : (Nat × Nat) × State :=
  match s.vaLook part (d.shadow + 16 * (k % d.slots)) .read with
  | none => ((0, 0), s)
  | some pa => ((bits (s.peek pa 8) 48 48, bits (s.peek pa 8) 47 0), (s.walked part (d.shadow + 16 * (k % d.slots)) .read).noteRead pa 16)

/-- The next `n` entries from position `k` up. -/
def State.shadowEntries (s : State) (part : Nat) (d : ProxyDesc) (k : Nat) : Nat → List (Nat × Nat) × State
  | 0 => ([], s)
  | n + 1 =>
    let r := s.shadowEntry part d k
    let q := r.2.shadowEntries part d (k + 1) n
    (r.1 :: q.1, q.2)

/-- Send a batch in one fabric write: its entries are read at SHADOW, TAIL advances and they wait for their acceptance (R322). -/
def State.forward (s : State) (part desc : Nat) : State :=
  match s.proxyPlace part desc with
  | none => s
  | some pa =>
    let x := s.proxyOf part desc
    let d := s.proxyDesc pa
    if !s.proxySends x d then s
    else
      let n := min d.batch x.pushed.length
      let rest := x.pushed.drop n
      let tail := s.peek (pa + 0x20) 8
      let (es, s1) := (s.visit part desc 64).shadowEntries part d tail n
      (s1.diePut (pa + 0x20) 8 ((tail + n) % 2 ^ 64)).setProxy
        { x with pushed := rest, sent := x.sent ++ List.replicate n s.time, batch := es }

/-- PROXY_FORWARD (R322). -/
def execProxyForward (part desc : Nat) (s : State) : Host.Outcome State Fault Refusal :=
  if part < 8 then .next (s.forward part desc) else .refused .noSuchPlace

/-- The target's word that it has accepted entries (R322): ACCEPTED advances, and where it has reached the HEAD of a PXFLUSH that one is pending no more. -/
def State.proxyAccepted (s : State) (part desc n : Nat) : State :=
  match s.proxyPlace part desc with
  | none => s
  | some pa =>
    let x := s.proxyOf part desc
    let n := min n x.sent.length
    let s1 := (s.walked part desc .write).diePut (pa + 0x28) 8 ((s.peek (pa + 0x28) 8 + n) % 2 ^ 64)
    s1.setProxy { x with sent := x.sent.drop n, flush := x.flush.filter fun h => !s1.flushed pa h }

/-- The clusters of a partition (R351). -/
def State.clustersOf (s : State) (p : Nat) : List Nat := (List.range 16).filter (s.part p).clusters.getLsbD

/-- The partition of a cluster. -/
def State.partOfCluster (s : State) (c : Nat) : Option Nat := (List.range 8).find? fun p => (s.part p).clusters.getLsbD c

/-- An entry the target finds bad is logged there (R322; the spec leaves the form open, notes/assumptions/47). -/
def State.proxyRefuse (s : State) (part cause record : Nat) : State := s.logFault scopeTask cause (some part) noQueue 0 record 0

/-- One received entry, as SPAWN or SIGJ of a record here (R322). -/
def State.acceptEntry (s : State) (cluster part op record : Nat) : State :=
  let read := s.readRecord part record
  let s := s.visit part record 32
  match read with
  | none => s.proxyRefuse part causeContinuation record
  | some r =>
    if op = 0 then
      if w3Wait r.w3 || w3Killed r.w3 || r.bad record then s.proxyRefuse part causeContinuation record
      else if !s.recordRegionOk part (w3Region r.w3) none then s.proxyRefuse part causeRegion record
      else s.handOver part record r none none none (some cluster) (some cluster)
    else if record % 64 ≠ 0 then s.proxyRefuse part causeContinuation record
    else if w3Killed r.w3 then s
    else if !w3Jr r.w3 || !w3Wait r.w3 then s.proxyRefuse part causeJoin record
    else
      let q := s.report { part, record := 0, region := w3Region r.w3, succ := record, how := .completed, cause := 0, reason := 0,
                          launch := none, cluster := some cluster, addr := 0, hostCause := 0 }
      q.1.settle q.2

/-- Received entries are performed in push order (R322). -/
def State.acceptEntries (s : State) (cluster : Nat) (es : List (Nat × Nat)) : State :=
  match s.partOfCluster cluster with
  | none => es.foldl (fun s e => s.proxyRefuse 0 causeProxy e.2) s
  | some p => es.foldl (fun s e => s.acceptEntry cluster p e.1 e.2) s

/-- PROXY_ACCEPT (R322). -/
def execProxyAccept (cluster : Nat) (entries : List (Nat × Nat)) (s : State) : Host.Outcome State Fault Refusal :=
  if cluster < 16 then .next (s.acceptEntries cluster entries) else .refused .noSuchPlace

/-- A proxy queue stops at its first entry that is not accepted (17 R423, R433). -/
def State.stopProxy (s : State) (part desc : Nat) : State :=
  let x := s.proxyOf part desc
  let s1 := match s.proxyPlace part desc with
    | some pa => s.diePut (pa + 0x30) 8 (2 ^ 63 + s.peek (pa + 0x28) 8 % 2 ^ 48)
    | none => s
  s1.setProxy { x with stopped := true, pushed := [], sent := [], batch := [], flush := none }

/-- The oldest entry sent has not been accepted for 10 ms (17 R433). -/
def State.proxyLost (s : State) (x : Proxy) : Bool :=
  !x.stopped && (match x.sent with
    | t :: _ => t + 10000000 * timeUnit ≤ s.time
    | [] => false)

def State.loseProxy (s : State) (part desc : Nat) : State :=
  if s.proxyLost (s.proxyOf part desc) then (s.stopProxy part desc).logFault scopePart causeLink (some part) noQueue 0 desc 0 else s

/-- PROXY_LOSS (17 R433). -/
def execProxyLoss (part desc : Nat) (s : State) : Host.Outcome State Fault Refusal :=
  if part < 8 then .next (s.loseProxy part desc) else .refused .noSuchPlace

end Sys2Proof.Machine
end

