-- ==== Sys2Proof/Machine/RetrLayout.lean ====
section
/-! DEFINITION. The bytes of what an index holds in flash and in the device-managed area of LPDDR-6 (15 R373, R374, R376, R386). The
spec gives the area no address: it begins at an open one (notes/assumptions/30). -/

namespace Sys2Proof.Machine

/-- Bytes filled up with zeros to a length. -/
def padTo (n : Nat) (bs : List Byte) : List Byte := bs ++ List.replicate (n - bs.length) 0

/-- A page header: the pocket, the records in the page, FROM (R374). -/
def pageHeader (number records fromGen : Nat) : List Byte := padTo 64 (natBytes 4 number ++ natBytes 2 records ++ natBytes 2 0 ++ natBytes 8 fromGen)

/-- A record of a pocket page or of the hem log (R374, R376). -/
def Index.recordBytes (x : Index) (id w1 : Nat) (vec : List Byte) : List Byte :=
  padTo x.recBytes (natBytes 8 id ++ natBytes 8 w1 ++ padTo x.vbytes vec)

/-- A pocket page (R374). -/
def Index.pageBytes (x : Index) (p : Pocket) (g : PocketPage) : List Byte :=
  padTo 16384 (pageHeader p.number g.members.length g.fromGen ++ g.members.flatMap fun m => x.recordBytes m.id m.gen m.vec)

/-- A committed entry of the hem log (R376). -/
def Index.entryBytes (x : Index) (e : HemEntry) (gen : Nat) : List Byte := match e.vec with
  | some v => x.recordBytes e.id gen v
  | none => x.recordBytes e.id (2 ^ 63 + gen) []

/-- A page of the hem log: the entries that have committed (R376, R380). -/
def Index.logBytes (x : Index) (page : Nat) : List Byte :=
  let es := x.log.filterMap fun e => if x.logPage e = page then e.gen.map fun g => (e, g) else none
  padTo 16384 (pageHeader 0xFFFF_FFFE es.length 0 ++ es.flatMap fun e => x.entryBytes e.1 e.2)

/-- A child of a node (R373). -/
def TreeChild.bytes (c : TreeChild) : List Byte :=
  natBytes 8 (c.number % 2 ^ 32 + if c.pocket then 2 ^ 63 else 0) ++ natBytes 12 c.radsq ++ natBytes 12 0

/-- An interior node (R373). -/
def Index.nodeBytes (x : Index) (n : TreeNode) : List Byte :=
  padTo x.nodeSize
    (padTo 0x840 (natBytes 4 n.number ++ natBytes 1 n.children.length ++ natBytes 1 n.level ++ natBytes 2 0 ++ natBytes 8 n.fromGen ++
        natBytes 48 0 ++ n.children.flatMap TreeChild.bytes) ++
      n.children.flatMap fun c => padTo x.vbytes c.centre)

/-- A pocket header (R374). -/
def Index.headerBytes (x : Index) (p : Pocket) : List Byte :=
  natBytes 4 p.number ++ natBytes 4 (p.pages.map fun g => g.members.length).sum ++ natBytes 8 p.fromGen ++ natBytes 12 p.radsq ++
    natBytes 4 p.pages.length ++ padTo 64 (p.seams.flatMap fun s => natBytes 4 s) ++ natBytes 160 0 ++
    padTo 1024 (p.pages.flatMap fun g => natBytes 4 g.fpn) ++ padTo x.vbytes p.centre

/-- What the device-managed area holds of an index: the nodes and headers of its live versions, by place (R373 to R375). -/
def Version.areaBytes (v : Version) (x : Index) : List (Nat × List Byte) :=
  v.nodes.map (fun n => (n.place, x.nodeBytes n)) ++ v.pockets.map fun p => (p.place, x.headerBytes p)
def Index.areaBytes (x : Index) : List (Nat × List Byte) := x.versions.flatMap fun v => v.areaBytes x

/-- Take bytes of the device-managed area: the place of the first. -/
def State.takeArea (s : State) (n : Nat) : Nat × State :=
  (128 * Config.retrArea + s.retr.areaNext, s.setRetr { s.retr with areaNext := s.retr.areaNext + n })

/-- The controllers write copies to LPDDR-6, none past its end (R362, R373, R374). -/
def State.putCopies (s : State) (cs : List (Nat × List Byte)) : State :=
  cs.foldl (fun s c => if c.1 + c.2.length ≤ lpddrEnd then (s.dieWrite (dieBytes c.1 c.2)).1 else s) s

/-- The copies of the nodes and headers that a version wrote; one written before stands where it does (R373 to R375). -/
def State.keepCopies (s : State) (x : Index) (v : Version) : State :=
  s.putCopies (v.nodes.map (fun n => (n.place, x.nodeBytes n)) ++
    (v.pockets.filter fun p => p.fromGen = v.fromGen).map fun p => (p.place, x.headerBytes p))

/-- After LPDDR-6 has lost its contents, the copies of every index are made again from flash (R373, R374, R439). -/
def State.remakeCopies (s : State) : State :=
  s.putCopies (s.retr.indexes.flatMap fun p => p.2.areaBytes)

/-- Flash pages of a list of bytes, by number (R373, R386). -/
def pagesOf (fpns : List Nat) (bs : List Byte) : List (Nat × List Byte) :=
  fpns.zipIdx.map fun p => (p.1, padTo 16384 ((bs.drop (16384 * p.2)).take 16384))

/-- The flash pages an index holds, with their bytes (R363, R373, R374, R376, R386). -/
def Index.flash (x : Index) : List (Nat × List Byte) :=
  x.logFpns.map (fun p => (p.2, x.logBytes p.1)) ++
  (x.versions.flatMap fun v => (v.pockets.flatMap fun p => p.pages.map fun g => (g.fpn, x.pageBytes p g)) ++
    v.nodes.flatMap fun n => pagesOf n.fpns (x.nodeBytes n)) ++
  x.objects.flatMap fun o => pagesOf o.fpns (o.contents.getD [])

end Sys2Proof.Machine
end

