-- ==== Sys2Proof/Machine/Resets.lean ====
section
/-! DEFINITION. Queue watchdogs, partition resets, drains, and the steps of the reset ladder that clear the module
(17 R380, R421 to R424, R429, R437, R439, R441 to R444). -/

namespace Sys2Proof.Machine

/-- The ring level of a queue at a position (R409). -/
def ringLevel (host : Bool) (pos : Nat) : Level :=
  { kind := .ring, host, start := 0, stop := 0, pos, passes := 0, window := none }

/-- The queue at a ring position, with no packet in progress and no window. -/
def Queue.restart (x : Queue) (pos : Nat) : Queue :=
  { x with rptr := pos, levels := [ringLevel x.host pos], windows := [], skip := 0, began := none, progress := .none, current := none }

/-- A packet of the queue is in progress, or would be next. -/
def Queue.working (x : Queue) : Bool := x.state = .running || x.state = .waiting || x.state = .mitten

/-- The ring position past the ring's packet in progress (R423): a buffer or loop has moved it already. -/
def Queue.pastPacket (x : Queue) : Nat :=
  if 1 < x.levels.length then (x.levels.getLast?.map (·.pos)).getD x.rptr
  else match x.doing with
    | some p => x.after p.pos (8 * p.len)
    | none => x.top.pos

/-- A LAUNCH whose packet is cut short (R413, R423, R441): its report is ABANDONED where parts have not been handed over, else it
comes when they have ended. With `whole`, a gang that has begun to commit counts as not handed over until its last part is. -/
def State.cutLaunch (s : State) (ident cause : Nat) (whole : Bool) : State :=
  match s.host.launches.find? fun l => l.ident = ident with
  | none => s
  | some l =>
    let begun := (s.gang ident).any fun g => g.start.isSome
    let handed := (l.parts.all fun p => p.handed || p.outcome.isSome) || (begun && !whole)
    let s1 := s.setHost { s.host with launches := s.host.launches.map fun x => if x.ident = ident then { x with wait := false } else x }
    let s2 := if handed then s1
      else match s1.gang ident with
        | some g => s1.abortGang g cause
        | none => l.parts.foldl (fun (s : State) (x : LaunchPart) => s.launchEnd (some ident) x.record outAbandoned cause 0) s1
    s2.endLaunch ident

/-- A queue abandons its packet in progress and stops (R423, R431). A queue with none only stops. -/
def State.abandonQueue (s : State) (q : Nat) (x : Queue) (cause : Nat) (whole : Bool) : State :=
  let s1 := match x.progress with
    | .launch ident => s.cutLaunch ident cause whole
    | _ => s
  let addr := x.addrWord x.top.pos
  let y := if x.working then { x.restart x.pastPacket with lastCause := cause, lastGrade := gradeOf cause } else x.restart x.rptr
  let s2 := s1.setQueue q { y with state := .stopped }
  if x.state = .stopped || x.state = .faulted then s2 else s2.logFault scopeQueue cause (some x.part) q 0 addr 0

/-- STATE of a partition, with the time of the change (R429, R442). -/
def State.setPartState (s : State) (p : Nat) (st : PartState) : State :=
  let s1 := s.setPart p { s.part p with state := st }
  s1.setPstat p { s1.pstat p with tbase := s1.now }

/-- Queues of a partition. -/
def State.queuesOf (s : State) (p : Nat) : List (Nat × Queue) := s.host.queues.filter fun x => x.2.part = p

/-- A partition whose STATE lets a reset begin (R422, R423, R429). -/
def PartState.resettable : PartState → Bool
  | .active => true
  | .draining => true
  | .drained => true
  | _ => false

/-- Step 1 of a partition reset (R423); `expired` are the queues whose Gauntlet expired (R422). -/
def State.beginReset (s : State) (p : Nat) (expired : List Nat) : State :=
  let st := (s.part p).state
  if !st.resettable then s
  else
    let s1 := s.setPartState p .resetting
    let marks := expired.map fun q => (q, ((s1.queueOf q).map fun x => x.addrWord x.top.pos).getD 0)
    let s2 := s1.setPstat p { s1.pstat p with resetAt := some s1.now, expired := marks, draining := st ≠ .active, emptied := false }
    (s2.queuesOf p).foldl (fun s x =>
      if x.2.state = .idle then s
      else s.abandonQueue x.1 x.2 (if expired.contains x.1 then causeWatchdog else causePartReset) true) s2

/-- Proxy queues fed by the partition stop, and their unsent entries are recorded (R423). -/
def State.resetProxies (s : State) (p : Nat) : State :=
  (s.die.proxies.filter fun x => x.part = p && !x.stopped).foldl (fun s x =>
    if x.pushed.isEmpty then s.setProxy { x with stopped := true, flush := none }
    else
      let s1 := match s.proxyPlace p x.desc with
        | some pa => s.diePut (pa + 0x30) 8 (2 ^ 63 + s.peek (pa + 0x20) 8 % 2 ^ 48)
        | none => s
      (s1.setProxy { x with stopped := true, pushed := [], flush := none }).logFault scopePart causePartReset (some p) noQueue 0 x.desc 0) s

/-- A core emptied by a reset (R423 step 3): the pages of its scratchpad are zero, so that none counts as never held. -/
def Core.emptied (p : Nat) (c : Core) : Core :=
  { Core.reset with
    spOwner := (List.range 512).map fun i => (i, (8, 0))
    icache := c.icache
    tlb := c.tlb.filter fun t => t.asn ≠ p }

/-- Step 3 of a partition reset (R423). -/
def State.emptyCores (s : State) (p : Nat) : State :=
  let m := (s.part p).clusters
  let d := s.die
  { s with
    cores := Vector.ofFn fun (n : Fin 128) => if m.getLsbD (clusterOf n.val) then (s.core n.val).emptied p else s.core n.val
    die := { d with clusters := d.clusters.map fun k => { k with tlb := k.tlb.filter fun t => t.asn ≠ p } } }

/-- A root region after a reset (R423 step 4). -/
def State.idleRoot (s : State) (p i : Nat) : State :=
  ([fUsectx, fUseplies, fUsespad, fUsemem, fLive].foldl (fun s f => s.rgnSetField p i f 0) s).rgnSetField p i fState stIdle

/-- What the partition's running contexts have in flight is carried, as at any kill (R267, R320). -/
def State.carryPart (s : State) (p : Nat) : State :=
  (List.range 128).foldl (fun s n =>
    if (s.runCtx n).task.any fun t => t.part = p && !t.gated then s.onCore n fun s => s.landDue.carry else s) s

/-- Steps 2 to 4 of a partition reset (R423, R441). -/
def State.emptyPart (s : State) (p : Nat) : State :=
  if (s.part p).state ≠ .resetting || (s.pstat p).emptied then s
  else
    let roots := (s.rgnAll p).filter fun i => s.rgnGet p i fParent = 0xFFFF
    let ws := roots.map fun i => Work.kill p i false none
    let s1 := State.settleWith causePartReset true (s.settleFuel ws) ws (s.carryPart p)
    let s2 := (s1.resetProxies p).emptyCores p
    let s3 := ((s2.rgnAll p).filter fun i => !roots.contains i).foldl (fun s i => s.rgnFree p i) s2
    let s4 := roots.foldl (fun s i => s.idleRoot p i) s3
    s4.setPstat p { s4.pstat p with emptied := true }

/-- A reset has not completed within 10 ms (R429). -/
def State.resetIsLate (s : State) (p : Nat) : Bool :=
  (s.part p).state = .resetting && (s.pstat p).resetAt.any fun t => t + 10000000 ≤ s.now

/-- Step 5 of a partition reset (R423); one that is late does not complete (R429). -/
def State.finishReset (s : State) (p : Nat) : State :=
  let x := s.pstat p
  if (s.part p).state ≠ .resetting || !x.emptied || s.resetIsLate p then s
  else
    let (q, addr) := x.expired.headD (noQueue, 0)
    let cause := if x.expired.isEmpty then causePartReset else causeWatchdog
    let s1 := (s.setPartState p (if x.draining then .draining else .active)).logFault scopePart cause (some p) q 0 addr 0
    let y := s1.pstat p
    let s2 := s1.setPstat p { y with resets := y.resets + 1, resetAt := none, expired := [], draining := false, emptied := false }
    s2.setHost { s2.host with resets := s2.host.resets + 1, ladder := 2 }

/-- Step 5 comes when the emptying is done; how long that takes the spec leaves open within 10 ms: the example of 18 takes 48 µs
(notes/assumptions/74). -/
def State.resetSpent (s : State) (p : Nat) : Bool := (s.pstat p).resetAt.any fun t => t + 48000 ≤ s.now

/-- The Gauntlet of a queue has expired (R422). -/
def State.expired (s : State) (x : Queue) : Bool :=
  x.working && x.gauntlet ≠ 0 && (x.began.any fun t => t + 1000 * x.gauntlet ≤ s.now)

/-- A queue whose Gauntlet has expired resets its partition, with every queue of it that has expired (R422). -/
def State.gauntlet (s : State) (q : Nat) : State :=
  match s.queueOf q with
  | none => s
  | some x => if s.expired x then s.beginReset x.part (((s.queuesOf x.part).filter fun y => s.expired y.2).map (·.1)) else s

/-- GAUNTLET_EXPIRY (R422). -/
def execGauntletExpiry (queue : Nat) (s : State) : Host.Outcome State Fault Refusal :=
  if 1024 ≤ queue then .refused .noSuchPlace else .next (s.gauntlet queue)

/-- PRESET (R404, R423): the partitions whose bits are set. -/
def State.presetParts (s : State) (v : Nat) : State :=
  (List.range 8).foldl (fun s p => if bit v p then s.beginReset p [] else s) s
def execPreset (value : Nat) (s : State) : Host.Outcome State Fault Refusal := .next (s.presetParts value)

/-- A reset that has not completed within 10 ms fails (R429). -/
def State.resetLate (s : State) (p : Nat) : State := if s.resetIsLate p then s.setPartState p .failed else s

/-- RESET_TIMEOUT (R429). -/
def execResetTimeout (part : Nat) (s : State) : Host.Outcome State Fault Refusal :=
  if 8 ≤ part then .refused .noSuchPlace else .next (s.resetLate part)

/-- LIVE tasks of a partition (R429): those of its root regions, which cover their descendants (R304). -/
def State.liveTasks (s : State) (p : Nat) : Nat :=
  (((s.rgnAll p).filter fun i => s.rgnGet p i fParent = 0xFFFF).map fun i => s.rgnGet p i fLive).sum

/-- A draining partition has nothing left (R424). -/
def State.isDrained (s : State) (p : Nat) : Bool :=
  (s.part p).state = .draining && s.liveTasks p = 0 && !(s.retr.cmds.any fun c => c.part = p) &&
    !(s.die.proxies.any fun x => x.part = p && !(x.pushed.isEmpty && x.sent.isEmpty)) && (s.queuesOf p).all fun x => !x.2.working

/-- PARTITION_DRAINED (R424). -/
def State.drained (s : State) (p : Nat) : State := if s.isDrained p then s.setPartState p .drained else s
def execPartitionDrained (part : Nat) (s : State) : Host.Outcome State Fault Refusal :=
  if 8 ≤ part then .refused .noSuchPlace else .next (s.drained part)

/-- Commands and their reads are gone; an index keeps what it holds, and a pass in progress its reads (R421 step 3). -/
def Retr.dropCommands (r : Retr) : Retr :=
  { r with
    cmds := [], decoded := [], batches := [], buffered := []
    reads := r.reads.filter fun x => x.kind = .darn
    indexes := r.indexes.map fun p => (p.1, { p.2 with asked := [], pass := p.2.pass.map fun d => { d with cmds := [] } }) }

/-- What flash keeps of an index (R380, R421 step 4): committed appends, objects and G; counters and passes are not in it. -/
def Index.persist (x : Index) : Index :=
  { x with
    log := x.log.filter fun e => e.gen.isSome
    counters := Vector.replicate 13 0
    pass := none, asked := [], paused := false, resize := none }

/-- The retrieval system as flash restores it (R380, R439); an index being destroyed is gone. -/
def Retr.persist (r : Retr) : Retr :=
  { Retr.reset with
    indexes := (r.indexes.filter fun p => !p.2.dying).map fun p => (p.1, p.2.persist)
    uidNext := r.uidNext
    pageNext := r.pageNext
    areaNext := r.areaNext }

/-- The die with every partition, queue and gang gone; LPDDR-6, its cache and the slice counters stay (R421 step 3). -/
def Die.dropParts (d : Die) : Die :=
  { Die.reset with mem := d.mem, poison := d.poison, llc := d.llc, llcAge := d.llcAge, counters := d.counters, clears := d.clears, ovfNow := d.ovfNow, eccLlcC := d.eccLlcC, eccLlcU := d.eccLlcU,
                   eccMemC := d.eccMemC, eccMemU := d.eccMemU, tlbSeq := d.tlbSeq,
                   clusters := d.clusters.map fun k => { Cluster.reset with retired := k.retired } }

/-- The queues whose work a step 3 or 4 of R421 ends stop with DEVICE-RESET, logged while the mirror still stands (R425, R430).
Its place before the clearing is the model's (notes/assumptions/123). -/
def State.deviceReset (s : State) : State := s.host.queues.foldl (fun s q =>
  if q.2.working then s.stopQueue q.1 .stopped causeDeviceReset (q.2.addrWord q.2.top.pos) else s) s

/-- Step 3 of R421: a function-level reset; the Crown boots again. -/
def State.flr (s : State) : State :=
  let s := s.deviceReset
  let h := s.host
  { s with
    cores := Vector.replicate 128 Core.reset
    die := s.die.dropParts
    retr := s.retr.dropCommands
    focus := 0
    host := { h with windows := [], mirrorBase := 0, mgmtBase := 0, mgmtAccepted := 0, mgmtDone := 0, queues := [], launches := [],
                     pstats := Host1.reset.pstats, crown := 0, mitten := false, bootStage := 0, ladder := 3 } }

/-- FUNCTION_LEVEL_RESET (R421). -/
def execFunctionLevelReset (s : State) : Host.Outcome State Fault Refusal := .next s.flr

/-- Step 4 of R421: all but what flash, the fuses and the host hold; flash keeps the images of the last load, so that one the boot ROM
refuses leaves the previous one (R437). `ladder` is the step performed. -/
def State.moduleReset (s : State) (ladder : Nat) : State :=
  let h := s.host
  { State.reset with
    host := { Host1.reset with mem := h.mem, msix := h.msix, replies := h.replies, fuses := h.fuses, images := h.images, stored := h.stored, ladder }
    retr := s.retr.persist
    agenda := s.agenda
    freeCount := s.freeCount }

/-- PERST (R421). -/
def execPerst (s : State) : Host.Outcome State Fault Refusal := .next (s.deviceReset.moduleReset 4)

/-- MODRESET (R404, R421): the value 0x4D52, else nothing. -/
def execModreset (value : Nat) (s : State) : Host.Outcome State Fault Refusal :=
  .next (if value % 2 ^ 64 = 0x4D52 then s.deviceReset.moduleReset 4 else s)

/-- POWER_LOSS (R380): as a module reset, which is no step of the ladder here. -/
def execPowerLoss (s : State) : Host.Outcome State Fault Refusal := .next (s.moduleReset 0)

/-- An error logged with cause HW-ERROR (R425, R430). -/
def State.hwError (s : State) (scope ident : Nat) : State := s.logFault (scope % 5) causeHw none noQueue 0 ident 0

/-- HW_ERROR (R425). -/
def execHwError (scope ident : Nat) (s : State) : Host.Outcome State Fault Refusal := .next (s.hwError scope ident)

/-- COOLANT_FLOW_FAILS (R439): the entry is written while the mirror still stands. -/
def execCoolantFlowFails (s : State) : Host.Outcome State Fault Refusal := .next ((s.hwError scopeModule 0).deviceReset.moduleReset 4)

/-- Clock steps of a die temperature (R439). -/
def clockSteps (celsius : Int) : Nat := min 7 ((celsius - 95).toNat / 2)

/-- THROTTLE (R439): the die's temperature. -/
def execThrottle (celsius : Int) (s : State) : Host.Outcome State Fault Refusal :=
  let s1 := s.setHost { s.host with tempDie := 8 * celsius, throttle := clockSteps celsius }
  .next (if 105 ≤ celsius then (s1.hwError scopeModule 0).deviceReset.moduleReset 4 else s1)

/-- The boot ROM takes an image: signed under a key that stands, at or above the minimum version (R437). -/
def Fuses.accepts (f : Fuses) (image : List Byte) : Bool :=
  f.minSvn ≤ Config.imageVersion image && (List.range 4).any fun i =>
    let k := vget [] f.keys i
    !k.isEmpty && !f.revoked.getLsbD i && Config.imageSigned k image

/-- Load one stored image, or keep the one that runs (R437). -/
def Host1.loadImage (h : Host1) (x : Image) : Host1 :=
  if h.fuses.accepts x.bytes then
    { h with images := x :: h.images.filter fun y => y.agent ≠ x.agent, fuses := { h.fuses with minSvn := max h.fuses.minSvn x.svn } }
  else h

/-- Load the stored firmware (R437). -/
def Host1.loadFirmware (h : Host1) : Host1 := h.stored.foldl Host1.loadImage h

/-- A link starts to train (R439 step 2). -/
def Link.trained (l : Link) : Link := if l.state = .down then { l with state := .training } else l

/-- POWER_GOOD (R439): the boot ROM's steps, then CROWN 1. After step 3 of R421 the Crown comes back by CROWN_RETURN. -/
def State.powerUp (s : State) : State :=
  if s.host.crown ≠ 0 || s.host.ladder = 3 then s
  else
    let h := s.host.loadFirmware
    { s with
      retr := s.retr.persist
      host := { h with links := h.links.map Link.trained, crown := 1, mitten := false, bootStage := 0xFF, lastBeat := s.now } }.remakeCopies
def execPowerGood (s : State) : Host.Outcome State Fault Refusal := .next s.powerUp

end Sys2Proof.Machine
end

