-- ==== Sys2Proof/Machine/Crown.lean ====
section
/-! DEFINITION. The Crown and the Mitten, the status mirror, the BAR0 registers and the BAR2 aperture, and device links
(17 R403 to R405, R409, R418 to R420, R427 to R429, R432, R433, R437, R443). -/

namespace Sys2Proof.Machine

/-- The Crown serves (R418, R420). -/
def Host1.crownServes (h : Host1) : Bool := h.crown = 1 && !h.mitten

/-- A millisecond has passed since the last beat, within a tenth (R418, R420). -/
def State.beatDue (s : State) : Bool := s.host.lastBeat + 900000 ≤ s.now

/-- A beat counter in the mirror (R427). -/
def State.showBeat (s : State) (off v : Nat) : State := if s.host.mirrorOn then s.hostPut (s.host.mirrorAt off) 8 v else s

/-- The Crown's beat (R418). -/
def State.crownBeat (s : State) : State :=
  let h := s.host
  if h.crownServes && s.beatDue then
    (s.setHost { h with heartbeat := (h.heartbeat + 1) % 2 ^ 64, lastBeat := s.now }).showBeat 0x010 ((h.heartbeat + 1) % 2 ^ 64)
  else s

/-- HEARTBEAT (R418). -/
def execHeartbeat (s : State) : Host.Outcome State Fault Refusal := .next s.crownBeat

/-- The Mitten's beat (R420). -/
def State.mittenBeat (s : State) : State :=
  let h := s.host
  if h.mitten && s.beatDue then
    (s.setHost { h with mittenbeat := (h.mittenbeat + 1) % 2 ^ 64, lastBeat := s.now }).showBeat 0x018 ((h.mittenbeat + 1) % 2 ^ 64)
  else s

/-- MITTENBEAT (R420). -/
def execMittenbeat (s : State) : Host.Outcome State Fault Refusal := .next s.mittenBeat

/-- Every window of every queue is discarded (R419, R420). -/
def Host1.dropWindows (h : Host1) : Host1 := { h with queues := h.queues.map fun p => (p.1, p.2.dropWindows) }

/-- The Mitten takes over (R420). -/
def Host1.toMitten (h : Host1) (now : Nat) : Host1 := { h.dropWindows with mitten := true, lastBeat := now }

/-- MITTEN_TAKEOVER (R420): the Crown has missed its watchdog for 2 ms. -/
def State.mittenTakeover (s : State) : State :=
  if s.host.crownServes && s.host.lastBeat + 2000000 ≤ s.now then s.setHost (s.host.toMitten s.now) else s
def execMittenTakeover (s : State) : Host.Outcome State Fault Refusal := .next s.mittenTakeover

/-- REBOOT (R404, R420, R421 step 1): CROWNCTL bit 0 asks for a reboot of a Crown that has booted. -/
def State.reboot (s : State) (v : Nat) : State :=
  if bit v 0 && s.host.crown = 1 then s.setHost { s.host.toMitten s.now with crown := 2, bootStage := 0, ladder := 1 } else s
def execReboot (value : Nat) (s : State) : Host.Outcome State Fault Refusal := .next (s.reboot value)

/-- A queue that the Mitten held goes on (R420). -/
def Queue.unheld (x : Queue) : Queue := if x.state = .mitten then { x with state := .running } else x

/-- The Crown is back (R419, R420; R437 for one that has booted): after a reboot, a function-level reset, or a hang. -/
def State.crownBack (s : State) : State :=
  let h := s.host
  if h.crown = 2 || (h.crown = 1 && h.mitten) || (h.crown = 0 && h.ladder = 3) then
    let h1 := if h.crown = 1 then h else h.loadFirmware
    s.setHost { h1.dropWindows with
      queues := h1.dropWindows.queues.map fun p => (p.1, p.2.unheld)
      crown := 1, mitten := false, bootStage := 0xFF, lastBeat := s.now }
  else s

/-- CROWN_RETURN (R419). -/
def execCrownReturn (s : State) : Host.Outcome State Fault Refusal := .next s.crownBack

/-- Codes of a partition's STATE (R429). -/
def PartState.code : PartState → Nat
  | .unconfigured => 0
  | .active => 1
  | .draining => 2
  | .drained => 3
  | .resetting => 4
  | .failed => 5

/-- Codes of a queue's STATE (R429). -/
def QState.code : QState → Nat
  | .idle => 1
  | .running => 2
  | .waiting => 3
  | .held => 4
  | .stopped => 5
  | .faulted => 6
  | .mitten => 7

/-- Codes of a link's state (R428). -/
def LinkState.code : LinkState → Nat
  | .down => 0
  | .training => 1
  | .up => 2
  | .failed => 3

/-- Security version of the firmware that runs (R428): the Crown's image, agent 0. -/
def Host1.fwsvn (h : Host1) : Nat := ((h.images.find? fun x => x.agent = 0).map (·.svn)).getD 0

/-- A word of the mirror with a bit for each of a list's numbers. -/
def bitmapOf (l : List Nat) : Nat := l.foldl (fun v i => if bit v i then v else v + 2 ^ i) 0

/-- A signed number of some bytes. -/
def signedBytes (n : Nat) (v : Int) : List Byte := natBytes n (v % (2 ^ (8 * n) : Int)).toNat

/-- Header, topology and health fields from 0x020 to 0x1FF (R428). -/
def State.mirrorHead (s : State) : List Byte :=
  let h := s.host
  natBytes 8 s.now ++ natBytes 1 h.crown ++ natBytes 1 h.ladder ++ natBytes 2 h.fwsvn ++ natBytes 4 h.resets ++ natBytes 16 0 ++
    (h.links.toList.flatMap fun l => natBytes 8 (l.peer * 2 ^ 50 + l.state.code * 2 ^ 48 + l.retries)) ++
    natBytes 8 (((List.range 16).map fun c => (s.partOfCluster c).getD 15 * 16 ^ c).sum) ++ natBytes 56 0 ++
    signedBytes 2 h.tempDie ++ signedBytes 2 h.tempMem ++ signedBytes 2 h.tempFlash ++ natBytes 2 h.power ++ natBytes 1 h.throttle ++ natBytes 1 0 ++
    natBytes 2 (bitmapOf ((List.range 16).filter fun c => (s.cluster c).retired)) ++ natBytes 4 0 ++
    natBytes 8 s.die.eccLlcC ++ natBytes 8 s.die.eccLlcU ++ natBytes 8 s.die.eccMemC ++ natBytes 8 s.die.eccMemU ++
    natBytes 8 h.mediaFails ++ natBytes 8 h.retiredBlocks ++ natBytes 32 (bitmapOf h.retiredDies) ++ natBytes 160 0

/-- A partition's 64 bytes (R429). -/
def State.mirrorPart (s : State) (p : Nat) : List Byte :=
  let x := s.pstat p
  natBytes 1 (s.part p).state.code ++ natBytes 1 0 ++ natBytes 2 (s.part p).clusters.toNat ++ natBytes 4 (s.liveTasks p) ++
    natBytes 8 x.launches ++ natBytes 8 x.faults ++ natBytes 4 x.resets ++ natBytes 4 (s.queuesOf p).length ++ natBytes 8 x.tbase ++
    natBytes 1 x.lastCause ++ natBytes 1 x.lastGrade ++ natBytes 22 0

/-- A queue's 16 bytes (R429); zero for one that is absent. -/
def State.mirrorQueue (s : State) (q : Nat) : List Byte :=
  match s.queueOf q with
  | none => natBytes 16 0
  | some x =>
    natBytes 8 (x.rptr * 2 ^ 32 + (if x.mapped then 2048 else 0) + x.part * 256 + x.state.code) ++
      natBytes 8 (x.completed * 2 ^ 32 + x.lastGrade * 256 + x.lastCause)

/-- Bytes of host memory. -/
def State.hostBytes (s : State) (a : Nat) (bs : List Byte) : State := s.setHost { s.host with mem := s.host.mem.store a bs }

/-- Write the beats and the fault log, which stand outside SEQ's protocol (R427, R429). -/
def State.writeBeats (s : State) : State :=
  let at' := s.host.mirrorAt
  let s1 := s.hostBytes (at' 0x010) (natBytes 8 s.host.heartbeat ++ natBytes 8 s.host.mittenbeat)
  let s2 := s.host.log.foldl (fun s e => s.hostBytes (at' (0x5040 + 32 * e.1)) e.2) s1
  s2.hostBytes (at' 0x5000) (natBytes 8 s.host.nlog ++ natBytes 56 0)

/-- Write the mirror (R427): the beats and the fault log; then SEQ odd, the fields, SEQ even. -/
def State.writeMirror (s : State) : State :=
  let at' := s.host.mirrorAt
  let seq := s.host.mirrorSeq
  let s1 := s.writeBeats.hostPut (at' 0x008) 8 ((seq + 1) % 2 ^ 64)
  let s2 := s1.hostBytes (at' 0x000) (natBytes 4 0x524D_3743 ++ natBytes 2 1 ++ natBytes 2 Config.moduleId.toNat)
  let s3 := s2.hostBytes (at' 0x020) (s.mirrorHead ++ (List.range 8).flatMap s.mirrorPart)
  let s4 := s3.hostBytes (at' 0x1000) ((List.range 1024).flatMap s.mirrorQueue)
  let s5 := s4.hostPut (at' 0x008) 8 ((seq + 2) % 2 ^ 64)
  s5.setHost { s5.host with mirrorSeq := (seq + 2) % 2 ^ 64, mirrorLast := s.now }

/-- MIRROR_UPDATE (R427): while EN is set and the Crown serves. -/
def State.mirrorUpdate (s : State) : State := if s.host.mirrorOn && s.host.crownServes then s.writeMirror else s
def execMirrorUpdate (s : State) : Host.Outcome State Fault Refusal := .next s.mirrorUpdate

/-- A host write that is discarded (R404). -/
def State.discardWrite (s : State) (offset queue : Nat) : State := s.logFault scopeHost causePacket none queue 0 0 offset

/-- DOORBELL (R404, R409, R443): WPTR, and the queue starts where it may. -/
def State.doorbell (s : State) (q v : Nat) : State :=
  match s.queueOf q with
  | none => s.discardWrite (0x1_0000 + 8 * q) q
  | some x =>
    let x := { x with wptr := v % 2 ^ 32 }
    let x := if (x.state = .idle || x.state = .waiting) && (s.part x.part).state ≠ .resetting && x.busy then
        { x with state := .running, began := x.began.orElse fun _ => some s.now }
      else x
    s.setQueue q x
def execDoorbell (queue value : Nat) (s : State) : Host.Outcome State Fault Refusal :=
  if 1024 ≤ queue then .refused .noSuchPlace else .next (s.doorbell queue value)

/-- MGMTDB (R432): counts modulo 2^64, both compared as distances from MGMTDONE. -/
def State.mgmtDoorbell (s : State) (v : Nat) : State :=
  let h := s.host
  let v := v % 2 ^ 64
  let dist (x : Nat) : Nat := (x + 2 ^ 64 - h.mgmtDone) % 2 ^ 64
  if v = h.mgmtAccepted then s
  else if dist h.mgmtAccepted ≤ dist v && dist v ≤ 64 then s.setHost { h with mgmtAccepted := v }
  else s.logFault scopeHost causePacket none noQueue 0 v h.mgmtBase
def execMgmtdb (value : Nat) (s : State) : Host.Outcome State Fault Refusal := .next (s.mgmtDoorbell value)

/-- A write of BAR0 (R404), by its offset; MODRESET is `execModreset`'s. -/
def State.barWrite (s : State) (offset value : Nat) : State :=
  let h := s.host
  let v := value % 2 ^ 64
  if offset = 0x08 then s.setHost { h with mirrorBase := v / 4096 * 4096 + v % 2 }
  else if offset = 0x10 then s.setHost { h with mgmtBase := v / 4096 * 4096 }
  else if offset = 0x18 then s.mgmtDoorbell v
  else if offset = 0x28 then s.reboot v
  else if offset = 0x30 then s.presetParts v
  else if offset = 0x40 then (if v = 0x4D52 then s.deviceReset.moduleReset 4 else s)
  else if offset = 0x48 then (if bits v 38 36 < 6 then s.setHost { h with aperture := bits v 38 36 } else s.discardWrite offset noQueue)
  else if offset = 0x00 || offset = 0x20 || offset = 0x38 then s
  else if 0x1_0000 ≤ offset && offset < 0x1_2000 && offset % 8 = 0 then s.doorbell ((offset - 0x1_0000) / 8) v
  else s.discardWrite offset noQueue

/-- REGISTER_WRITE (R404). -/
def execRegisterWrite (offset value : Nat) (s : State) : Host.Outcome State Fault Refusal := .next (s.barWrite offset value)

/-- RESETST (R404): partition resets in progress. -/
def State.resetst (s : State) : Nat := bitmapOf ((List.range 8).filter fun p => (s.part p).state = .resetting)

/-- A host read of BAR0 (R404): no access changes anything. -/
def State.barRead (s : State) (offset : Nat) : Nat :=
  let h := s.host
  if offset = 0x00 then 0xC764 * 2 ^ 32 + Config.revision.toNat * 2 ^ 16 + Config.moduleId.toNat
  else if offset = 0x08 then h.mirrorBase
  else if offset = 0x10 then h.mgmtBase
  else if offset = 0x20 then h.mgmtDone
  else if offset = 0x28 then h.bootStage * 256 + (if h.mitten then 2 else 0)
  else if offset = 0x38 then s.resetst
  else if offset = 0x48 then h.aperture * 2 ^ 36
  else 0

/-- Responses to a host access, as the replies keep them: 0 with the value read, 1 with a poisoned value, 2 Unsupported Request,
3 the error response to a write that was refused (R334, R405). -/
def State.reply (s : State) (l : List Nat) : State := s.setHost { s.host with replies := s.host.replies ++ [l] }

/-- A host access that fails (R405, R430). -/
def State.accessFault (s : State) (cause pa : Nat) : State := s.logFault scopeHost cause none noQueue 0 0 pa

/-- An access through BAR2 (R405). -/
def State.barAccess (s : State) (addr size : Nat) (data : Option Nat) : State :=
  let pa := s.host.aperture * 2 ^ 36 + addr
  if lpddrEnd < pa + size then (s.accessFault causeData pa).reply [2]
  else match data with
    | none =>
      let r := s.dieNat pa size
      if (s.die.poisonIn pa size).isSome then (r.2.accessFault causePoisoned pa).reply [1, r.1] else r.2.reply [0, r.1]
    | some v =>
      let r := s.dieWrite (dieBytes pa (natBytes size v))
      if r.2.isEmpty then r.1 else (r.1.accessFault causeRmw pa).reply [3]

/-- HOST_ACCESS (R405). -/
def execHostAccess (addr size : Nat) (data : Option Nat) (s : State) : Host.Outcome State Fault Refusal :=
  .next (s.barAccess addr size data)

/-- What happens to a link, and the messages it brings (R322, R413, R428, R433, R436). -/
def State.linkChange (s : State) (l : Nat) : LinkChange → State
  | .train peer => s.setLink l { s.linkOf l with state := .training, peer }
  | .up peer => s.setLink l { s.linkOf l with state := .up, peer }
  | .retry => s.setLink l { s.linkOf l with retries := ((s.linkOf l).retries + 1) % 2 ^ 32 }
  | .down => s.setLink l { s.linkOf l with state := .down }
  | .fail => s.setLink l { s.linkOf l with state := .failed }
  | .receive nfmt elems => s.setLink l { s.linkOf l with rx := (s.linkOf l).rx ++ [{ nfmt, elems }] }
  | .accepted part desc n => s.proxyAccepted part desc n
  | .gangReady ident m => s.gangMessage ident fun f => { f with ready := m :: f.ready.filter (· ≠ m) }
  | .gangStart ident t => s.gangMessage ident fun f => { f with told := some t }
  | .gangFail ident r => s.gangMessage ident fun f => { f with failed := some r }

/-- LINK_EVENT (R433). -/
def execLinkEvent (link : Nat) (event : LinkChange) (s : State) : Host.Outcome State Fault Refusal :=
  if 16 ≤ link then .refused .noSuchPlace else .next (s.linkChange link event)

end Sys2Proof.Machine
end

