-- ==== Sys2Proof/Machine/Debug.lean ====
section
/-! DEFINITION. Debug stops, the commands that reach a context, BRK and code patching (04 R143; 09 R283 to R285, R288). -/

namespace Sys2Proof.Machine

def causeBreakpoint : Nat := 0x0F

/-- BRK (R143, R285): with the trigger armed it asks for a debug stop and does not issue; after one it passes as a NOP. -/
def execBrk (w : Ins) (s : State) : Host.Outcome State Fault Refusal :=
  s.run (.brk w) w noEarly fun s st _ =>
    let c := s.ctx
    let t := c.stream st
    if t.passBrk then .ok s [] 0 (latBound w.lat)
    else if c.dbg.brk then
      .stay ((s.setCtx { c.setStream st { t with passBrk := true } with dbg := { c.dbg with halt := true } }).passTurn st)
    else .trap { cause := causeBreakpoint, aux := bits w.imm.toNat 15 0 }

/-- A debug stop is due at the start of a cycle (R283). -/
def State.debugDue (s : State) : Bool :=
  let c := s.ctx
  s.here.turn = 0 && c.moves && c.faults.isEmpty && (c.dbg.halt || [c.dbg.cycle, c.dbg.step].any fun x => x.any fun t => t ≤ c.cycle)

/-- The context stops under the debugger: what it has issued is carried and held (R284). A trigger whose cycle has come has
done its work; others stay armed (R283). -/
def State.debugStop (s : State) : State :=
  if !s.debugDue then s
  else match s.capture with
    | (false, s1) => s1
    | (true, s1) =>
      let c := s1.ctx
      let later (x : Option Nat) : Option Nat := x.filter fun t => c.cycle < t
      s1.setCtx { c with dbg := { c.dbg with cycle := later c.dbg.cycle, step := later c.dbg.step, halt := false, stopped := true } }

/-- DEBUG_STOP (R284). -/
def execDebugStop (core : Nat) (s : State) : Host.Outcome State Fault Refusal := s.atCore core State.debugStop

/-- A context addressed by its core and slot (R147 CTXID); commands reach contexts that hold a task. -/
def State.atCtx (s : State) (i : Instr) (core slot : Nat) (f : Ctx → Ctx) : Host.Outcome State Fault Refusal :=
  if core < 128 ∧ slot < 2 then
    .next (s.overLink (clusterOf core) i fun s =>
      let c := s.ctxAt core slot
      if c.task.isSome then s.setCtxAt core slot (f c) else s)
  else .refused .noSuchPlace

/-- The same where the command lets the context go on: operations that the stop withdrew wait again (R449). -/
def State.atCtxGo (s : State) (i : Instr) (core slot : Nat) (f : Ctx → Ctx) : Host.Outcome State Fault Refusal :=
  if core < 128 ∧ slot < 2 then
    .next (s.overLink (clusterOf core) i fun s =>
      let c := s.ctxAt core slot
      if c.task.isSome then
        let t := s.setCtxAt core slot (f c)
        if (f c).dbg.stopped then t else t.reenter core slot
      else s)
  else .refused .noSuchPlace

/-- ARM (R283). -/
def Ctx.arm (c : Ctx) (cycle triggers : Nat) : Ctx :=
  { c with dbg := { c.dbg with cycle := if bit triggers 0 then some cycle else c.dbg.cycle, brk := c.dbg.brk || bit triggers 1 } }
def execArm (core slot cycle triggers : Nat) (s : State) : Host.Outcome State Fault Refusal :=
  s.atCtx (.arm core slot cycle triggers) core slot fun c => c.arm cycle triggers

/-- DISARM (R283). -/
def execDisarm (core slot : Nat) (s : State) : Host.Outcome State Fault Refusal :=
  s.atCtx (.disarm core slot) core slot fun c => { c with dbg := { c.dbg with cycle := none, brk := false } }

/-- HALT (R283). -/
def execHalt (core slot : Nat) (s : State) : Host.Outcome State Fault Refusal :=
  s.atCtx (.halt core slot) core slot fun c => { c with dbg := { c.dbg with halt := true } }

/-- RESUME (R283): the stop ends; what is held lands after what remained of its latency. -/
def Ctx.unstop (c : Ctx) : Ctx := { c with dbg := { c.dbg with stopped := false, halt := false } }
def execResume (core slot : Nat) (s : State) : Host.Outcome State Fault Refusal := 
  s.atCtxGo (.resume core slot) core slot Ctx.unstop

/-- STEP (R283). -/
def Ctx.stepBy (c : Ctx) (n : Nat) : Ctx :=
  if n = 0 || 2 ^ 32 ≤ n then c
  else { c.unstop with dbg := { c.unstop.dbg with step := some (c.cycle + n) } }
def execDbgStep (core slot count : Nat) (s : State) : Host.Outcome State Fault Refusal :=
  s.atCtxGo (.dbgStep core slot count) core slot fun c => c.stepBy count

/-- CLRPROF (R283, R286): at the end of the cycle, at once for a context that runs none. -/
def execClrprof (core slot : Nat) (s : State) : Host.Outcome State Fault Refusal :=
  s.atCtx (.clrprof core slot) core slot fun c => if c.moves then { c with profClear := true } else { c with conflicts := [], overflow := [] }

/-- A core seen with a chosen context running. -/
def State.view (s : State) (core slot : Nat) : State := { s with focus := core }.setCore core { s.core core with running := slot }

/-- Bytes of a context in the layout of the save area (R281). -/
def State.areaBytes (s : State) (core slot off len : Nat) : List Byte :=
  let c := s.ctxAt core slot
  let marks := (s.view core slot).resumeBitmaps
  let all := (c.areaSections marks).flatMap fun y => fitBytes y.2.1 y.2.2
  ((all ++ fitBytes 0x20_0000 (s.spadRead core c.spbase c.spadGrant)).drop off).take len

/-- The entries of a stopped context with the flights they come from, in snapshot order (R274). -/
def Ctx.entryList (c : Ctx) : List (Flight × Nat) :=
  c.ordered.flatMap fun f => (List.range (c.entryParts f).length).map fun i => (f, i)

/-- What READ answers (R283). -/
def State.readItem (s : State) (core slot : Nat) (item : DebugItem) : List Nat :=
  let c := s.ctxAt core slot
  match item with
  | .scalar st r => [(vget 0 (c.stream st).x r).toNat]
  | .lane r j => [(vget 0 (c.vreg r).lanes j).toNat]
  | .vtag r => [(c.vreg r).tag.toNat]
  | .mask r => [(vget 0 c.k r).toNat]
  | .nest r => [(vget 0 c.nests r).toNat]
  | .spad off => if off < c.spadGrant then (s.spadRead core (c.spbase + off) 1).map BitVec.toNat else []
  | .resume st => (streamRecord (c.shown st) (c.shown st).redo none).map BitVec.toNat
  | .entry i => ((c.ordered.flatMap (c.entryBytes c.cycle)).getD i []).map BitVec.toNat
  | .ply i => (c.plies.getD i []).map BitVec.toNat
  | .area off len => (s.areaBytes core slot off len).map BitVec.toNat

/-- The bytes of what READ answers, as a DEBUG entry returns them (R431). -/
def debugBytes (item : DebugItem) (vs : List Nat) : List Byte := match item with
  | .scalar _ _ => vs.flatMap (natBytes 8)
  | .lane _ _ => vs.flatMap (natBytes 8)
  | .vtag _ => vs.flatMap (natBytes 8)
  | .mask _ => vs.flatMap (natBytes 8)
  | .nest _ => vs.flatMap (natBytes 64)
  | _ => vs.flatMap (natBytes 1)

/-- The spans of the scratchpad that a READ takes (R152). -/
def State.itemSpans (s : State) (core slot : Nat) (item : DebugItem) : List (Nat × Nat) :=
  let grant := (s.ctxAt core slot).spadGrant
  match item with
  | .spad off => if off < grant then [(off, 1)] else []
  | .area off len => if off + len ≤ areaSpad then [] else [(off - areaSpad, min grant (off + len - areaSpad) - (off - areaSpad))]
  | _ => []

/-- READ of a stopped context (R283); the answer goes back to the debugger. -/
def execDbgRead (core slot : Nat) (item : DebugItem) (s : State) : Host.Outcome State Fault Refusal :=
  if core < 128 ∧ slot < 2 then
    .next (s.overLink (clusterOf core) (.dbgRead core slot item) fun s =>
      if (s.ctxAt core slot).dbg.stopped then
        (s.askSave core (s.itemSpans core slot item)).setHost { s.host with replies := s.host.replies ++ [s.readItem core slot item] }
      else s)
  else .refused .noSuchPlace

/-- The bytes of some words. -/
def wordsBytes (vs : List Nat) : List Byte := vs.flatMap fun v => natBytes 8 v

/-- A byte of a store under the payload of its entry, which covers `n` bytes from `a`: its data and its enable bit (R274, R283). -/
def storePatched (bs : List Byte) (a n : Nat) (x : StoreCell) : StoreCell :=
  let i := x.va - a
  let en := bs.drop ((n + 15) / 16 * 16)
  let on := (en.getD (i / 8) 0).getLsbD (i % 8)
  { x with val := bs.getD i x.val, mask := if en.isEmpty then x.mask else if !on then 0 else if x.mask = 0 then 0xFF else x.mask }

/-- A command whose entry was given another word and other operands (R274, R283): what it takes from them at its landing. What it
captured at its issue stays (notes/assumptions/110). -/
def Command.withOperands (k : Command) (word : IWord) (a b : Word) : Command :=
  let imm := (word.extractLsb' 64 32).toNat
  match k with
  | .rowpred _ => .rowpred a
  | .rgnKill _ => .rgnKill a.toNat
  | .rgnSet _ _ _ => .rgnSet a.toNat (bits imm 7 0) b.toNat
  | .rgnNew _ _ dst => .rgnNew a.toNat b.toNat dst
  | .xstage _ => .xstage imm
  | .ringset r _ => .ringset r imm
  | .unlock _ => .unlock (a + (word.extractLsb' 64 32).signExtend 64).toNat
  | k => k

/-- New payload of one entry of a flight (R274, R283): `i` is its span, for a store. -/
def Flight.withPayload (f : Flight) (i : Nat) (vs : List Nat) : Flight :=
  let v := BitVec.ofNat 64 (vs.getD 0 0)
  let bs := wordsBytes vs
  match f.eff with
  | .reg t _ => { f with eff := .reg t v }
  | .kreg n _ m => { f with eff := .kreg n v m }
  | .token q id _ => { f with eff := .token q id v }
  | .nest n _ => { f with eff := .nest n (BitVec.ofNat 512 (bytesNat (bs.take 64))) }
  | .vec n _ m => { f with eff := .vec n (Vector.ofFn fun (j : Fin 64) => BitVec.ofNat 32 (bytesNat ((bs.drop (4 * j.val)).take 4))) m }
  | .store spad cells =>
    if f.done then f else { f with eff := .store spad ((f.spans cells).zipIdx.flatMap fun r =>
        if r.2 = i then r.1.2.2.map fun x => storePatched bs r.1.1 r.1.2.1 x else r.1.2.2) }
  | .command k =>
    let word : IWord := BitVec.ofNat 96 (bytesNat (bs.take 12))
    let a := BitVec.ofNat 64 (vs.getD 2 f.a.toNat)
    let b := BitVec.ofNat 64 (vs.getD 3 f.b.toNat)
    { f with word, a, b, c := BitVec.ofNat 64 (vs.getD 4 f.c.toNat), eff := .command (k.withOperands word a b) }
  | _ => f

/-- A RESUME word written by a debugger, under R278. -/
def Ctx.putResume (c : Ctx) (st v : Nat) : Ctx :=
  let t := c.shown st
  let r : ResumeRec := { resume := v, tkf := ((t.redo.bind (·.wfd)).getD 0).toNat, tkb := ((t.redo.bind (·.wbd)).getD 0).toNat,
                         cbsel := 0, cbval := 0 }
  if r.bad t then c else c.putRecord st r

/-- What WRITE changes (R283); none for an item that is read-only or a value that it refuses. -/
def State.putItem (s : State) (core slot : Nat) (item : DebugItem) (vs : List Nat) : Option State :=
  let c := s.ctxAt core slot
  let v := vs.getD 0 0
  let put (b : Bool) (c : Ctx) : Option State := if b then some (s.setCtxAt core slot c) else none
  match item with
  | .scalar st r => put true (c.setStream st { c.stream st with x := vset (c.stream st).x r (BitVec.ofNat 64 v) })
  | .lane r j => put true { c with v := vset c.v r { c.vreg r with lanes := vset (c.vreg r).lanes j (BitVec.ofNat 32 v) } }
  | .vtag r => put (v ≠ 0x1F && v ≤ 0x20) { c with v := vset c.v r { c.vreg r with tag := BitVec.ofNat 6 v } }
  | .mask r => put (r ≠ 0) { c with k := vset c.k r (BitVec.ofNat 64 v) }
  | .nest r => put true { c with nests := vset c.nests r (BitVec.ofNat 512 v) }
  | .spad off => if off < c.spadGrant then some ((s.askSave core [(off, 1)]).spadPut core (c.spbase + off) [BitVec.ofNat 8 v]) else none
  | .resume st => put true (c.putResume st v)
  | .entry i => (c.entryList[i]?).bind fun (f, k) =>
    put true { c with flights := c.flights.map fun g => if g = f then g.withPayload k vs else g }
  | .ply _ => none
  | .area _ _ => none

/-- WRITE: an item or value that it refuses changes nothing (R283). -/
def State.writeItem (s : State) (core slot : Nat) (item : DebugItem) (vs : List Nat) : State := (s.putItem core slot item vs).getD s

/-- WRITE of a stopped context (R283). -/
def execDbgWrite (core slot : Nat) (item : DebugItem) (value : List Nat) (s : State) : Host.Outcome State Fault Refusal :=
  if core < 128 ∧ slot < 2 then
    .next (s.overLink (clusterOf core) (.dbgWrite core slot item value) fun s =>
      if (s.ctxAt core slot).dbg.stopped then s.writeItem core slot item value else s)
  else .refused .noSuchPlace

/-- The place of code that a patch writes: mapped for fetching or reading as normal memory. -/
def State.codePlace (s : State) (part va : Nat) : Option Nat := (s.vaLook part va .fetch).orElse fun _ => s.vaLook part va .read

/-- Drop from every instruction cache the captures of a line and of the line before it (R288). -/
def State.dropLine (s : State) (part vline pline : Nat) : State :=
  { s with cores := s.cores.map fun k => { k with icache := k.icache.filter fun x =>
      !(x.pline = pline || x.pline + 1 = pline || (x.asn = part && (x.vline = vline || x.vline + 1 = vline))) } }

/-- PATCH's bytes are well placed (R288). -/
def patchOk (addr : Nat) (bytes : List Byte) : Bool :=
  addr % 4 = 0 && bytes.length ≤ 128 && addr % 128 + bytes.length ≤ 128

/-- The leaf controller patches code (R288). -/
def State.patchCode (s : State) (part addr : Nat) (bytes : List Byte) : State :=
  if !patchOk addr bytes then s
  else match s.codePlace part addr with
    | none => s
    | some pa => (s.dieWrite (dieBytes pa bytes)).1.dropLine part (addr / 128) (pa / 128)

/-- PATCH (R288). -/
def execPatch (part addr : Nat) (bytes : List Byte) (s : State) : Host.Outcome State Fault Refusal :=
  if part < 8 then .next (if (List.range 16).all s.linkFree then s.patchCode part addr bytes else s) else .refused .noSuchPlace

end Sys2Proof.Machine
end

