-- ==== Sys2Proof/Machine/Mgmt.lean ====
section
/-! DEFINITION. Management commands (13 R351; 15 R365, R367, R381, R386, R391; 17 R406, R407, R409, R424, R431, R437, R438, R443).
An operand takes a word of the entry each, in the order of R431, from word 1 up; a word with no operand must be zero
(notes/assumptions/70). -/

namespace Sys2Proof.Machine

def okStatus : Nat := 1
def badArgument : Nat := 2
def badState : Nat := 3
def noSpace : Nat := 4
def badAuth : Nat := 5
def badMedia : Nat := 6

/-- What a command leaves: its status, the result words by number, and the state. -/
structure MgmtRes where
  status  : Nat
  results : List (Nat × Nat)
  state   : State

/-- A command that changes nothing but its status. -/
def State.turned (s : State) (status : Nat) : MgmtRes := { status, results := [], state := s }
/-- A command that is done. -/
def State.performed (s : State) : MgmtRes := s.turned okStatus

/-- Post a command (R431): results, STATUS, MGMTDONE, then vector 1,024; only an accepted entry is there to be posted. -/
def MgmtRes.post (r : MgmtRes) : State :=
  let s := r.state
  let h := s.host
  if h.mgmtAccepted = h.mgmtDone then s
  else
    let at' := h.mgmtBase + 64 * (h.mgmtDone % 64)
    let s1 := r.results.foldl (fun s x => s.hostPut (at' + 8 * x.1) 8 x.2) s
    let s2 := s1.hostPut (at' + 1) 1 r.status
    s2.setHost { s2.host with mgmtDone := (h.mgmtDone + 1) % 2 ^ 64, msix := s2.host.msix ++ [1024] }

/-- Words with no operand are zero. -/
def zeroFrom (p : Mgmt) (n : Nat) : Bool := ([p.w1, p.w2, p.w3, p.w4, p.w5, p.w6, p.w7].drop (n - 1)).all fun w => w = 0

/-- A partition descriptor as the host wrote it (R351). -/
def descriptorOf (bs : List Byte) : Option Partition :=
  let get (o n : Nat) : Nat := bytesNat ((bs.drop o).take n)
  let page (v : Nat) : Bool := v % 4096 = 0 && v < 2 ^ 46
  if get 0x00 2 = 0 || get 0x03 5 ≠ 0 || get 0x1C 4 ≠ 0 || get 0x30 80 ≠ 0 || !page (get 0x08 8) || !page (get 0x10 8) ||
      !page (get 0x20 8) || get 0x18 4 = 0 || 65535 < get 0x18 4 || get 0x28 8 % 4096 ≠ 0 || get 0x28 8 < 0x10_0000 then none
  else some { clusters := BitVec.ofNat 16 (get 0x00 2), ptroot := get 0x08 8, rgntab := get 0x10 8, rgncnt := get 0x18 4,
              qbase := get 0x20 8, qbytes := get 0x28 8, state := .unconfigured }

/-- PARTSET (R351, R424, R431). -/
def State.partset (s : State) (p : Mgmt) : MgmtRes :=
  if 8 ≤ p.w1 || !zeroFrom p 3 then s.turned badArgument
  else
    let x := s.part p.w1
    let load (st : PartState) : MgmtRes := match descriptorOf (s.host.mem.load p.w2 128) with
      | none => s.turned badArgument
      | some d =>
        if (List.range 8).any fun q => q ≠ p.w1 && (s.part q).clusters &&& d.clusters ≠ 0 then s.turned badArgument
        else
          let s1 := s.setPart p.w1 { d with state := x.state }
          (if st = x.state then s1 else s1.setPartState p.w1 st).performed
    match x.state with
    | .unconfigured => load .active
    | .drained => load .drained
    | _ => s.turned badState
def execPartset (p : Mgmt) (s : State) : Host.Outcome State Fault Refusal := .next (s.partset p).post

/-- A partition command: its operands, then what it does to the partition in its state (R431). -/
def State.partcmd (s : State) (p : Mgmt) (f : PartState → MgmtRes) : MgmtRes :=
  if 8 ≤ p.w1 || !zeroFrom p 3 then s.turned badArgument else f (s.part p.w1).state

/-- PARTCMD DRAIN (R424). -/
def State.drainCmd (s : State) (p : Mgmt) : MgmtRes := s.partcmd p fun st => match st with
  | .active => (s.setPartState p.w1 .draining).performed
  | .draining => s.performed
  | .drained => s.performed
  | _ => s.turned badState
def execPartcmdDrain (p : Mgmt) (s : State) : Host.Outcome State Fault Refusal := .next (s.drainCmd p).post

/-- A held queue goes on from RPTR (R424). -/
def Queue.release (now : Nat) (x : Queue) : Queue :=
  if x.state = .held then { x with state := if x.busy then .running else .idle, began := if x.busy then some now else none } else x

/-- PARTCMD RESUME (R424). -/
def State.resumeCmd (s : State) (p : Mgmt) : MgmtRes :=
  let go : MgmtRes :=
    let s1 := s.setPartState p.w1 .active
    (s1.setHost { s1.host with queues := s1.host.queues.map fun x => if x.2.part = p.w1 then (x.1, x.2.release s1.now) else x }).performed
  s.partcmd p fun st => match st with
    | .active => s.performed
    | .draining => go
    | .drained => go
    | _ => s.turned badState
def execPartcmdResume (p : Mgmt) (s : State) : Host.Outcome State Fault Refusal := .next (s.resumeCmd p).post

/-- PARTCMD RESET (R423). -/
def State.resetCmd (s : State) (p : Mgmt) : MgmtRes := s.partcmd p fun st =>
  if st.resettable then (s.beginReset p.w1 []).performed else s.turned badState
def execPartcmdReset (p : Mgmt) (s : State) : Host.Outcome State Fault Refusal := .next (s.resetCmd p).post

/-- PARTCMD RELEASE (R431). -/
def State.releaseCmd (s : State) (p : Mgmt) : MgmtRes := s.partcmd p fun st =>
  if st = .drained then (((s.rgnForget p.w1).setPart p.w1 { Die.reset.parts[0] with state := .drained }).setPartState p.w1 .unconfigured).performed
  else s.turned badState
def execPartcmdRelease (p : Mgmt) (s : State) : Host.Outcome State Fault Refusal := .next (s.releaseCmd p).post

/-- RGNROOT (R305, R318, R431): as RGNNEW with no parent; word 3 returns the index. -/
def State.rgnroot (s : State) (p : Mgmt) : MgmtRes :=
  if 8 ≤ p.w1 || !zeroFrom p 4 || 2 ^ 48 ≤ p.w2 || p.w2 % 256 ≠ 0 then s.turned badArgument
  else match (s.part p.w1).state with
    | .unconfigured => s.turned badState
    | .resetting => s.turned badState
    | .failed => s.turned badState
    | _ => (match s.vaLook p.w1 p.w2 .write with
      | none => s.turned badArgument
      | some pa =>
        let s := (s.walked p.w1 p.w2 .write).noteRead pa 256
        if !(rcbSoftware.all fun f => rcbRange f (s.peek (pa + f.1) f.2)) || (s.tableFault p.w1).isSome then s.turned badArgument
        else (match s.regionNew p.w1 p.w2 0xFFFF with
          | (none, _) => s.turned noSpace
          | (some i, s1) => { status := okStatus, results := [(3, i)], state := s1 }))
def execRgnroot (p : Mgmt) (s : State) : Host.Outcome State Fault Refusal := .next (s.rgnroot p).post

/-- A power of two in a range. -/
def powerOfTwo (v lo hi : Nat) : Bool := lo ≤ v && v ≤ hi && v &&& (v - 1) = 0

/-- QCREATE (R409): PART, BASE, SIZE, GAUNTLET, MITTEN. -/
def State.qcreate (s : State) (p : Mgmt) : MgmtRes :=
  if 1024 ≤ p.w1 || 8 ≤ p.w2 || !wordAligned p.w3 4096 || !powerOfTwo p.w4 4096 16777216 || 2 ^ 32 ≤ p.w5 || 2 ≤ p.w6 || p.w7 ≠ 0 then
    s.turned badArgument
  else if (s.queueOf p.w1).isSome then s.turned badState
  else
    let x : Queue :=
      { part := p.w2, host := wordHost p.w3, base := wordAddr p.w3, size := p.w4, gauntlet := p.w5, mapped := p.w6 = 1, state := .idle,
        rptr := 0, wptr := 0, levels := [ringLevel (wordHost p.w3) 0], windows := [], skip := 0, began := none, progress := .none,
        completed := 0, lastCause := 0, lastGrade := 0 }
    (s.setQueue p.w1 x).performed
def execQcreate (p : Mgmt) (s : State) : Host.Outcome State Fault Refusal := .next (s.qcreate p).post

/-- A queue command on a queue that is there. -/
def State.queueCmd (s : State) (p : Mgmt) (n : Nat) (f : Queue → MgmtRes) : MgmtRes :=
  if 1024 ≤ p.w1 || !zeroFrom p n then s.turned badArgument
  else match s.queueOf p.w1 with
    | none => s.turned badState
    | some x => f x

/-- QDESTROY (R431). -/
def State.qdestroy (s : State) (p : Mgmt) : MgmtRes := s.queueCmd p 2 fun x =>
  if x.working then s.turned badState else (s.setHost { s.host with queues := tdel s.host.queues p.w1 }).performed
def execQdestroy (p : Mgmt) (s : State) : Host.Outcome State Fault Refusal := .next (s.qdestroy p).post

/-- All ones: keep RPTR (R431). -/
def keepRptr : Nat := 0xFFFF_FFFF_FFFF_FFFF

/-- QSTART (R431, R443, R446). -/
def State.qstart (s : State) (p : Mgmt) : MgmtRes := s.queueCmd p 3 fun x =>
  if p.w2 ≠ keepRptr && (2 ^ 32 ≤ p.w2 || p.w2 % 8 ≠ 0) then s.turned badArgument
  else if (x.state ≠ .stopped && x.state ≠ .faulted) || (s.part x.part).state = .resetting then s.turned badState
  else
    let y := x.restart (if p.w2 = keepRptr then x.rptr else p.w2)
    let y := { y with state := if y.busy then .running else .idle, began := if y.busy then some s.now else none }
    (s.setQueue p.w1 y).performed
def execQstart (p : Mgmt) (s : State) : Host.Outcome State Fault Refusal := .next (s.qstart p).post

/-- QABORT (R425, R431). -/
def State.qabort (s : State) (p : Mgmt) : MgmtRes := s.queueCmd p 2 fun x => (s.abandonQueue p.w1 x causeAbort false).performed
def execQabort (p : Mgmt) (s : State) : Host.Outcome State Fault Refusal := .next (s.qabort p).post

/-- WINSET (R406, R407): PART, BASE, LEN, VERADDR; the version is the word the host holds. -/
def State.winset (s : State) (p : Mgmt) : MgmtRes :=
  if 1024 ≤ p.w1 || 8 ≤ p.w2 || p.w3 % 4096 ≠ 0 || p.w4 % 4096 ≠ 0 || p.w4 < 4096 || 2 ^ 30 < p.w4 || p.w5 % 8 ≠ 0 ||
      !(p.w5 + 8 ≤ p.w3 || p.w3 + p.w4 ≤ p.w5) || !zeroFrom p 6 then s.turned badArgument
  else
    let x : Window := { part := p.w2, base := p.w3, len := p.w4, verAddr := p.w5, version := s.hostNat p.w5 8 }
    (s.setHost { s.host with windows := tset s.host.windows p.w1 x }).performed
def execWinset (p : Mgmt) (s : State) : Host.Outcome State Fault Refusal := .next (s.winset p).post

/-- A PUBLISH of a window is in flight (R406). -/
def State.publishing (s : State) (n : Nat) : Bool := s.cores.toList.any fun k => k.ctx.toList.any fun c => c.flights.any fun f =>
  opcodeOf f.word = 0x065 && (f.word.extractLsb' 64 32).toNat = n

/-- A store in flight writes to a window (R406). -/
def Flight.toWindow (f : Flight) (n : Nat) : Bool := match f.eff with
  | .store false cells => !f.done && cells.any fun c => c.mask ≠ 0 && hostWinBase ≤ c.pa && c.pa < hostWinEnd && winIndex c.pa = n
  | _ => false

/-- A write to a window has not been accepted by the host yet (R406). -/
def State.winBusy (s : State) (n : Nat) : Bool :=
  let ctxBusy (c : Ctx) : Bool := c.allFlights.any fun f => f.toWindow n
  s.cores.any fun k => k.ctx.any ctxBusy || k.ready.any fun r => r.saved.any fun x => ctxBusy x.ctx

/-- WINCLR (R406). -/
def State.winclr (s : State) (p : Mgmt) : MgmtRes :=
  if 1024 ≤ p.w1 || !zeroFrom p 2 then s.turned badArgument
  else if !(s.host.windows.any fun x => x.1 = p.w1) || s.publishing p.w1 then s.turned badState
  else (s.setHost { s.host with windows := tdel s.host.windows p.w1 }).performed

/-- WINCLR (R406): while a write to the window is in flight, the entry is not posted and stands. -/
def execWinclr (p : Mgmt) (s : State) : Host.Outcome State Fault Refusal :=
  .next (if s.winBusy p.w1 && (s.winclr p).status = okStatus then s else (s.winclr p).post)

/-- Flash pages of the package (R363), less those of blocks that have been retired (notes/assumptions/105). -/
def State.flashPages (s : State) : Nat := 2 ^ 32 - s.host.retiredBlocks

/-- Flash pages that indexes other than one may take: their logs and budgets. -/
def State.flashTaken (s : State) (h : Nat) : Nat := ((s.retr.indexes.filter fun x => x.1 ≠ h).map fun x => x.2.logPages + x.2.budget).sum

/-- An index with nothing in it (R365, R367, R372). -/
def newIndex (part region rights efmt dim home batchUs arenaBase arenaLen traceBase traceSlots logPages threshold budget : Nat) : Index :=
  { part, region, rights, efmt, dim, home, batchUs, arenaBase, arenaLen, traceBase, traceSlots, logPages, threshold, budget,
    resize := none, gen := 0, hposNext := 0, log := [], logFpns := [],
    versions := [{ fromGen := 0, cut := 0, root := none, nodes := [], pockets := [] }], objects := [],
    counters := Vector.replicate 13 0, pass := none, asked := [], paused := false, dying := false }

/-- The parameters of IDXCREATE (R365, R431), packed as notes/assumptions/70 says, are in their ranges. -/
def Index.valid (x : Index) : Bool :=
  x.part < 8 && x.rights < 16 && [0x0F, 0x10, 0x1C, 0x19].contains x.efmt && 1 ≤ x.dim && x.dim ≤ 4096 && x.home < 16 && x.batchUs ≤ 32 &&
    x.arenaBase % 65536 = 0 && x.arenaLen % 65536 = 0 && x.arenaBase + x.arenaLen ≤ lpddrEnd && x.traceBase < 2 ^ 48

/-- The index an IDXCREATE asks for. -/
def mgmtIndex (p : Mgmt) : Index :=
  newIndex (bits p.w2 7 0) (bits p.w2 23 8) (bits p.w2 31 24) (bits p.w2 39 32) (bits p.w2 55 40) (bits p.w2 63 56) (bits p.w3 7 0)
    p.w4 p.w5 p.w6 (bits p.w3 63 32) (bits p.w7 20 0) (bits p.w7 41 21) (bits p.w7 62 42)

/-- IDXCREATE (R365, R431). -/
def State.idxcreate (s : State) (p : Mgmt) : MgmtRes :=
  if 1024 ≤ p.w1 || !(mgmtIndex p).valid || bits p.w3 31 8 ≠ 0 || bit p.w7 63 then s.turned badArgument
  else if (s.idx p.w1).isSome then s.turned badState
  else if s.flashPages < s.flashTaken p.w1 + (mgmtIndex p).logPages + (mgmtIndex p).budget then s.turned noSpace
  else (s.setIdx p.w1 (mgmtIndex p)).performed
def execIdxcreate (p : Mgmt) (s : State) : Host.Outcome State Fault Refusal := .next (s.idxcreate p).post

/-- A command on a handle that is live (R365, R431). -/
def State.idxCmd (s : State) (p : Mgmt) (n : Nat) (f : Index → MgmtRes) : MgmtRes :=
  if 1024 ≤ p.w1 || !zeroFrom p n then s.turned badArgument
  else match s.idx p.w1 with
    | none => s.turned badState
    | some x => f x

/-- IDXRESIZE (R431): at the next switch. -/
def State.idxresize (s : State) (p : Mgmt) : MgmtRes := s.idxCmd p 4 fun x =>
  if s.flashPages < s.flashTaken p.w1 + p.w2 + p.w3 then s.turned noSpace
  else (s.setIdx p.w1 { x with resize := some (p.w2, p.w3) }).performed
def execIdxresize (p : Mgmt) (s : State) : Host.Outcome State Fault Refusal := .next (s.idxresize p).post

/-- A command of a handle has been accepted and has not completed. -/
def State.handleBusy (s : State) (h : Nat) : Bool := s.retr.cmds.any fun c => c.accepted && c.handle = h

/-- IDXDESTROY (R431): no new command is taken; while commands of the handle remain, the entry is not posted and stands. -/
def State.idxdestroy (s : State) (p : Mgmt) : State :=
  if 1024 ≤ p.w1 || !zeroFrom p 2 then (s.turned badArgument).post
  else match s.idx p.w1 with
    | none => (s.turned badState).post
    | some x =>
      if s.handleBusy p.w1 then s.setIdx p.w1 { x with dying := true }
      else
        let r := s.retr
        ((s.setRetr { r with indexes := tdel r.indexes p.w1, reads := r.reads.filter fun y => y.handle ≠ p.w1 }).performed).post
def execIdxdestroy (p : Mgmt) (s : State) : Host.Outcome State Fault Refusal := .next (s.idxdestroy p)

/-- Flash pages of a key-value object: 64 KiB in pages of 16 KiB (R363, R386; notes/assumptions/34). -/
def objectPages : Nat := 4

/-- A write or drop of a key-value object (R367, R386); word 4 returns the generation. -/
def State.objEvent (s : State) (p : Mgmt) (contents : Option (List Byte)) : MgmtRes := s.idxCmd p 5 fun x =>
  if 65536 ≤ p.w3 || p.w2 = 0xFFFF_FFFF_FFFF_FFFF then s.turned badArgument
  else
    let g := x.gen + 1
    let (fpns, s1) := s.takePages (if contents.isSome then objectPages else 0)
    { status := okStatus, results := [(4, g)],
      state := s1.setIdx p.w1 { x with gen := g, objects := x.objects ++ [{ id := p.w2, block := p.w3, gen := g, contents, fpns }] } }

/-- A command that programs flash returns MEDIA, and does nothing else, where flash does not take what it writes (R431;
notes/assumptions/116). -/
def MgmtRes.programmed (r : MgmtRes) (s : State) (ok : Bool) : MgmtRes := if r.status = okStatus && !ok then s.turned badMedia else r

/-- OBJWRITE (R386, R431). -/
def State.objwrite (s : State) (p : FlashCmd) : MgmtRes :=
  (s.objEvent p.entry (some (s.host.mem.load p.entry.w4 65536))).programmed s p.ok
def execObjwrite (p : FlashCmd) (s : State) : Host.Outcome State Fault Refusal := .next (s.objwrite p).post

/-- OBJDROP (R386, R431). -/
def State.objdrop (s : State) (p : Mgmt) : MgmtRes := s.objEvent p none
def execObjdrop (p : Mgmt) (s : State) : Host.Outcome State Fault Refusal := .next (s.objdrop p).post

/-- IDXCLEAR (R391, R431). -/
def State.idxclear (s : State) (p : Mgmt) : MgmtRes := s.idxCmd p 2 fun x =>
  (s.setIdx p.w1 { x with counters := Vector.replicate 13 0 }).performed
def execIdxclear (p : Mgmt) (s : State) : Host.Outcome State Fault Refusal := .next (s.idxclear p).post

/-- A descriptor as R351 lays it out, which a report digests (R438). -/
def Partition.bytes (x : Partition) (p : Nat) : List Byte :=
  natBytes 2 x.clusters.toNat ++ natBytes 1 p ++ natBytes 5 0 ++ natBytes 8 x.ptroot ++ natBytes 8 x.rgntab ++ natBytes 4 x.rgncnt ++
    natBytes 4 0 ++ natBytes 8 x.qbase ++ natBytes 8 x.qbytes ++ natBytes 80 0

/-- The digest of some bytes (R438). -/
def digest (bs : List Byte) : List Byte := (Config.sha256 bs).toList

/-- The report that ATTEST signs, in the order of R438 (notes/assumptions/68): the nonce; the serial and the identifier; the key
digests, revocation bits and minimum version of the fuses; a digest of each loaded image; the digest of the partition descriptors. -/
def State.attestReport (s : State) (nonce : List Byte) : List Byte :=
  let h := s.host
  nonce ++ Config.serial ++ natBytes 2 Config.moduleId.toNat ++ h.fuses.keys.toList.flatten ++ natBytes 1 h.fuses.revoked.toNat ++
    natBytes 8 h.fuses.minSvn ++ (h.images.flatMap fun x => digest x.bytes) ++ digest ((List.range 8).flatMap fun i => (s.part i).bytes i)

/-- ATTEST (R438): the report, its signature of 7,856 bytes by the identity key, and the certificate. -/
def State.attest (s : State) (p : Mgmt) : MgmtRes :=
  if !zeroFrom p 3 then s.turned badArgument
  else
    let r := s.attestReport (s.host.mem.load p.w1 32)
    (s.hostBytes p.w2 (r ++ (Config.identitySign r).toList ++ Config.certificate)).performed
def execAttest (p : Mgmt) (s : State) : Host.Outcome State Fault Refusal := .next (s.attest p).post

/-- FWLOAD (R437): an accepted image takes its agent's place in the flash boot area, for the next boot. -/
def State.fwload (s : State) (p : FlashCmd) : MgmtRes :=
  if !zeroFrom p.entry 3 then s.turned badArgument
  else
    let h := s.host
    let bs := h.mem.load p.entry.w1 p.entry.w2
    let x : Image := { agent := Config.imageAgent bs, svn := Config.imageVersion bs, bytes := bs }
    if h.fuses.accepts bs then
      ((s.setHost { h with stored := x :: h.stored.filter fun y => y.agent ≠ x.agent }).performed).programmed s p.ok
    else s.turned badAuth
def execFwload (p : FlashCmd) (s : State) : Host.Outcome State Fault Refusal := .next (s.fwload p).post

/-- The request of KEYREVOKE is signed by the key of another slot that stands (R437). -/
def Fuses.mayRevoke (f : Fuses) (slot : Nat) (request : List Byte) : Bool := (List.range 4).any fun i =>
  let k := vget [] f.keys i
  i ≠ slot && !k.isEmpty && !f.revoked.getLsbD i && Config.requestSigned k slot request

/-- KEYREVOKE (R437): the last key that stands has no other to sign for it. The request is what stands in the 8 KiB at its
address. -/
def State.keyrevoke (s : State) (p : Mgmt) : MgmtRes :=
  if 4 ≤ p.w1 || !zeroFrom p 3 then s.turned badArgument
  else
    let h := s.host
    if h.fuses.mayRevoke p.w1 (h.mem.load p.w2 8192) then
      (s.setHost { h with fuses := { h.fuses with revoked := h.fuses.revoked ||| BitVec.twoPow 4 p.w1 } }).performed
    else s.turned badAuth
def execKeyrevoke (p : Mgmt) (s : State) : Host.Outcome State Fault Refusal := .next (s.keyrevoke p).post

end Sys2Proof.Machine
end

