-- ==== Sys2Proof/Machine/RetrEvents.lean ====
section
/-! DEFINITION. The controllers at work: flash reads, traversal steps, batches, commits, darning, key-value fetches and
completions (15 R378 to R392). Where darning places a vector and what it reads ahead is the model's choice
(notes/assumptions/31, 34). -/

namespace Sys2Proof.Machine

/-- A read that failed after its seventh re-read (R379, R383, R385) retires the page's block (R426; notes/assumptions/105). -/
def State.noteMedia (s : State) (r : FlashRead) : State :=
  let s1 := (s.idxCount r.handle kMedia 1).traceEvent r.handle 3 (pageCtl r.fpn) 0 (if r.kind = .darn then 0 else r.seq) r.fpn
  s1.setHost { s1.host with mediaFails := s1.host.mediaFails + 1, retiredBlocks := s1.host.retiredBlocks + 1 }

/-- A darning pass ends without a switch (R383, R394). -/
def State.abandonPass (s : State) (h : Nat) : State :=
  match s.idx h with
  | none => s
  | some x =>
    match x.pass with
    | none => s
    | some p =>
      let s1 := (s.setIdx h { x with pass := none }).idxCount h kDarnfail 1
      let s2 := s1.setRetr { s1.retr with reads := s1.retr.reads.filter fun r => !(r.handle = h && r.kind = .darn) }
      let s3 := s2.traceEvent h 5 x.home 0 0 0
      p.cmds.foldl (fun s u => s.endCmd u kMediaFail 0 0) s3

/-- The queries of a read end with MEDIA (R385). -/
def State.queriesFail (s : State) (cmds : List Nat) : State := cmds.foldl (fun s u => match s.cmd u with
  | some c => (match c.query with
    | some q => s.endCmd u kMediaFail q.gen (q.scans * 2 ^ 32)
    | none => s)
  | none => s) s

/-- The reads of a key-value fetch that are still queued go with it. -/
def State.dropReads (s : State) (uid : Nat) : State :=
  s.setRetr { s.retr with reads := s.retr.reads.filter fun r => !(r.kind = .object && r.cmds = [uid]) }

/-- A read that failed for good: its queries and its key-value fetch end with MEDIA, a pass is abandoned, a prefetch is dropped. -/
def State.readFails (s : State) (r : FlashRead) : State :=
  let s1 := s.noteMedia r
  match r.kind with
  | .page _ _ => s1.queriesFail r.cmds
  | .log _ => s1.queriesFail r.cmds
  | .object => r.cmds.foldl (fun s u => match s.cmd u with
      | some c => (s.dropReads u).endCmd u kMediaFail (s.freeField c 12) c.out
      | none => s) s1
  | .prefetch _ => s1
  | .darn => s1.abandonPass r.handle

/-- A page that decodes goes where it is wanted. -/
def State.readDecodes (s : State) (r : FlashRead) : State :=
  match r.kind with
  | .page _ _ => s.setRetr { s.retr with decoded := s.retr.decoded ++ [r] }
  | .log _ => s.setRetr { s.retr with decoded := s.retr.decoded ++ [r] }
  | .object => s
  | .prefetch _ => s.setRetr { s.retr with buffered := s.retr.buffered ++ [(r.handle, r.fpn)] }
  | .darn =>
    match s.idx r.handle with
    | some x => s.setIdx r.handle { x with pass := x.pass.map fun p => { p with reads := p.reads - 1 } }
    | none => s

/-- FLASH_READ (R384): the oldest queued read of a controller; `ok` says whether the page decodes at its level. -/
def execFlashRead (controller : Nat) (ok : Bool) (s : State) : Host.Outcome State Fault Refusal :=
  if 16 ≤ controller then .refused .noSuchPlace
  else match s.retr.reads.find? fun r => pageCtl r.fpn = controller with
    | none => .next s
    | some r =>
      let s1 := s.setRetr { s.retr with reads := s.retr.reads.erase r }
      .next <|
        if ok then s1.readDecodes r
        else if r.level < 7 then
          let r1 := { r with level := r.level + 1 }
          let s2 := (s1.setRetr { s1.retr with reads := s1.retr.reads ++ [r1] }).idxCount r.handle kRetryq 1
          s2.traceEvent r.handle 1 controller r1.level (if r.kind = .darn then 0 else r.seq) r.fpn
        else s1.readFails r

/-- A new candidate at rank 1 prefetches the first pages of the pocket's seam targets (R379). -/
def State.prefetchSeams (s : State) (h : Nat) (v : Version) (p : Pocket) (seq : Nat) : State :=
  p.seams.foldl (fun s t =>
    if t = 0xFFFF_FFFF then s
    else match v.pockets.find? fun q => q.number = t with
      | none => (s.idxCount h kSeamdead 1).traceEvent h 2 (((s.idx h).map (·.home)).getD 0) 0 seq t
      | some q =>
        match q.pages.head? with
        | none => s
        | some pg =>
          if s.retr.buffered.contains (h, pg.fpn) || s.retr.reads.any (fun r => r.handle = h && r.fpn = pg.fpn) then s
          else (s.setRetr { s.retr with reads := s.retr.reads ++
              [{ handle := h, version := v.fromGen, fpn := pg.fpn, level := 0, kind := .prefetch t, cmds := [], seq }] }).idxCount
                h kPrefetch 1) s

/-- One query takes the records of a page (R377, R385). -/
def State.scanFor (s : State) (x : Index) (v : Version) (p : Pocket) (ms : List Member) (uid : Nat) : State :=
  match s.cmd uid with
  | none => s
  | some c =>
    match c.query with
    | none => s
    | some q =>
      if c.killed then s.endCmd uid kKilled q.gen (q.scans * 2 ^ 32)
      else
        let (best, first) := ms.foldl (fun (acc : List Candidate × Bool) m =>
          if x.visibleAt m.id m.gen q.gen then
            let b := offer acc.1 c.k { dist := x.dist q.vec m.vec, id := m.id, source := p.number, gen := m.gen }
            (b, acc.2 || (b.head?.map (·.id) ≠ acc.1.head?.map (·.id)))
          else acc) (q.best, false)
        let s1 := s.setCmd { c with query := some { q with best } }
        if first then s1.prefetchSeams c.handle v p c.seq else s1

/-- A query leaves a pocket and goes on. -/
def State.leavePocket (s : State) (uid : Nat) : State :=
  match s.cmd uid with
  | none => s
  | some c =>
    match c.query with
    | none => s
    | some q =>
      ((s.setCmd { c with query := some { q with pockets := q.pockets.tail, scans := q.scans + 1, waiting := false } }).idxCount
        c.handle kPockets 1).goOn uid

/-- A query takes the entries of a page of the hem log and goes on (R377). -/
def State.takeLog (s : State) (x : Index) (page uid : Nat) : State :=
  match s.cmd uid with
  | none => s
  | some c =>
    match c.query with
    | none => s
    | some q =>
      if c.killed then s.endCmd uid kKilled q.gen (q.scans * 2 ^ 32)
      else
        let best := x.hemOffers page q.vec c.k q.gen (x.versionAt q.gen).cut q.best
        (s.setCmd { c with query := some { q with best, logs := q.logs.tail } }).goOn uid

/-- The scan of one decoded page for the queries that share it (R385). -/
def State.scanPage (s : State) (r : FlashRead) : State :=
  match r.kind, s.idx r.handle with
  | .log page, some x => r.cmds.foldl (fun s u => s.takeLog x page u) s
  | .page number page, some x =>
    let v := (x.versions.find? fun v => v.fromGen = r.version).getD x.latest
    match v.pockets.find? fun p => p.number = number with
    | none => s
    | some p =>
      let ms := ((p.pages[page]?).map (·.members)).getD []
      let s1 := (r.cmds.foldl (fun s u => s.scanFor x v p ms u) s).idxCount r.handle kBatched (r.cmds.length - 1)
      let live := r.cmds.filter fun u => ((s1.cmd u).bind (·.query)).isSome
      if page + 1 < p.pages.length then (if live.isEmpty then s1 else s1.askPage r.handle r.version p (page + 1) live)
      else live.foldl (fun s u => s.leavePocket u) s1
  | _, _ => s

/-- TRAVERSAL_STEP (R385): the oldest decoded page of a controller. -/
def execTraversalStep (controller : Nat) (s : State) : Host.Outcome State Fault Refusal :=
  if 16 ≤ controller then .refused .noSuchPlace
  else match s.retr.decoded.find? fun r => pageCtl r.fpn = controller with
    | none => .next s
    | some r => .next ((s.setRetr { s.retr with decoded := s.retr.decoded.erase r }).scanPage r)

/-- The pocket a batch waits on. -/
def State.batchPocket (s : State) (b : Batch) : Option Pocket :=
  match s.idx b.handle with
  | none => none
  | some x => ((x.versions.find? fun v => v.fromGen = b.version).bind fun v => v.pockets.find? fun p => p.number = b.pocket)

/-- A batch may be released (R378). -/
def State.batchDue (s : State) (controller : Nat) (b : Batch) : Bool :=
  let wait := ((s.idx b.handle).map (·.batchUs)).getD 0
  (64 ≤ b.cmds.length || b.since + 1000 * wait ≤ s.now) &&
    (match s.batchPocket b with
    | some p => ((p.pages.head?).map fun g => pageCtl g.fpn) = some controller
    | none => false)

/-- BATCH_RELEASE (R378). -/
def execBatchRelease (controller : Nat) (s : State) : Host.Outcome State Fault Refusal :=
  if 16 ≤ controller then .refused .noSuchPlace
  else match s.retr.batches.find? (s.batchDue controller) with
    | none => .next s
    | some b =>
      let s1 := s.setRetr { s.retr with batches := s.retr.batches.erase b }
      match s1.batchPocket b with
      | some p => .next (s1.askPage b.handle b.version p 0 b.cmds)
      | none => .next s1

/-- A handle of the table. -/
def onHandle (s : State) (h : Nat) (f : Index → State) : Host.Outcome State Fault Refusal :=
  if 1024 ≤ h then .refused .noSuchPlace
  else match s.idx h with
    | some x => .next (f x)
    | none => .next s

/-- The accepted append of lowest HPOS commits (R367, R380). -/
def State.commitAppend (s : State) (h : Nat) (x : Index) : State :=
  match x.log.find? fun e => e.gen.isNone with
  | none => s
  | some e =>
    let g := x.gen + 1
    let log := x.log.map fun (f : HemEntry) => if f.hpos = e.hpos then { f with gen := some g } else f
    let x1 : Index := { x with gen := g, log }
    let s1 := s.setIdx h (x1.count kAppends 1)
    match s1.retr.cmds.find? fun c => c.handle = h && c.accepted && (c.op = opIns || c.op = opDel) && c.hpos = e.hpos && c.result.isNone with
    | some c => s1.endCmd c.uid kOk g e.hpos
    | none => s1

/-- APPEND_COMMIT (R380). -/
def execAppendCommit (handle : Nat) (s : State) : Host.Outcome State Fault Refusal :=
  onHandle s handle fun x => s.commitAppend handle x

/-- A pocket of the latest version in which nothing is hidden at a cut: a pass leaves its pages as they stand (R375, R383). -/
def Index.stands (x : Index) (cut : Nat) (p : Pocket) : Bool := p.pages.all fun g => g.members.all fun m => x.visibleAt m.id m.gen cut

/-- The flash pages a pass reads: those of the pockets it rewrites, and the hem log's entries up to the cut (R383). -/
def Index.passPages (x : Index) : List Nat :=
  ((x.latest.pockets.filter fun p => !x.stands x.gen p).flatMap fun p => p.pages.map (·.fpn)) ++ (x.logsFor x.gen x.latest.cut).map (·.2)

/-- A darning pass starts: on DARN, or where the log has passed its threshold and automatic passes are not paused (R383). -/
def State.startPass (s : State) (h : Nat) (x : Index) : State :=
  if x.pass.isSome || !(!x.asked.isEmpty || (!x.paused && x.threshold ≠ 0 && x.threshold < x.unabsorbed)) then s
  else
    let pages := x.passPages
    let s1 := s.setIdx h { x with pass := some { cut := x.gen, reads := pages.length, cmds := x.asked }, asked := [] }
    s1.setRetr { s1.retr with reads := s1.retr.reads ++ pages.map fun fpn =>
      { handle := h, version := x.latest.fromGen, fpn, level := 0, kind := .darn, cmds := [], seq := 0 } }

/-- DARNING_PASS (R383). -/
def execDarningPass (handle : Nat) (s : State) : Host.Outcome State Fault Refusal :=
  onHandle s handle fun x => s.startPass handle x

/-- Members that a pass places: those of the pockets it rewrites and the new insertions, as far as they are visible at the cut (R383
step 2). -/
def Index.absorbed (x : Index) (cut : Nat) : List Member :=
  let old := ((x.latest.pockets.filter fun p => !x.stands cut p).flatMap fun p => p.pages.flatMap (·.members)).filter fun m =>
    x.visibleAt m.id m.gen cut
  let new := x.log.filterMap fun e => match e.vec, e.gen with
    | some v, some n => if x.latest.cut < n && x.visibleAt e.id n cut then some { id := e.id, gen := n, vec := v } else none
    | _, _ => none
  old ++ new

/-- Cut a list into pieces of at most `n`. -/
def pieces {α : Type} (n : Nat) : Nat → List α → List (List α)
  | 0, _ => []
  | k + 1, l => if l.isEmpty then [] else l.take n :: pieces n k (l.drop n)

/-- A pocket of some members: its centre is its first vector, its squared radius the farthest (R371); its pages have no place yet. -/
def Index.pocketOf (x : Index) (number fromGen : Nat) (ms : List Member) : Pocket :=
  let centre := (ms.head?.map (·.vec)).getD []
  { number, fromGen, radsq := ms.foldl (fun r m => max r (x.dist centre m.vec)) 0, seams := [], centre,
    pages := (pieces x.perPage ms.length ms).map fun p => { fpn := 0, fromGen, members := p }, place := 0 }

/-- A squared radius about a centre that covers a child with its own (R371): (√d + √r)² is at most 2(d + r). -/
def Index.radiusOver (x : Index) (centre : List Byte) (c : TreeChild) : Nat :=
  let d := x.dist centre c.centre
  if d = 0 then c.radsq else 2 * (d + c.radsq)

/-- One level of nodes over children, 64 to a node (R373). -/
def Index.levelOf (x : Index) (level fromGen first : Nat) (cs : List TreeChild) : List (TreeNode × TreeChild) :=
  (pieces 64 cs.length cs).zipIdx.map fun p =>
    let number := first + p.2
    let centre := (p.1.head?.map (·.centre)).getD []
    ({ number, level, fromGen, children := p.1, fpns := [], place := 0 },
      { number, pocket := false, radsq := p.1.foldl (fun r c => max r (x.radiusOver centre c)) 0, centre })

/-- Levels up to one root (R373). -/
def Index.treeOf (x : Index) (fromGen : Nat) : Nat → Nat → Nat → List TreeChild → List TreeNode × Option Nat
  | 0, _, _, _ => ([], none)
  | k + 1, level, first, cs =>
    let l := x.levelOf level fromGen first cs
    match l with
    | [] => ([], none)
    | [t] => ([t.1], some t.1.number)
    | _ =>
      let r := x.treeOf fromGen k (level + 1) (first + l.length) (l.map (·.2))
      (l.map (·.1) ++ r.1, r.2)

/-- Flash pages of a node (R373). -/
def Index.nodePages (x : Index) : Nat := (x.nodeSize + 16383) / 16384

/-- The pages of a pocket were written by a version. -/
def Pocket.newIn (p : Pocket) (g : Nat) : Bool := p.pages.any fun x => x.fromGen = g

/-- Flash pages that a version takes: those of its own pockets and of its nodes (R373 to R375). -/
def Version.ownPages (v : Version) : Nat := ((v.pockets.filter fun p => p.newIn v.fromGen).map fun p => p.pages.length).sum
def Version.pageCount (v : Version) (x : Index) : Nat := v.ownPages + v.nodes.length * x.nodePages

/-- Bytes that the copies a version writes take in LPDDR-6, each in whole lines (R373, R374). -/
def roundLine (n : Nat) : Nat := (n + 127) / 128 * 128
def Version.areaCount (v : Version) (x : Index) : Nat :=
  v.nodes.length * roundLine x.nodeSize + (v.pockets.filter fun p => p.fromGen = v.fromGen).length * roundLine x.headerSize

/-- Give the pages a version wrote their flash pages, in order. -/
def placePockets (g : Nat) : List Nat → List Pocket → List Pocket
  | _, [] => []
  | fs, p :: ps =>
    if p.newIn g then
      { p with pages := (p.pages.zip fs).map fun x => { x.1 with fpn := x.2 } } :: placePockets g (fs.drop p.pages.length) ps
    else p :: placePockets g fs ps

/-- Give the headers a version wrote their places, in order. -/
def placeHeaders (g size : Nat) : Nat → List Pocket → List Pocket
  | _, [] => []
  | a, p :: ps => if p.fromGen = g then { p with place := a } :: placeHeaders g size (a + size) ps else p :: placeHeaders g size a ps

/-- A version with its flash pages, and the places of its copies from `area` up: the nodes, then the headers it wrote. -/
def Version.place (v : Version) (x : Index) (fs : List Nat) (area : Nat) : Version :=
  let size := roundLine x.nodeSize
  { v with
    pockets := placeHeaders v.fromGen (roundLine x.headerSize) (area + v.nodes.length * size) (placePockets v.fromGen fs v.pockets)
    nodes := v.nodes.zipIdx.map fun t =>
      { t.1 with fpns := (fs.drop (v.ownPages + t.2 * x.nodePages)).take x.nodePages, place := area + t.2 * size } }

/-- The numbers that no pocket of a list has, lowest first. -/
def freeNumbers (ps : List Pocket) (n : Nat) : List Nat :=
  ((List.range (n + ps.length)).filter fun i => !(ps.any fun p => p.number = i)).take n

/-- The seams of a pocket of a version; a header whose seams change is written anew (R374, R375, R383; notes/assumptions/34). -/
def Pocket.sewn (p : Pocket) (all : List Nat) (s : Nat) : Pocket :=
  let near := all.filter (· ≠ p.number)
  let seams := near.take 16 ++ List.replicate (16 - near.length) 0xFFFF_FFFF
  if seams = p.seams then p else { p with seams, fromGen := s }

/-- The version a pass builds (R383), before what it writes has a place: the pockets that stand, and new ones of what it places. -/
def Index.build (x : Index) (cut s : Nat) : Version :=
  let ms := x.absorbed cut
  let old := x.latest.pockets.filter (x.stands cut)
  let cuts := pieces (256 * x.perPage) ms.length ms
  let ps := old ++ ((freeNumbers old cuts.length).zip cuts).map fun p => x.pocketOf p.1 s p.2
  let ps := ps.map fun p => p.sewn (ps.map (·.number)) s
  let t := x.treeOf s 16 1 0 (ps.map fun p => { number := p.number, pocket := true, radsq := p.radsq, centre := p.centre })
  { fromGen := s, cut, root := t.2, nodes := t.1, pockets := ps }

/-- A pass whose reads are done switches, where fewer than 8 versions are live (R383). -/
def State.switchPass (s : State) (h : Nat) (x : Index) : State :=
  match x.pass with
  | none => s
  | some p =>
    if p.reads ≠ 0 || 8 ≤ x.versions.length then s
    else
      let g := x.gen + 1
      let v := x.build p.cut g
      let (fs, s) := s.takePages (v.pageCount x)
      let (area, s) := s.takeArea (v.areaCount x)
      let v := v.place x fs area
      let (pages, budget) := x.resize.getD (x.logPages, x.budget)
      let x1 := { x with gen := g, versions := x.versions ++ [v], pass := none, logPages := pages, budget,
                         resize := none }
      let s1 := ((s.keepCopies x v).setIdx h (x1.count kDarns 1)).traceEvent h 4 x.home 0 0 g
      p.cmds.foldl (fun s u => s.endCmd u kOk g 0) s1

/-- DARN_SWITCH (R383). -/
def execDarnSwitch (handle : Nat) (s : State) : Host.Outcome State Fault Refusal :=
  onHandle s handle fun x => s.switchPass handle x

/-- A query or key-value fetch still uses a version (R372). -/
def State.versionUsed (s : State) (h : Nat) (x : Index) (v : Version) : Bool :=
  s.retr.cmds.any fun c => c.handle = h && c.accepted && c.result.isNone &&
    (match c.query with
    | some q => (x.versionAt q.gen).fromGen = v.fromGen
    | none => c.op = opKvf && (x.versionAt c.gen).fromGen = v.fromGen)

/-- VERSION_RECLAIM (R372, R383 step 4). -/
def execVersionReclaim (handle : Nat) (s : State) : Host.Outcome State Fault Refusal :=
  onHandle s handle fun x =>
    let vs := x.versions.filter fun v => v.fromGen = x.latest.fromGen || s.versionUsed handle x v
    let cut := vs.foldl (fun c v => min c v.cut) x.latest.cut
    let log := x.log.filter fun e => match e.gen with
      | some n => cut < n
      | none => true
    s.setIdx handle { x with versions := vs, log, logFpns := x.logFpns.filter fun p =>
      p.1 = x.hposNext / x.perPage || log.any fun e => x.logPage e = p.1 }

/-- Steps 3 to 5 of R389. -/
def State.fetchObject (s : State) (c : RetrCmd) (x : Index) : State :=
  match x.objectAt c.id c.blockNo c.gen with
  | none => s.endCmd c.uid kAbsent (s.freeField c 12) c.out
  | some (bs, _) =>
    let (s1, _) := s.dieWrite (dieBytes c.out (bs.take 65536))
    match s1.dieWrite (dieBytes c.tablePa (natBytes 16 (2 ^ 63 + c.out + c.gen * 2 ^ 64))) with
    | (s2, []) => s2.endCmd c.uid kOk c.gen c.out
    | (s2, _ :: _) => s2.endCmd c.uid kPoison (s.freeField c 12) c.out

/-- Reads of a key-value fetch are still to come (R384). -/
def State.fetching (s : State) (uid : Nat) : Bool := s.retr.reads.any fun r => r.kind = .object && r.cmds = [uid]

/-- A key-value fetch of a controller has its object's pages, or is killed. -/
def State.kvfDue (s : State) (controller : Nat) (c : RetrCmd) : Bool :=
  c.op = opKvf && c.accepted && c.result.isNone && ((s.idx c.handle).any fun x => x.home = controller) && (c.killed || !s.fetching c.uid)

/-- KVF_FETCH (R389): a fetch of a controller whose object's pages have been read; which of several comes first is open (R384). -/
def execKvfFetch (controller place : Nat) (s : State) : Host.Outcome State Fault Refusal :=
  if 16 ≤ controller then .refused .noSuchPlace
  else match (s.retr.cmds.filter (s.kvfDue controller))[place]? with
    | none => .next s
    | some c =>
      match s.idx c.handle with
      | none => .next s
      | some x =>
        .next (if c.killed then (s.dropReads c.uid).endCmd c.uid kKilled (s.freeField c 12) c.out else s.fetchObject c x)

/-- The words of a completion (R390). -/
def RetrCmd.entry (c : RetrCmd) (r : Completion) : List Byte :=
  natBytes 8 (r.status * 2 ^ 56 + c.op % 256 * 2 ^ 48 + c.seq) ++ natBytes 8 c.user ++ natBytes 8 r.gen ++ natBytes 8 r.aux

/-- The ring of a command has room (R390). -/
def State.ringRoom (s : State) (c : RetrCmd) : Bool :=
  (s.peek (c.ringPa + 0x10) 8 + 2 ^ 64 - s.peek (c.ringPa + 0x20) 8) % 2 ^ 64 < (s.ringDesc c.ringPa).slots

/-- A completion is dropped (R390; 17 R430). -/
def State.dropCompletion (s : State) (c : RetrCmd) (va : Nat) : State :=
  let err := s.peek (c.ringPa + 0x28) 8
  let n := min (bits err 62 48 + 1) 0x7FFF
  (s.diePut (c.ringPa + 0x28) 8 (2 ^ 63 + n * 2 ^ 48 + va % 2 ^ 48)).logFault scopeTask causeRing (some c.part) noQueue c.region c.task va

/-- A completion is written, or dropped, and its command is gone (R390). -/
def State.writeCompletion (s : State) (c : RetrCmd) (r : Completion) : State :=
  let s := s.noteRead c.ringPa 64
  let d := s.ringDesc c.ringPa
  let w := s.peek (c.ringPa + 0x10) 8
  let va := d.base + 32 * (w % d.slots)
  let s1 := match s.ctlPlace c.part va .write with
    | (none, s1) => s1.dropCompletion c va
    | (some pa, s1) => ((s1.dieWrite (dieBytes pa (c.entry r))).1).diePut (c.ringPa + 0x10) 8 ((w + 1) % 2 ^ 64)
  s1.setRetr { s1.retr with cmds := s1.retr.cmds.filter fun x => x.uid ≠ c.uid }

/-- The controller that completes a command: its index's, or 0 where there is none. -/
def State.ctlOf (s : State) (c : RetrCmd) : Nat := ((s.idx c.handle).map (·.home)).getD 0

/-- COMPLETION_WRITE (R390): the oldest completion of a controller whose ring has room. -/
def execCompletionWrite (controller : Nat) (s : State) : Host.Outcome State Fault Refusal :=
  if 16 ≤ controller then .refused .noSuchPlace
  else match s.retr.cmds.find? fun c => c.result.isSome && s.ctlOf c = controller && s.ringRoom c with
    | none => .next s
    | some c => match c.result with
      | some r => .next (s.writeCompletion c r)
      | none => .next s

end Sys2Proof.Machine
end

