-- ==== Sys2Proof/Machine/Walk.lean ====
section
/-! DEFINITION. Fetch: the instruction cache and its fills (02 R64, R65), and the fills that run beside the streams: block-cache
lines, generators and page walks (05 R164, R169; 13 R338, R340). -/

namespace Sys2Proof.Machine

/-- ICACHE_FILL (R64). -/
def execIcacheFill (core line : Nat) (s : State) : Host.Outcome State Fault Refusal := s.atCore core fun s => s.fillCapture line

/-- The first missing line of a block that is still filling (R169). -/
def Core.nextFill (k : Core) (t : BlockTag) : Option Nat :=
  if t.complete then none else t.plines.find? fun p => (k.lineOf p).isNone

/-- One line of a block fills, if it is the block's next; the last sets the completion flag (R169). -/
def State.fillBlockLine (s : State) (line : Nat) : State :=
  match s.here.blocks.find? fun t => s.here.nextFill t = some line with
  | none => s
  | some t =>
    let s1 := s.fillLine s.focus line
    let k := s1.here
    if (k.nextFill t).isSome then s1
    else s1.setHere { k with blocks := k.blocks.map fun u => if u = t then { u with complete := true } else u }

/-- BLOCK_CACHE_FILL (R169). -/
def execBlockCacheFill (core line : Nat) (s : State) : Host.Outcome State Fault Refusal :=
  s.atCore core fun s => s.fillBlockLine line

/-- Entries a generator may hold: four vectors or one tile (R281). -/
def Nest.maxAhead (r : Nest) : Nat := if r.planeWalk then 1 else 4

/-- A generator reads one entry ahead of its readers (R164). -/
def State.generatorRead (s : State) (port : Nat) : State :=
  let p := s.ctx.port port
  if p.ahead.length < (Nest.ofBits p.record).maxAhead then s.fillPort port (p.ahead.length + 1) else s

/-- GENERATOR_READ (R164): of the running context. -/
def execGeneratorRead (core port : Nat) (s : State) : Host.Outcome State Fault Refusal :=
  if 8 ≤ port then .refused .noSuchPlace else s.atCore core fun s => if s.ctx.moves then s.generatorRead port else s

/-- PAGE_WALK (R338, R340): a walker answers a TLB miss of a core; what it finds enters the TLBs. -/
def execPageWalk (core addr : Nat) (s : State) : Host.Outcome State Fault Refusal :=
  s.atCore core fun s => (s.translate s.focus s.asn addr .read).2

end Sys2Proof.Machine
end

