-- ==== Sys2Proof/Machine/Dispatch.lean ====
section
/-! DEFINITION. The meaning of every instruction, event and command: one arm per constructor, one direct call each. -/

namespace Sys2Proof.Machine

def exec (i : Instr) (s : State) : Host.Outcome State Fault Refusal :=
  match i with
  | .nop w => Sys2Proof.Machine.execNop w s
  | .add w => Sys2Proof.Machine.execAdd w s
  | .sub w => Sys2Proof.Machine.execSub w s
  | .and w => Sys2Proof.Machine.execAnd w s
  | .or w => Sys2Proof.Machine.execOr w s
  | .xor w => Sys2Proof.Machine.execXor w s
  | .andn w => Sys2Proof.Machine.execAndn w s
  | .shl w => Sys2Proof.Machine.execShl w s
  | .shrl w => Sys2Proof.Machine.execShrl w s
  | .shra w => Sys2Proof.Machine.execShra w s
  | .min w => Sys2Proof.Machine.execMin w s
  | .max w => Sys2Proof.Machine.execMax w s
  | .minn w => Sys2Proof.Machine.execMinn w s
  | .maxn w => Sys2Proof.Machine.execMaxn w s
  | .sel w => Sys2Proof.Machine.execSel w s
  | .mov w => Sys2Proof.Machine.execMov w s
  | .mul w => Sys2Proof.Machine.execMul w s
  | .mulh w => Sys2Proof.Machine.execMulh w s
  | .mulhn w => Sys2Proof.Machine.execMulhn w s
  | .div w => Sys2Proof.Machine.execDiv w s
  | .divn w => Sys2Proof.Machine.execDivn w s
  | .rem w => Sys2Proof.Machine.execRem w s
  | .remn w => Sys2Proof.Machine.execRemn w s
  | .clz w => Sys2Proof.Machine.execClz w s
  | .ctz w => Sys2Proof.Machine.execCtz w s
  | .popc w => Sys2Proof.Machine.execPopc w s
  | .sext w => Sys2Proof.Machine.execSext w s
  | .cmpeq w => Sys2Proof.Machine.execCmpeq w s
  | .cmpne w => Sys2Proof.Machine.execCmpne w s
  | .cmplt w => Sys2Proof.Machine.execCmplt w s
  | .cmple w => Sys2Proof.Machine.execCmple w s
  | .cmpltn w => Sys2Proof.Machine.execCmpltn w s
  | .cmplen w => Sys2Proof.Machine.execCmplen w s
  | .addi w => Sys2Proof.Machine.execAddi w s
  | .andi w => Sys2Proof.Machine.execAndi w s
  | .ori w => Sys2Proof.Machine.execOri w s
  | .xori w => Sys2Proof.Machine.execXori w s
  | .shli w => Sys2Proof.Machine.execShli w s
  | .shrli w => Sys2Proof.Machine.execShrli w s
  | .shrai w => Sys2Proof.Machine.execShrai w s
  | .movi w => Sys2Proof.Machine.execMovi w s
  | .movhi w => Sys2Proof.Machine.execMovhi w s
  | .cmpeqi w => Sys2Proof.Machine.execCmpeqi w s
  | .cmplti w => Sys2Proof.Machine.execCmplti w s
  | .cmpltni w => Sys2Proof.Machine.execCmpltni w s
  | .muli w => Sys2Proof.Machine.execMuli w s
  | .lea w => Sys2Proof.Machine.execLea w s
  | .pcadd w => Sys2Proof.Machine.execPcadd w s
  | .ld8 w => Sys2Proof.Machine.execLd8 w s
  | .ld8s w => Sys2Proof.Machine.execLd8s w s
  | .ld16 w => Sys2Proof.Machine.execLd16 w s
  | .ld16s w => Sys2Proof.Machine.execLd16s w s
  | .ld32 w => Sys2Proof.Machine.execLd32 w s
  | .ld32s w => Sys2Proof.Machine.execLd32s w s
  | .ld64 w => Sys2Proof.Machine.execLd64 w s
  | .st8 w => Sys2Proof.Machine.execSt8 w s
  | .st16 w => Sys2Proof.Machine.execSt16 w s
  | .st32 w => Sys2Proof.Machine.execSt32 w s
  | .st64 w => Sys2Proof.Machine.execSt64 w s
  | .ldlk w => Sys2Proof.Machine.execLdlk w s
  | .stul w => Sys2Proof.Machine.execStul w s
  | .ldblk w => Sys2Proof.Machine.execLdblk w s
  | .amoadd w => Sys2Proof.Machine.execAmoadd w s
  | .amoand w => Sys2Proof.Machine.execAmoand w s
  | .amoor w => Sys2Proof.Machine.execAmoor w s
  | .amoxor w => Sys2Proof.Machine.execAmoxor w s
  | .amomin w => Sys2Proof.Machine.execAmomin w s
  | .amomax w => Sys2Proof.Machine.execAmomax w s
  | .amoswp w => Sys2Proof.Machine.execAmoswp w s
  | .amocas w => Sys2Proof.Machine.execAmocas w s
  | .br w => Sys2Proof.Machine.execBr w s
  | .bt w => Sys2Proof.Machine.execBt w s
  | .bf w => Sys2Proof.Machine.execBf w s
  | .jr w => Sys2Proof.Machine.execJr w s
  | .loop w => Sys2Proof.Machine.execLoop w s
  | .done w => Sys2Proof.Machine.execDone w s
  | .modex w => Sys2Proof.Machine.execModex w s
  | .modei w => Sys2Proof.Machine.execModei w s
  | .trap w => Sys2Proof.Machine.execTrap w s
  | .eret w => Sys2Proof.Machine.execEret w s
  | .brk w => Sys2Proof.Machine.execBrk w s
  | .mfsr w => Sys2Proof.Machine.execMfsr w s
  | .mtsr w => Sys2Proof.Machine.execMtsr w s
  | .post w => Sys2Proof.Machine.execPost w s
  | .await w => Sys2Proof.Machine.execAwait w s
  | .awaitp w => Sys2Proof.Machine.execAwaitp w s
  | .tksend w => Sys2Proof.Machine.execTksend w s
  | .bind w => Sys2Proof.Machine.execBind w s
  | .acqX w => Sys2Proof.Machine.execAcqX w s
  | .acqS w => Sys2Proof.Machine.execAcqS w s
  | .rel w => Sys2Proof.Machine.execRel w s
  | .fence w => Sys2Proof.Machine.execFence w s
  | .publish w => Sys2Proof.Machine.execPublish w s
  | .icflush w => Sys2Proof.Machine.execIcflush w s
  | .cbsync w => Sys2Proof.Machine.execCbsync w s
  | .xsched w => Sys2Proof.Machine.execXsched w s
  | .xstage w => Sys2Proof.Machine.execXstage w s
  | .ringset w => Sys2Proof.Machine.execRingset w s
  | .awfill w => Sys2Proof.Machine.execAwfill w s
  | .rlslot w => Sys2Proof.Machine.execRlslot w s
  | .xstat w => Sys2Proof.Machine.execXstat w s
  | .vadd w => Sys2Proof.Machine.execVadd w s
  | .vsub w => Sys2Proof.Machine.execVsub w s
  | .vmul w => Sys2Proof.Machine.execVmul w s
  | .vfma w => Sys2Proof.Machine.execVfma w s
  | .vfms w => Sys2Proof.Machine.execVfms w s
  | .vmin w => Sys2Proof.Machine.execVmin w s
  | .vmax w => Sys2Proof.Machine.execVmax w s
  | .vabs w => Sys2Proof.Machine.execVabs w s
  | .vneg w => Sys2Proof.Machine.execVneg w s
  | .vadds w => Sys2Proof.Machine.execVadds w s
  | .vsubs w => Sys2Proof.Machine.execVsubs w s
  | .vmulh w => Sys2Proof.Machine.execVmulh w s
  | .vdiv w => Sys2Proof.Machine.execVdiv w s
  | .vsqrt w => Sys2Proof.Machine.execVsqrt w s
  | .vrcp w => Sys2Proof.Machine.execVrcp w s
  | .vrsq w => Sys2Proof.Machine.execVrsq w s
  | .vexp2 w => Sys2Proof.Machine.execVexp2 w s
  | .vlog2 w => Sys2Proof.Machine.execVlog2 w s
  | .vand w => Sys2Proof.Machine.execVand w s
  | .vor w => Sys2Proof.Machine.execVor w s
  | .vxor w => Sys2Proof.Machine.execVxor w s
  | .vshl w => Sys2Proof.Machine.execVshl w s
  | .vshrl w => Sys2Proof.Machine.execVshrl w s
  | .vshra w => Sys2Proof.Machine.execVshra w s
  | .vsel w => Sys2Proof.Machine.execVsel w s
  | .vcmpeq w => Sys2Proof.Machine.execVcmpeq w s
  | .vcmpne w => Sys2Proof.Machine.execVcmpne w s
  | .vcmplt w => Sys2Proof.Machine.execVcmplt w s
  | .vcmple w => Sys2Proof.Machine.execVcmple w s
  | .vclass w => Sys2Proof.Machine.execVclass w s
  | .vcvt w => Sys2Proof.Machine.execVcvt w s
  | .vmov w => Sys2Proof.Machine.execVmov w s
  | .vbcast w => Sys2Proof.Machine.execVbcast w s
  | .vextr w => Sys2Proof.Machine.execVextr w s
  | .vins w => Sys2Proof.Machine.execVins w s
  | .vcomp w => Sys2Proof.Machine.execVcomp w s
  | .vexpd w => Sys2Proof.Machine.execVexpd w s
  | .vperm w => Sys2Proof.Machine.execVperm w s
  | .viota w => Sys2Proof.Machine.execViota w s
  | .vredadd w => Sys2Proof.Machine.execVredadd w s
  | .vredmax w => Sys2Proof.Machine.execVredmax w s
  | .vredmin w => Sys2Proof.Machine.execVredmin w s
  | .kand w => Sys2Proof.Machine.execKand w s
  | .kor w => Sys2Proof.Machine.execKor w s
  | .kxor w => Sys2Proof.Machine.execKxor w s
  | .knot w => Sys2Proof.Machine.execKnot w s
  | .kmov w => Sys2Proof.Machine.execKmov w s
  | .kpop w => Sys2Proof.Machine.execKpop w s
  | .vld w => Sys2Proof.Machine.execVld w s
  | .vst w => Sys2Proof.Machine.execVst w s
  | .vlds w => Sys2Proof.Machine.execVlds w s
  | .vsts w => Sys2Proof.Machine.execVsts w s
  | .vgath w => Sys2Proof.Machine.execVgath w s
  | .vscat w => Sys2Proof.Machine.execVscat w s
  | .vscatadd w => Sys2Proof.Machine.execVscatadd w s
  | .vspill w => Sys2Proof.Machine.execVspill w s
  | .vfill w => Sys2Proof.Machine.execVfill w s
  | .vldp w => Sys2Proof.Machine.execVldp w s
  | .vstp w => Sys2Proof.Machine.execVstp w s
  | .pset w => Sys2Proof.Machine.execPset w s
  | .nld w => Sys2Proof.Machine.execNld w s
  | .nst w => Sys2Proof.Machine.execNst w s
  | .tmma w => Sys2Proof.Machine.execTmma w s
  | .tfmul w => Sys2Proof.Machine.execTfmul w s
  | .tfadd w => Sys2Proof.Machine.execTfadd w s
  | .tpmul w => Sys2Proof.Machine.execTpmul w s
  | .tadd w => Sys2Proof.Machine.execTadd w s
  | .trecmp w => Sys2Proof.Machine.execTrecmp w s
  | .tfact w => Sys2Proof.Machine.execTfact w s
  | .tzero w => Sys2Proof.Machine.execTzero w s
  | .tmov w => Sys2Proof.Machine.execTmov w s
  | .tld w => Sys2Proof.Machine.execTld w s
  | .tst w => Sys2Proof.Machine.execTst w s
  | .trdrow w => Sys2Proof.Machine.execTrdrow w s
  | .twrrow w => Sys2Proof.Machine.execTwrrow w s
  | .tdense w => Sys2Proof.Machine.execTdense w s
  | .trank w => Sys2Proof.Machine.execTrank w s
  | .tlimit w => Sys2Proof.Machine.execTlimit w s
  | .tpred w => Sys2Proof.Machine.execTpred w s
  | .tfree w => Sys2Proof.Machine.execTfree w s
  | .spawn w => Sys2Proof.Machine.execSpawn w s
  | .spawnj w => Sys2Proof.Machine.execSpawnj w s
  | .sigj w => Sys2Proof.Machine.execSigj w s
  | .enq w => Sys2Proof.Machine.execEnq w s
  | .jstat w => Sys2Proof.Machine.execJstat w s
  | .yield w => Sys2Proof.Machine.execYield w s
  | .rgnnew w => Sys2Proof.Machine.execRgnnew w s
  | .rgnset w => Sys2Proof.Machine.execRgnset w s
  | .rgnget w => Sys2Proof.Machine.execRgnget w s
  | .rgnkill w => Sys2Proof.Machine.execRgnkill w s
  | .pxpush w => Sys2Proof.Machine.execPxpush w s
  | .pxflush w => Sys2Proof.Machine.execPxflush w s
  | .srch w => Sys2Proof.Machine.execSrch w s
  | .ins w => Sys2Proof.Machine.execIns w s
  | .del w => Sys2Proof.Machine.execDel w s
  | .kvf w => Sys2Proof.Machine.execKvf w s
  | .darn w => Sys2Proof.Machine.execDarn w s
  | .rpop w => Sys2Proof.Machine.execRpop w s
  | .rstat w => Sys2Proof.Machine.execRstat w s
  | .genq w => Sys2Proof.Machine.execGenq w s
  | .resultLand core => Sys2Proof.Machine.execResultLand core s
  | .modeBarrierPass core => Sys2Proof.Machine.execModeBarrierPass core s
  | .taskComplete core => Sys2Proof.Machine.execTaskComplete core s
  | .eretReturn core => Sys2Proof.Machine.execEretReturn core s
  | .icacheFill core line => Sys2Proof.Machine.execIcacheFill core line s
  | .timerFire core => Sys2Proof.Machine.execTimerFire core s
  | .trapEntry core => Sys2Proof.Machine.execTrapEntry core s
  | .guardGrant guard => Sys2Proof.Machine.execGuardGrant guard s
  | .lockRetry core stream => Sys2Proof.Machine.execLockRetry core stream s
  | .blockCacheFill core line => Sys2Proof.Machine.execBlockCacheFill core line s
  | .generatorRead core port => Sys2Proof.Machine.execGeneratorRead core port s
  | .matrixStep core => Sys2Proof.Machine.execMatrixStep core s
  | .pageWalk core addr => Sys2Proof.Machine.execPageWalk core addr s
  | .recordStart core => Sys2Proof.Machine.execRecordStart core s
  | .sequencerUnit core => Sys2Proof.Machine.execSequencerUnit core s
  | .recordComplete core => Sys2Proof.Machine.execRecordComplete core s
  | .preempt core => Sys2Proof.Machine.execPreempt core s
  | .contextSave core => Sys2Proof.Machine.execContextSave core s
  | .contextRestore core => Sys2Proof.Machine.execContextRestore core s
  | .arm core slot cycle triggers => Sys2Proof.Machine.execArm core slot cycle triggers s
  | .disarm core slot => Sys2Proof.Machine.execDisarm core slot s
  | .halt core slot => Sys2Proof.Machine.execHalt core slot s
  | .dbgRead core slot item => Sys2Proof.Machine.execDbgRead core slot item s
  | .dbgWrite core slot item value => Sys2Proof.Machine.execDbgWrite core slot item value s
  | .resume core slot => Sys2Proof.Machine.execResume core slot s
  | .dbgStep core slot count => Sys2Proof.Machine.execDbgStep core slot count s
  | .clrprof core slot => Sys2Proof.Machine.execClrprof core slot s
  | .debugStop core => Sys2Proof.Machine.execDebugStop core s
  | .patch part addr bytes => Sys2Proof.Machine.execPatch part addr bytes s
  | .placement core => Sys2Proof.Machine.execPlacement core s
  | .recordMove cluster => Sys2Proof.Machine.execRecordMove cluster s
  | .balanceEpoch cluster => Sys2Proof.Machine.execBalanceEpoch cluster s
  | .proxyForward part desc => Sys2Proof.Machine.execProxyForward part desc s
  | .proxyAccept cluster entries => Sys2Proof.Machine.execProxyAccept cluster entries s
  | .proxyLoss part desc => Sys2Proof.Machine.execProxyLoss part desc s
  | .llcOperation addr access => Sys2Proof.Machine.execLlcOperation addr access s
  | .ctrl slice value => Sys2Proof.Machine.execCtrl slice value s
  | .tlbinv value => Sys2Proof.Machine.execTlbinv value s
  | .tlbinvst value => Sys2Proof.Machine.execTlbinvst value s
  | .tlbInvalidation => Sys2Proof.Machine.execTlbInvalidation s
  | .reserve gang cluster => Sys2Proof.Machine.execReserve gang cluster s
  | .commit gang cluster time => Sys2Proof.Machine.execCommit gang cluster time s
  | .rollback gang cluster => Sys2Proof.Machine.execRollback gang cluster s
  | .gangStart gang cluster => Sys2Proof.Machine.execGangStart gang cluster s
  | .gangTimeout gang => Sys2Proof.Machine.execGangTimeout gang s
  | .commandAccept => Sys2Proof.Machine.execCommandAccept s
  | .flashRead controller ok => Sys2Proof.Machine.execFlashRead controller ok s
  | .traversalStep controller => Sys2Proof.Machine.execTraversalStep controller s
  | .batchRelease controller => Sys2Proof.Machine.execBatchRelease controller s
  | .appendCommit handle => Sys2Proof.Machine.execAppendCommit handle s
  | .darningPass handle => Sys2Proof.Machine.execDarningPass handle s
  | .darnSwitch handle => Sys2Proof.Machine.execDarnSwitch handle s
  | .versionReclaim handle => Sys2Proof.Machine.execVersionReclaim handle s
  | .kvfFetch controller place => Sys2Proof.Machine.execKvfFetch controller place s
  | .completionWrite controller => Sys2Proof.Machine.execCompletionWrite controller s
  | .registerWrite offset value => Sys2Proof.Machine.execRegisterWrite offset value s
  | .mgmtdb value => Sys2Proof.Machine.execMgmtdb value s
  | .reboot value => Sys2Proof.Machine.execReboot value s
  | .preset value => Sys2Proof.Machine.execPreset value s
  | .modreset value => Sys2Proof.Machine.execModreset value s
  | .doorbell queue value => Sys2Proof.Machine.execDoorbell queue value s
  | .hostAccess addr size data => Sys2Proof.Machine.execHostAccess addr size data s
  | .nopPacket queue => Sys2Proof.Machine.execNopPacket queue s
  | .launch queue => Sys2Proof.Machine.execLaunch queue s
  | .ib queue => Sys2Proof.Machine.execIb queue s
  | .pktPred queue => Sys2Proof.Machine.execPktPred queue s
  | .loopPacket queue => Sys2Proof.Machine.execLoopPacket queue s
  | .waitmem queue => Sys2Proof.Machine.execWaitmem queue s
  | .waitmemPoll queue => Sys2Proof.Machine.execWaitmemPoll queue s
  | .writemem queue => Sys2Proof.Machine.execWritemem queue s
  | .signal queue => Sys2Proof.Machine.execSignal queue s
  | .timestamp queue => Sys2Proof.Machine.execTimestamp queue s
  | .fetchfence queue => Sys2Proof.Machine.execFetchfence queue s
  | .windowFetch queue => Sys2Proof.Machine.execWindowFetch queue s
  | .heartbeat => Sys2Proof.Machine.execHeartbeat s
  | .mittenTakeover => Sys2Proof.Machine.execMittenTakeover s
  | .mittenbeat => Sys2Proof.Machine.execMittenbeat s
  | .crownReturn => Sys2Proof.Machine.execCrownReturn s
  | .gauntletExpiry queue => Sys2Proof.Machine.execGauntletExpiry queue s
  | .resetTimeout part => Sys2Proof.Machine.execResetTimeout part s
  | .partitionDrained part => Sys2Proof.Machine.execPartitionDrained part s
  | .functionLevelReset => Sys2Proof.Machine.execFunctionLevelReset s
  | .perst => Sys2Proof.Machine.execPerst s
  | .powerGood => Sys2Proof.Machine.execPowerGood s
  | .throttle celsius => Sys2Proof.Machine.execThrottle celsius s
  | .mirrorUpdate => Sys2Proof.Machine.execMirrorUpdate s
  | .partset p => Sys2Proof.Machine.execPartset p s
  | .partcmdDrain p => Sys2Proof.Machine.execPartcmdDrain p s
  | .partcmdResume p => Sys2Proof.Machine.execPartcmdResume p s
  | .partcmdReset p => Sys2Proof.Machine.execPartcmdReset p s
  | .partcmdRelease p => Sys2Proof.Machine.execPartcmdRelease p s
  | .rgnroot p => Sys2Proof.Machine.execRgnroot p s
  | .qcreate p => Sys2Proof.Machine.execQcreate p s
  | .qdestroy p => Sys2Proof.Machine.execQdestroy p s
  | .qstart p => Sys2Proof.Machine.execQstart p s
  | .qabort p => Sys2Proof.Machine.execQabort p s
  | .winset p => Sys2Proof.Machine.execWinset p s
  | .winclr p => Sys2Proof.Machine.execWinclr p s
  | .idxcreate p => Sys2Proof.Machine.execIdxcreate p s
  | .idxresize p => Sys2Proof.Machine.execIdxresize p s
  | .idxdestroy p => Sys2Proof.Machine.execIdxdestroy p s
  | .objwrite p => Sys2Proof.Machine.execObjwrite p s
  | .objdrop p => Sys2Proof.Machine.execObjdrop p s
  | .idxclear p => Sys2Proof.Machine.execIdxclear p s
  | .attest p => Sys2Proof.Machine.execAttest p s
  | .fwload p => Sys2Proof.Machine.execFwload p s
  | .keyrevoke p => Sys2Proof.Machine.execKeyrevoke p s
  | .lsgo part value => Sys2Proof.Machine.execLsgo part value s
  | .lsgoLoad => Sys2Proof.Machine.execLsgoLoad s
  | .runEntry link => Sys2Proof.Machine.execRunEntry link s
  | .linkEvent link event => Sys2Proof.Machine.execLinkEvent link event s
  | .powerLoss => Sys2Proof.Machine.execPowerLoss s
  | .coolantFlowFails => Sys2Proof.Machine.execCoolantFlowFails s
  | .hwError scope ident => Sys2Proof.Machine.execHwError scope ident s

end Sys2Proof.Machine
end

