-- ==== Sys2Proof/Machine/CoreStep.lean ====
section
/-! DEFINITION. One step of a core (01 R11 to R30, R41, R44; 02 R48, R64, R65; 04 R125, R126, R142, R146; 09 R267, R276, R280, R284,
R285). The core's `turn` says where it stands in its schedule cycle: 0 the start, k + 1 the turn of stream k, 6 the end
(notes/assumptions/7). -/

namespace Sys2Proof.Machine

/-- An instruction that cannot be fetched or has a reserved length prefix has no internal word: the frame's is a free value
(R65, R269; notes/assumptions/8). -/
def State.unknownWord (s : State) : IWord := (s.freeW 14 ++ s.freeW 15).setWidth 96

/-- A stream traps at its pc on an instruction that has no internal word. -/
def State.raiseUnknown (s : State) (st : Nat) (t : Trap) : State :=
  let s1 := s.raise st s.unknownWord t none
  { s1 with freeCount := s1.freeCount + 1 }

/-- The smallest dynamic position among the streams (R25). -/
def Ctx.leastPos (c : Ctx) : Nat := c.streams.foldl (fun m t => min m t.pos) (c.stream 0).pos

/-- The dynamic position after a RGNKILL in flight of the task's own region, from which no instruction issues (R320). -/
def Ctx.killPos (c : Ctx) : Option Nat :=
  c.flights.findSome? fun f => match f.eff, c.task with
    | .command (.rgnKill i), some t => if i = t.region then some (c.stream f.stream).pos else none
    | .command (.killing i _), some t => if i = t.region then some (c.stream f.stream).pos else none
    | _, _ => none

/-- A stream that may pass no instruction now: it has stopped, is slip-stalled, or stands past the kill of its own region (R24,
R25, R126, R142, R320). -/
def Ctx.holdsStream (c : Ctx) (st : Nat) : Bool :=
  (c.stream st).status ≠ .run || c.leastPos + c.slip ≤ (c.stream st).pos || c.killPos.any fun p => p ≤ (c.stream st).pos

/-- An operation of the stream still waits without bound, or an acquire of it has not landed, in interlocked mode (R133, R449;
notes/assumptions/28). -/
def Ctx.awaits (c : Ctx) (st : Nat) : Bool :=
  !c.exposed && c.flights.any fun f => f.stream = st && (f.eff.unbounded || f.eff.acquires.isSome)

/-- The guard operations, which issue past such a wait (notes/assumptions/28). -/
def guardOp : Instr → Bool
  | .acqX _ => true
  | .acqS _ => true
  | .rel _ => true
  | _ => false

/-- The instruction crosses the end of the loop body it stands in (R125). -/
def Stream.straddles (t : Stream) (len : Nat) : Bool := match t.loops with
  | l :: _ => t.pc < l.stop && l.stop < t.pc + len
  | [] => false

/-- The instruction is an ERET, which no stream skips (R142). -/
def isEret (bs : List Byte) : Bool := match decode bs with
  | .ok (.eret _) => true
  | _ => false

/-- A stream passes an instruction of another stream (R11, R12): no issue cycle, the turn stays. -/
def State.skipOver (s : State) (st len : Nat) : State :=
  let r := s.ctx.stepPast st len
  profileHook (s.setCtx r.1) st r.2

/-- A stream meets the instruction in some bytes (R11, R12, R48). -/
def State.meet (s : State) (st : Nat) (bs : List Byte) : Host.Outcome State Fault Refusal :=
  match decodeHead bs with
  | .error .reservedTag =>
    let w := match bs.head?.bind lenOf with
      | some l => rawWord l bs
      | none => s.unknownWord
    .next (s.raise st w { cause := causeEncoding } none)
  | .error _ => .next (s.raiseUnknown st { cause := causeEncoding })
  | .ok (tag, len) =>
    if (s.ctx.stream st).straddles len.bytes then .next (s.raise st (rawWord len bs) { cause := causeEncoding } none)
    else if tag ≠ .A && tagStream tag ≠ st && !isEret bs then .next (s.skipOver st len.bytes)
    else match decode bs with
      | .error r => .next (s.raise st (rawWord len bs) { cause := r.cause } none)
      | .ok i => if s.ctx.awaits st && !guardOp i then .next (s.passTurn st) else exec i s

/-- The turn of a stream (R11, R25, R65). -/
def State.streamTurn (s : State) (st : Nat) : Host.Outcome State Fault Refusal :=
  if s.ctx.holdsStream st then .next (s.passTurn st)
  else match s.fetch (s.ctx.stream st).pc with
    | (.fault cause a straddle, s1) => .next (s1.raiseUnknown st { cause, addr := some a, straddle })
    | (.bytes bs, s1) => s1.meet st bs

/-- The turns of a cycle from where the core stands, at most `k` instructions passed. -/
def State.turnsLeft : Nat → State → State
  | 0, s => s
  | k + 1, s =>
    if s.here.turn = 0 || 6 ≤ s.here.turn then s
    else match s.streamTurn (s.here.turn - 1) with
      | .next s1 => s1.turnsLeft k
      | _ => s

/-- The transfer sequencer's move of a cycle: the running record completes or performs a unit, or the next record starts (R241,
R260; notes/assumptions/32). -/
def State.engineMove (s : State) : State :=
  if s.canComplete.isSome then s.finishRecord else if s.canUnit.isSome then s.performNext else s.startRecord

/-- With the BRK trigger armed, a cycle in which a stream would issue BRK does not begin: the streams at one are marked and the
debug stop comes first (R285). None where no stream would. -/
def State.brkAhead (s : State) : Option State :=
  let c := s.ctx
  if !c.dbg.brk then none
  else
    let s1 := s.engineMove
    let t := ((s1.setHere { s1.here with turn := 1 }).turnsLeft (5 * (c.slip + 2))).ctx
    if !t.dbg.halt then none
    else
      let marked := (List.range 5).foldl (fun (c : Ctx) st =>
        if (t.stream st).passBrk then c.setStream st { c.stream st with passBrk := true } else c) c
      some (s.setCtx { marked with dbg := { marked.dbg with halt := true } })

/-- A stop of the context that has not come about waits for something outside it: the other cores go on. -/
def State.stopOr (s t : State) (still : State → Bool) : State := if s.sameTask t && still t then t.rotate else t

/-- What opens a cycle beside the streams' turns: the completion, the mode barrier or the return that all streams stand at (R24,
R126, R142). The cycle then starts again, so that what is due in it, a timer first, comes before the streams (R141, R146). -/
def State.openCycle (s : State) : Option State :=
  if s.completes then some s.complete
  else if s.barrierReady.isSome then some s.passBarrier
  else if s.returns.isSome then some s.eret
  else none

/-- The landings of a cycle's start, in exposed mode once more after locks and pops that they freed (R19, R167). -/
def State.landCycleStart (s : State) : State :=
  let s1 := s.landNow
  if s1.ctx.exposed && s.sameTask s1 then s1.retryWaits.landDueNow else s1

/-- In exposed mode some operation cannot land at its bound, so that nothing lands and the context freezes (R19, R210): `t` is
the state that the landings would give. -/
def State.stuck (t : State) : Bool := t.ctx.exposed && (t.ctx.flights.any fun f => f.land ≤ t.ctx.cycle) && !t.lands

/-- The freeze of a cycle: the array and the retries go on (R167, R210). -/
def State.freezeCycle (s : State) : State :=
  (s.setCtx s.ctx.stepArray).retryWaits.frozen

/-- A record found invalid at its release faults in the cycle after, also where another fault stops the context then (R240, R276). -/
def State.withRecord (s : State) : State := if s.ctx.recordDue then s.setCtx s.ctx.raiseRecord else s

/-- A context that is frozen, or is about to be: a pre-emption or a debug stop that finds it in its wait stops it there (R280, R284,
R449); else the freeze goes on. -/
def State.stopOrFreeze (s : State) : State :=
  let t := if s.stopsForSave then s.saveContext else if s.debugDue then s.debugStop else s
  if s.sameTask t && t.ctx.faults.isEmpty && !t.ctx.dbg.stopped then t.freezeCycle else t

/-- The start of a schedule cycle (R19, R41, R146, R267, R280, R284, R320): pending faults are taken, then a kill; a late result of
exposed mode freezes the context, and else results land; then the timer, a pre-emption, a debug stop, what all streams stand at, the
sequencer, and the streams. -/
def State.cycleStart (s : State) : State :=
  if !s.ctx.faults.isEmpty then s.stopOr s.withRecord.takeTrap fun t => !t.ctx.faults.isEmpty
  else if s.stopsForKill then s.killContext
  else
    let s1 := s.landCycleStart
    if s.sameTask s1 && s1.stuck then s.stopOrFreeze
    else if !s.sameTask s1 || !s1.ctx.faults.isEmpty || (s1.ctx.exposed && s1.lands) then s1
    else if s1.ctx.recordDue then s1.withRecord
    else if s1.timerDue then s1.fireTimer
    else if s1.stopsForSave then s1.stopOr s1.saveContext State.stopsForSave
    else if s1.debugDue then s1.stopOr s1.debugStop State.debugDue
    else match s1.openCycle.orElse fun _ => s1.brkAhead with
      | some s2 => s2
      | none =>
        let s2 := s1.engineMove
        if s2.ctx.faults.isEmpty then s2.setHere { s2.here with turn := 1 } else s2

/-- The end of a schedule cycle. -/
def State.cycleEnd (s : State) : State :=
  let s1 := s.endProfile.setCtx { s.endProfile.ctx with cycle := s.ctx.cycle + 1 }
  (s1.setHere { s1.here with turn := 0 }).rotate

/-- A device access in flight that no rule describes (R335). -/
def Ctx.unknownDevice (c : Ctx) : Option Nat := c.flights.findSome? fun f => f.eff.devUnknown

/-- One step of a core. -/
def coreStep (n : Nat) (s : State) : Host.Outcome State Fault Refusal :=
  if 128 ≤ n then .refused .noSuchPlace
  else
    let s := { s with focus := n }
    if !s.ctx.moves then .next s.rotate
    else match s.ctx.unknownDevice with
      | some pa => .fault (.deviceUnspecified pa)
      | none =>
        let k := s.here.turn
        if k = 0 then .next s.cycleStart
        else if 6 ≤ k then .next s.cycleEnd
        else s.streamTurn (k - 1)

end Sys2Proof.Machine
end

