-- ==== Sys2Proof/Machine/Auto.lean ====
section
/-! DEFINITION. The moves that the agents of the module make by themselves, in one fixed order, where the agenda asks for none
(notes/assumptions/7): each is enabled by the state alone. -/

namespace Sys2Proof.Machine

/-- What a step answers. -/
abbrev Out := Host.Outcome State Fault Refusal

/-- What some candidates offer first. -/
def firstOf {α β : Type} (l : List α) (f : α → Option β) : Option β := l.findSome? f

/-- A move if it is enabled. -/
def offerIf (b : Bool) (f : State → Out) (s : State) : Option Out := if b then some (f s) else none

/-- Guards and the TLBs of the die (R133, R342). -/
def State.autoDie (s : State) : Option Out :=
  (firstOf s.die.guardReqs fun r => offerIf (s.die.grantable r.guard).isSome (execGuardGrant r.guard) s).orElse fun _ =>
    offerIf (s.die.tlbQueue.head?.any fun v => !s.oldAccess v) execTlbInvalidation s

/-- A leaf controller accepts the oldest command of its link and performs it: the command's permit returns, and the reply takes one
of its own (R353). -/
def State.acceptLink (s : State) (cluster : Nat) : Out :=
  let k := s.cluster cluster
  match k.link with
  | [] => .next s
  | i :: rest => (match exec i (s.clearLink cluster) with
    | .next t => .next (t.restoreLink cluster rest (k.back ++ [i]))
    | o => o)

/-- The links of the clusters (R353): the Crown takes replies, and the controllers accept commands while a reply permit is left. -/
def State.autoLinks (s : State) : Option Out :=
  (firstOf (List.range 16) fun c => offerIf (!(s.cluster c).back.isEmpty) (fun s => .next (s.takeReply c)) s).orElse fun _ =>
  firstOf (List.range 16) fun c =>
    offerIf (!(s.cluster c).link.isEmpty && 0 < (s.cluster c).replies) (fun s => s.acceptLink c) s

/-- Nothing is in transit over the links of some clusters (R353). -/
def State.linksFree (s : State) (clusters : List Nat) : Bool := clusters.all s.linkFree

/-- Commands on their way to a cluster that a condition names. -/
def State.inTransit (s : State) (cluster : Nat) (p : Instr → Bool) : Nat := ((s.cluster cluster).link.filter p).length

/-- A RESERVE, a COMMIT or a ROLLBACK of a gang. -/
def isReserve (launch : Nat) : Instr → Bool
  | .reserve g _ => g = launch
  | _ => false
def isCommit (launch : Nat) : Instr → Bool
  | .commit g _ _ => g = launch
  | _ => false
def isRollback (launch : Nat) : Instr → Bool
  | .rollback g _ => g = launch
  | _ => false

/-- A cluster with more reserved parts of a gang than commands of a kind on their way to it, and a permit (R353, R354). -/
def State.owed (s : State) (g : Gang) (p : Instr → Bool) : Option Nat := (List.range 16).find? fun c =>
  s.inTransit c p < (g.parts.filter fun x => x.phase = .reserved && x.cluster = c).length && 0 < (s.cluster c).permits

/-- The Crown sends a command (R353). -/
def sendTo (cluster : Nat) (i : Instr) (s : State) : Out := .next (s.sendLink cluster i)

/-- A part that waits at a cluster can be reserved there now: its controller tries again and replies (R353, R354). -/
def State.autoRetry (s : State) (g : Gang) : Option Out :=
  (List.range 16).findSome? fun c =>
    if (s.cluster c).replies = 0 then none
    else (g.first fun p => p.phase = .waiting && p.cluster = c).bind fun x => x.2.kept.bind fun k =>
      if (s.reserveCore x.2 k c).isSome then
        let i : Instr := .reserve g.launch c
        some (.next ((s.answerReserve g.launch c).restoreLink c (s.cluster c).link ((s.cluster c).back ++ [i])))
      else none

/-- RESERVE for the next part, to a cluster of its partition where no part waits, first one that can say more than to wait (R354); one
RESERVE is on its way at a time. -/
def State.autoReserve (s : State) (g : Gang) : Option Out :=
  let open1 (c : Nat) : Bool := 0 < (s.cluster c).permits && (s.reservePart g c).any fun x => x.2.phase = .idle
  let speaks (c : Nat) : Bool := (s.reservePart g c).any fun x => match s.partCheck x.2 with
    | .error _ => true
    | .ok k => (s.reserveCore x.2 k c).isSome
  if (List.range 16).any fun c => 0 < s.inTransit c (isReserve g.launch) then none
  else
    let cs := (List.range 16).filter open1
    ((cs.find? speaks).orElse fun _ => cs.head?).map fun c => sendTo c (.reserve g.launch c) s

/-- The start time a COMMIT carries: the one chosen, while it is far enough ahead, else the earliest at which every COMMIT still to
come is 2 µs ahead (R354; 17 R413; notes/assumptions/51). -/
def Gang.startTime (g : Gang) (now : Nat) : Nat :=
  let t := (g.start.orElse fun _ => g.fabric.bind (·.told)).getD (now + 2000)
  if g.fabric.isSome || now + 2000 ≤ t then t else now + 2000

/-- Replies about a gang that the Crown has still to take (R353). -/
def State.unread (s : State) (g : Gang) : Bool := (List.range 16).any fun c =>
  (s.cluster c).back.any fun i => isReserve g.launch i || isCommit g.launch i || isRollback g.launch i

/-- The Crown's work on a gang (R354, R355). -/
def State.autoGang (s : State) (g : Gang) : Option Out :=
  if s.unread g then none
  else if g.failure.isSome then
    (s.owed g (isRollback g.launch)).elim
      (offerIf (!g.parts.any fun p => p.phase = .reserved) (fun s => .next (s.closeGang g.launch)) s)
      fun c => some (sendTo c (.rollback g.launch c) s)
  else if g.starts s.now then (g.first fun p => p.phase = .committed).map fun x => execGangStart g.launch x.2.cluster s
  else if g.allReserved then
    if (g.start.isSome || s.reserving = some g) && g.mayCommit s.now (g.startTime s.now) then
      (s.owed g (isCommit g.launch)).map fun c => sendTo c (.commit g.launch c (g.startTime s.now)) s
    else none
  else if (g.sent.any fun t => t + 10000000 ≤ s.now) && (g.first fun p => p.phase = .waiting).isSome then some (execGangTimeout g.launch s)
  else if (s.reserving.any fun x => x.launch = g.launch) then (s.autoRetry g).orElse fun _ => s.autoReserve g
  else none

/-- Core cycles of an epoch, in units of time (R312). -/
def epochTime : Nat := 256 * (timeUnit * 5 / 8)

/-- Queues, lists and contexts (R307, R309, R312, R313, R282). -/
def State.autoTasks (s : State) : Option Out :=
  (firstOf (List.range 16) fun c =>
    offerIf ((s.cluster c).oldest.isSome && (s.emptiest c).isSome) (execRecordMove c) s).orElse fun _ =>
  (firstOf (List.range 16) fun c => offerIf (((s.cluster c).epoch + 1) * epochTime ≤ s.time) (execBalanceEpoch c) s).orElse fun _ =>
  (firstOf (List.range 128) fun n =>
    if (s.core n).ready.isEmpty then none
    else (offerIf ((s.nextPlaced n).isSome || s.mayRead n) (execPlacement n) s).orElse fun _ =>
      offerIf ({ s with focus := n }).wantsPreempt (execPreempt n) s).orElse fun _ =>
  (firstOf (List.range 128) fun n =>
    if (s.core n).ready.any fun r => r.saved.isSome then
      firstOf ((List.range 8).map fun j => 8 * clusterOf n + j) fun m => offerIf (s.savedFor m).isSome (execContextRestore m) s
    else none).orElse fun _ =>
  (firstOf s.die.gangs s.autoGang).orElse fun _ => s.autoLinks

/-- Lines of complete blocks still to fill on the focus core (R169). -/
def State.autoFill (s : State) : Option Out :=
  firstOf s.here.blocks fun t => (s.here.nextFill t).map fun l => (execBlockCacheFill s.focus l s)

/-- Proxy queues (R322, R433). -/
def State.autoProxy (s : State) : Option Out :=
  firstOf s.die.proxies fun x =>
    (offerIf (match s.proxyPlace x.part x.desc with
      | some pa => s.proxySends x (s.proxyDesc pa)
      | none => false) (execProxyForward x.part x.desc) s).orElse fun _ => offerIf (s.proxyLost x) (execProxyLoss x.part x.desc) s

/-- What an index asks for (R372, R380, R383). -/
def State.autoIndex (s : State) (h : Nat) (x : Index) : Option Out :=
  (offerIf (x.log.any fun e => e.gen.isNone) (execAppendCommit h) s).orElse fun _ =>
  (offerIf (x.pass.any fun p => p.reads = 0 && x.versions.length < 8) (execDarnSwitch h) s).orElse fun _ =>
  (offerIf (x.pass.isNone && (!x.asked.isEmpty || (!x.paused && x.threshold ≠ 0 && x.threshold < x.unabsorbed))) (execDarningPass h) s).orElse fun _ =>
  offerIf (x.versions.any fun v => v.fromGen ≠ x.latest.fromGen && !s.versionUsed h x v) (execVersionReclaim h) s

/-- The retrieval controllers (R378, R384, R389, R390, R393); a flash read decodes (notes/assumptions/4). -/
def State.autoRetr (s : State) : Option Out :=
  let r := s.retr
  if r.cmds.isEmpty && r.indexes.isEmpty then none
  else
    (offerIf (r.cmds.any fun c => !c.accepted) execCommandAccept s).orElse fun _ =>
    (firstOf r.decoded fun d => some ((execTraversalStep (pageCtl d.fpn) s))).orElse fun _ =>
    (firstOf r.reads fun d => some (execFlashRead (pageCtl d.fpn) true s)).orElse fun _ =>
    (firstOf r.batches fun b => firstOf (List.range 16) fun c => offerIf (s.batchDue c b) (execBatchRelease c) s).orElse fun _ =>
    (firstOf r.cmds fun c => (s.idx c.handle).bind fun x => offerIf (s.kvfDue x.home c) (execKvfFetch x.home 0) s).orElse fun _ =>
    (firstOf r.cmds fun c => offerIf (c.result.isSome && s.ringRoom c) (execCompletionWrite (s.ctlOf c)) s).orElse fun _ =>
    firstOf r.indexes fun p => s.autoIndex p.1 p.2

/-- The packet a queue performs next, where something would come of it (R412, R413, R420). -/
def State.autoPacket (s : State) (q : Nat) (x : Queue) : Option Out :=
  match s.queueNext x with
  | .none => none
  | .fetch => some (execWindowFetch q s)
  | .packet p =>
    if p.kind = 0x00 then some (execNopPacket q s)
    else if p.kind = 0x01 then (match x.progress with
      | .launch ident => if s.launchDone ident then some (execLaunch q s) else none
      | _ => offerIf (s.linksFree (s.clustersOf x.part)) (execLaunch q) s)
    else if p.kind = 0x02 then some (execIb q s)
    else if p.kind = 0x03 then some (execPktPred q s)
    else if p.kind = 0x04 then some (execLoopPacket q s)
    else if p.kind = 0x05 then (match x.progress with
      | .waitmem t => if t + 10000 ≤ s.now then some (execWaitmemPoll q s) else none
      | _ => some (execWaitmem q s))
    else if p.kind = 0x06 then some (execWritemem q s)
    else if p.kind = 0x07 then some (execSignal q s)
    else if p.kind = 0x08 then some (execTimestamp q s)
    else some (execFetchfence q s)

/-- A served queue gives the next one its turn. -/
def State.served (s : State) (q : Nat) : State := s.setHost { s.host with mittenNext := (q + 1) % 1024, servedAt := s.time }
def afterServing (q : Nat) : Out → Out
  | .next t => .next (t.served q)
  | o => o

/-- The queues in turn, one packet in a core cycle; a window that a queue fetches is no packet, so its turn goes on (R420). -/
def State.autoQueue (s : State) : Option Out :=
  let h := s.host
  if s.time ≤ h.servedAt then none
  else
    let qs := (h.queues.filter fun p => h.mittenNext ≤ p.1) ++ h.queues.filter fun p => p.1 < h.mittenNext
    firstOf qs fun p => (s.autoPacket p.1 p.2).map (if s.queueNext p.2 = .fetch then id else afterServing p.1)

/-- Watchdogs, resets and drains (R422 to R424). -/
def State.autoParts (s : State) : Option Out :=
  (firstOf s.host.queues fun p => offerIf (s.expired p.2 && (s.part p.2.part).state.resettable) (execGauntletExpiry p.1) s).orElse fun _ =>
  firstOf (List.range 8) fun p => match (s.part p).state with
    | .resetting =>
      if s.resetIsLate p then some (execResetTimeout p s)
      else if !(s.pstat p).emptied then offerIf (s.linksFree (s.clustersOf p)) (fun s => .next (s.emptyPart p)) s
      else if s.resetSpent p then some (.next (s.finishReset p)) else none
    | .draining => offerIf (s.isDrained p) (execPartitionDrained p) s
    | _ => none

/-- The entry of the management ring that is performed next (R431). -/
def State.mgmtEntry (s : State) : Mgmt :=
  let w (i : Nat) : Nat := s.hostNat (s.host.mgmtBase + 64 * (s.host.mgmtDone % 64) + 8 * i) 8
  { w0 := w 0, w1 := w 1, w2 := w 2, w3 := w 3, w4 := w 4, w5 := w 5, w6 := w 6, w7 := w 7 }

/-- The item a debug entry names by a number and two operands (R283; notes/assumptions/71). -/
def debugItem (kind a b : Nat) : Option DebugItem :=
  if kind = 0 then some (.scalar a b) else if kind = 1 then some (.lane a b) else if kind = 2 then some (.vtag a)
  else if kind = 3 then some (.mask a) else if kind = 4 then some (.nest a) else if kind = 5 then some (.spad a)
  else if kind = 6 then some (.resume a) else if kind = 7 then some (.entry a) else if kind = 8 then some (.ply a)
  else if kind = 9 then some (.area a b) else none

/-- A DEBUG entry as read (R147, R283, R431): the core and slot of its CTXID, its command in the order of R283, the item its operands
name and the value after them; the operands stand at an address, a word each (notes/assumptions/71). -/
structure DebugEntry where
  core  : Nat
  slot  : Nat
  cmd   : Nat
  w0    : Nat
  w1    : Nat
  item  : Option DebugItem
  value : List Nat
  deriving DecidableEq, Repr

def State.debugEntry (s : State) (p : Mgmt) : DebugEntry :=
  let w (i : Nat) : Nat := s.hostNat (p.w4 + 8 * i) 8
  { core := bits p.w1 7 1, slot := bits p.w1 0 0, cmd := p.w3, w0 := w 0, w1 := w 1, item := debugItem (w 0) (w 1) (w 2),
    value := (List.range (min (w 3) 64)).map fun k => w (4 + k) }

/-- Why a DEBUG entry is turned away, or OK (R283, R431; notes/assumptions/71): its operands, a context that holds no task or has not
stopped, an item that is not there or that WRITE refuses. -/
def State.debugStatus (s : State) (p : Mgmt) (e : DebugEntry) : Nat :=
  let c := s.ctxAt e.core e.slot
  if 256 ≤ p.w1 || 8 ≤ p.w2 || s.partOfCluster (clusterOf e.core) ≠ some p.w2 || !zeroFrom p 5 || 8 ≤ e.cmd then badArgument
  else if e.cmd = 6 && (e.w0 = 0 || 2 ^ 32 ≤ e.w0) then badArgument
  else if c.task.isNone then badState
  else if e.cmd ≠ 3 && e.cmd ≠ 4 then okStatus
  else match e.item with
    | none => badArgument
    | some i =>
      if !c.dbg.stopped then badState
      else if e.cmd = 3 then (if (s.readItem e.core e.slot i).isEmpty then badArgument else okStatus)
      else if (s.putItem e.core e.slot i e.value).isSome then okStatus else badArgument

/-- The debug command of an entry (R283). -/
def DebugEntry.run (e : DebugEntry) (s : State) : Out :=
  if e.cmd = 0 then execArm e.core e.slot e.w0 e.w1 s
  else if e.cmd = 1 then execDisarm e.core e.slot s
  else if e.cmd = 2 then execHalt e.core e.slot s
  else if e.cmd = 5 then execResume e.core e.slot s
  else if e.cmd = 6 then execDbgStep e.core e.slot e.w0 s
  else if e.cmd = 7 then execClrprof e.core e.slot s
  else match e.item with
    | none => .next s
    | some i => if e.cmd = 3 then execDbgRead e.core e.slot i s else execDbgWrite e.core e.slot i e.value s

/-- What a READ returns stands after the operands, at 0x20 from their address, before STATUS is written (R431). -/
def State.debugResult (s : State) (p : Mgmt) (e : DebugEntry) (t : State) : State :=
  if e.cmd ≠ 3 then t
  else match e.item with
    | none => t
    | some i => t.hostBytes (p.w4 + 0x20) (debugBytes i (s.readItem e.core e.slot i))

/-- A DEBUG entry is performed and posted (R283, R431). -/
def State.debugCommand (s : State) (p : Mgmt) : Out :=
  let e := s.debugEntry p
  if s.debugStatus p e ≠ okStatus then .next (s.turned (s.debugStatus p e)).post
  else match e.run s with
    | .next t => .next (s.debugResult p e t).performed.post
    | o => o

/-- The commands of a partition command entry (R431). -/
def partCommand (p : Mgmt) (s : State) : Option Out :=
  if p.w2 = 0 then some (execPartcmdDrain p s)
  else if p.w2 = 1 then some (execPartcmdResume p s)
  else if p.w2 = 2 then some (execPartcmdReset p s)
  else if p.w2 = 3 then some (execPartcmdRelease p s)
  else none

/-- A management entry is performed by its CODE (R431); none for a reserved one. -/
def mgmtCommand (p : Mgmt) (s : State) : Option Out :=
  let code := bits p.w0 7 0
  if code = 0x01 then some (execPartset p s)
  else if code = 0x02 then partCommand p s
  else if code = 0x03 then some (execRgnroot p s)
  else if code = 0x04 then some (execQcreate p s)
  else if code = 0x05 then some (execQdestroy p s)
  else if code = 0x06 then some (execQstart p s)
  else if code = 0x07 then some (execQabort p s)
  else if code = 0x08 then some (execWinset p s)
  else if code = 0x09 then some (execWinclr p s)
  else if code = 0x0A then some (execIdxcreate p s)
  else if code = 0x0B then some (execIdxresize p s)
  else if code = 0x0C then some (execIdxdestroy p s)
  else if code = 0x0D then some (execObjwrite { entry := p, ok := true } s)
  else if code = 0x0E then some (execObjdrop p s)
  else if code = 0x0F then some (execIdxclear p s)
  else if code = 0x10 then some (execAttest p s)
  else if code = 0x11 then some (execFwload { entry := p, ok := true } s)
  else if code = 0x12 then some (execKeyrevoke p s)
  else if code = 0x13 then some (s.debugCommand p)
  else none

/-- An entry that is not performed yet (R353, R406, R431): an IDXDESTROY waits for the commands of its index, a WINCLR for the writes
to its window, a DEBUG for a permit of its link. -/
def State.mgmtWaits (s : State) (p : Mgmt) : Bool :=
  let code := bits p.w0 7 0
  (code = 0x0C && (s.idx p.w1).any (fun x => x.dying) && s.handleBusy p.w1) ||
    (code = 0x09 && s.winBusy p.w1 && (s.winclr p).status = okStatus) ||
    (code = 0x13 && !s.linkFree (clusterOf (bits p.w1 7 1)))

/-- The next management entry (R431). -/
def State.autoMgmt (s : State) : Option Out :=
  if s.host.mgmtAccepted = s.host.mgmtDone || !s.host.crownServes then none
  else
    let p := s.mgmtEntry
    if s.mgmtWaits p then none
    else (mgmtCommand p s).orElse fun _ => some (.next (s.turned badArgument).post)

/-- The link schedule's next entry, where it would not wait (R436). -/
def State.autoLink (s : State) : Option Out :=
  match s.host.sched with
  | none => none
  | some sc =>
    let waits := s.now < sc.t0 + sc.entry.t || (match s.runLink sc.entry with
      | .wait => true
      | _ => false)
    offerIf (!waits) (execRunEntry sc.entry.link) s

/-- The beats and the mirror, each millisecond (R418, R420, R427). -/
def State.autoBeat (s : State) : Option Out :=
  let h := s.host
  let due (t : Nat) : Bool := t + 1000000 ≤ s.now
  (offerIf (h.crownServes && due h.lastBeat) execHeartbeat s).orElse fun _ =>
  (offerIf (h.mitten && due h.lastBeat) execMittenbeat s).orElse fun _ =>
  offerIf (h.crownServes && h.mirrorOn && due h.mirrorLast) execMirrorUpdate s

/-- The next move of the agents other than the streams. -/
def State.autoMove (s : State) : Option Out :=
  s.autoParts.orElse fun _ => s.autoDie.orElse fun _ => s.autoTasks.orElse fun _ => s.autoFill.orElse fun _ => s.autoProxy.orElse fun _ =>
    s.autoRetr.orElse fun _ => s.autoMgmt.orElse fun _ => s.autoQueue.orElse fun _ => s.autoLink.orElse fun _ => s.autoBeat

/-- A move of the agenda. -/
def State.runMove (s : State) : Move → Host.Outcome State Fault Refusal
  | .event i => exec i s
  | .core n => coreStep n s

end Sys2Proof.Machine
end

