-- ==== Sys2Proof/Machine/Load.lean ====
section
/-! DEFINITION. Placing one instruction where the next step fetches it (notes/assumptions/16). -/

namespace Sys2Proof.Machine

/-- The task of a context that was given its code from outside. -/
def bareTask : Task :=
  { record := 0, part := 0, region := 0, frame := 0, code := 0, succ := 0, prio := 0, placed := 0, launch := none, spad := 0, plies := 0,
    killed := false, preempt := false, yields := false, margin := 0, saveBase := 0, profBase := 0, profSlots := 0, profDepth := 0,
    profFlags := 0, domain := 0, slot := 0, ctxs := 1, pin := false, gated := false }

/-- The turn of the stream that executes the instruction in some bytes; the first stream's where there is none. -/
def turnOf (bs : List Byte) : Nat := match decodeHead bs with
  | .ok (.A, _) => 1
  | .ok (t, _) => tagStream t + 1
  | .error _ => 1

/-- Some bytes as the code at address 0 of a task that runs on core 0, captured by its instruction cache, with the core at the
turn of the stream that executes them and next to move. -/
def State.withCode (s : State) (bs : List Byte) : State :=
  let k : Core := { Core.reset with
    ctx := (Vector.replicate 2 Ctx.reset).set 0 { Ctx.reset with task := some bareTask }
    turn := turnOf bs
    icache := [{ asn := bareTask.part, vline := 0, pline := 0, bytes := bs ++ List.replicate (140 - bs.length) 0, poison := [] }] }
  { s.setCore 0 k with agenda := [.core 0] }

end Sys2Proof.Machine
end

