-- ==== Sys2Proof/Machine/Step.lean ====
section
/-! DEFINITION. The step of the machine: the agenda's first move, else what an agent does by itself, else one step of the core in
focus (notes/assumptions/7). -/

namespace Sys2Proof.Machine

def step (s : State) : Host.Outcome State Fault Refusal :=
  match s.agenda with
  | m :: rest => ({ s with agenda := rest }).runMove m
  | [] =>
    match s.autoMove with
    | some o => o
    | none => coreStep s.focus s

/-- The state with one instruction placed where the next step fetches it; bits above `nbits` are zero (notes/assumptions/16). -/
def State.withFetchWord (s : State) (nbits w : Nat) : State := s.withCode (leBytes 16 (w % 2 ^ nbits))

end Sys2Proof.Machine
end

