-- ==== Sys2Proof/Safety.lean ====
section
/-! DEFINITION. What counts as a safe state (sparse memories in their canonical form), and the terms the statements use: when
an instruction of code may issue, and the state its issue leaves. -/

namespace Sys2Proof.Machine

/-- LPDDR-6, the host's memory and every scratchpad stand in canonical form. -/
def State.memWf (s : State) : Bool := s.die.mem.wf && s.host.mem.wf && s.cores.toList.all fun k => k.spad.wf

/-- An instruction of code may issue in its stream's turn: fewer than 64 of the stream's instructions are in flight (R268), in
interlocked mode nothing it reads has a write in flight (R23), its predicate holds (R112), and each token it pops or pushes
finds what R33 and R34 ask for. `extra` are registers it reads beyond its operands. -/
def State.mayIssue (s : State) (w : Ins) (extra : List Res := []) : Bool :=
  let st := s.streamOf w
  let c := s.ctx
  decide (c.issuedCount st < 64) && !c.blocked st (predRes w) && s.predHolds w && !c.blocked st (c.readRes st w ++ extra) &&
    c.tokensReady st w.tok (c.stream st).redo

/-- The payload the instruction pops (R33). -/
def State.popped (s : State) (w : Ins) : Word :=
  let st := s.streamOf w
  s.ctx.payload st w.tok (s.ctx.stream st).redo

/-- The three scalar operands of an instruction as its issue reads them. -/
def State.opA (s : State) (w : Ins) : Word := s.srcA (s.streamOf w) (s.popped w) w
def State.opB (s : State) (w : Ins) : Word := s.srcB (s.streamOf w) (s.popped w) w
def State.opC (s : State) (w : Ins) : Word := s.srcC (s.streamOf w) (s.popped w) w

/-- The state an issue at `s` leaves when its work has brought `s1` about: the effects in flight, the tokens popped and
reserved with `payload` for those pushed, a result-queue entry for destination `q`, and the stream past the instruction. -/
def State.issued (s s1 : State) (i : Instr) (w : Ins) (effs : List Effect) (payload : Word) (lat : Nat := latBound w.lat) : State :=
  let st := s.streamOf w
  let r := s1.commitIssue st i.word w (s.ctx.stream st).redo (s.opA w, s.opB w, s.opC w) effs payload lat
  profileHook r.1 st r.2

/-- The state an instruction's trap leaves that is found with its issue work done (R43, R271): the work stands, and the fault is
recorded for the end of the cycle. -/
def State.trapped (s s1 : State) (i : Instr) (w : Ins) (t : Trap) : State :=
  let st := s.streamOf w
  let r := s1.ctx.issueWork st w.tok (s.ctx.stream st).redo
  (s1.setCtx r.1).raise st i.word t (some r.2)

end Sys2Proof.Machine
end

