-- ==== Sys2Proof/Certificates/Slice0/Obligations.lean ====
section
/-! DEFINITION. The statements of this row: what an instruction, an event or a command does, which state it leaves, what it
leaves alone, and what every step keeps. Helpers stand in `Sys2Proof.Claims`. -/

namespace Sys2Proof.Claims

open Sys2Proof.Machine

/-- i of chapter 04: IMM sign-extended to 64 bits (R111). -/
def immOf (w : Ins) : Word := BitVec.ofInt 64 w.imm.toInt

/-- The number of leading elements of a list that satisfy a test. -/
def leading (p : Nat → Bool) (l : List Nat) : Nat := (l.takeWhile p).length

/-- R113 and R116: each scalar instruction of one result, and the result as the spec writes it, of a, b and c. -/
def scalarTable : List ((Ins → Instr) × (Ins → Word → Word → Word → Word)) :=
  [(.add, fun _ a b _ => BitVec.ofNat 64 (a.toNat + b.toNat)),
   (.sub, fun _ a b _ => BitVec.ofInt 64 ((a.toNat : Int) - b.toNat)),
   (.and, fun _ a b _ => a &&& b),
   (.or, fun _ a b _ => a ||| b),
   (.xor, fun _ a b _ => a ^^^ b),
   (.andn, fun _ a b _ => a &&& ~~~b),
   (.shl, fun _ a b _ => BitVec.ofNat 64 (a.toNat * 2 ^ (b.toNat % 64))),
   (.shrl, fun _ a b _ => BitVec.ofNat 64 (a.toNat / 2 ^ (b.toNat % 64))),
   (.shra, fun _ a b _ => BitVec.ofInt 64 (a.toInt / 2 ^ (b.toNat % 64))),
   (.min, fun _ a b _ => BitVec.ofInt 64 (min a.toInt b.toInt)),
   (.max, fun _ a b _ => BitVec.ofInt 64 (max a.toInt b.toInt)),
   (.minn, fun _ a b _ => BitVec.ofNat 64 (min a.toNat b.toNat)),
   (.maxn, fun _ a b _ => BitVec.ofNat 64 (max a.toNat b.toNat)),
   (.sel, fun _ a b c => if c.toNat = 0 then b else a),
   (.mov, fun _ a _ _ => a),
   (.mul, fun _ a b _ => BitVec.ofNat 64 (a.toNat * b.toNat)),
   (.mulh, fun _ a b _ => BitVec.ofInt 64 (a.toInt * b.toInt / 2 ^ 64)),
   (.mulhn, fun _ a b _ => BitVec.ofNat 64 (a.toNat * b.toNat / 2 ^ 64)),
   (.clz, fun _ a _ _ => BitVec.ofNat 64 (leading (fun i => !a.getLsbD (63 - i)) (List.range 64))),
   (.ctz, fun _ a _ _ => BitVec.ofNat 64 (leading (fun i => !a.getLsbD i) (List.range 64))),
   (.popc, fun _ a _ _ => BitVec.ofNat 64 ((List.range 64).countP fun i => a.getLsbD i)),
   (.sext, fun w a _ _ => BitVec.ofInt 64 (signExtend a.toNat w.imm.toNat)),
   (.addi, fun w a _ _ => BitVec.ofInt 64 (a.toNat + (immOf w).toInt)),
   (.andi, fun w a _ _ => a &&& immOf w),
   (.ori, fun w a _ _ => a ||| immOf w),
   (.xori, fun w a _ _ => a ^^^ immOf w),
   (.shli, fun w a _ _ => BitVec.ofNat 64 (a.toNat * 2 ^ (w.imm.toNat % 64))),
   (.shrli, fun w a _ _ => BitVec.ofNat 64 (a.toNat / 2 ^ (w.imm.toNat % 64))),
   (.shrai, fun w a _ _ => BitVec.ofInt 64 (a.toInt / 2 ^ (w.imm.toNat % 64))),
   (.movi, fun w _ _ _ => immOf w),
   (.movhi, fun w a _ _ => BitVec.ofNat 64 (w.imm.toNat * 2 ^ 32 + a.toNat % 2 ^ 32)),
   (.cmpeqi, fun w a _ _ => if a = immOf w then 1 else 0),
   (.cmplti, fun w a _ _ => if a.toInt < (immOf w).toInt then 1 else 0),
   (.cmpltni, fun w a _ _ => if a.toNat < (immOf w).toNat then 1 else 0),
   (.muli, fun w a _ _ => BitVec.ofInt 64 (a.toInt * (immOf w).toInt)),
   (.lea, fun w a b _ => BitVec.ofNat 64 ((a.toNat + b.toNat * 2 ^ w.imm.toNat) % 2 ^ 48))]

/-- The compares of R115 and their relations. -/
def compareTable : List ((Ins → Instr) × (Word → Word → Bool)) :=
  [(.cmpeq, fun a b => decide (a.toNat = b.toNat)), (.cmpne, fun a b => decide (a.toNat ≠ b.toNat)),
   (.cmplt, fun a b => decide (a.toInt < b.toInt)), (.cmple, fun a b => decide (a.toInt ≤ b.toInt)),
   (.cmpltn, fun a b => decide (a.toNat < b.toNat)), (.cmplen, fun a b => decide (a.toNat ≤ b.toNat))]

/-- `div_result` of R114, as the spec writes it: trunc is division toward zero. -/
def divRule (a b : Int) (signed wantRem : Bool) : Word :=
  if b = 0 then (if wantRem then BitVec.ofInt 64 a else BitVec.ofNat 64 (2 ^ 64 - 1))
  else if signed && decide (a = -(2 ^ 63 : Int)) && decide (b = -1) then
    (if wantRem then BitVec.ofNat 64 0 else BitVec.ofNat 64 (2 ^ 63))
  else if wantRem then BitVec.ofInt 64 (a - Int.tdiv a b * b) else BitVec.ofInt 64 (Int.tdiv a b)

/-- The divisions and remainders of R114. -/
def divTable : List ((Ins → Instr) × (Word → Word → Word)) :=
  [(.div, fun a b => divRule a.toInt b.toInt true false), (.divn, fun a b => divRule a.toNat b.toNat false false),
   (.rem, fun a b => divRule a.toInt b.toInt true true), (.remn, fun a b => divRule a.toNat b.toNat false true)]

/-- `exec` of an instruction of code answers the state of its issue: the result for the destination as its one effect, and as the
payload of any token it pushes (R35, R113). -/
def GivesResult (i : Instr) (w : Ins) (s : State) (v : Word) : Prop :=
  exec i s = .next (s.issued s i w (s.ctx.result (s.streamOf w) w.dst v) v)

/-- The bound the encoding tables ask of an opcode, whatever its format and immediate. -/
def minBound (opc n : Nat) : Prop := ∀ fmt imm, (shapeOf? opc).map (fun sh => sh.bound.cycles fmt imm) = some n

end Sys2Proof.Claims

open Sys2Proof Sys2Proof.Machine Sys2Proof.Claims

/-- R114: DIV, DIVN, REM and REMN complete on every operand with the result of `div_result`, and take a bound of 24. -/
def Obligations.DivisionResults : Prop :=
  (∀ row ∈ divTable, ∀ (s : State) (w : Ins), s.mayIssue w = true → GivesResult (row.1 w) w s (row.2 (s.opA w) (s.opB w))) ∧
  ∀ w, (Instr.div w).code? = some (0x013, w) ∧ (Instr.divn w).code? = some (0x014, w) ∧
    (Instr.rem w).code? = some (0x015, w) ∧ (Instr.remn w).code? = some (0x016, w) ∧
    minBound 0x013 24 ∧ minBound 0x014 24 ∧ minBound 0x015 24 ∧ minBound 0x016 24

/-- R115: each compare completes with 1 where its relation holds and 0 where it does not; its bound is 1; and a destination of
b0 to b7 is legal only under tag S. -/
def Obligations.CompareResults : Prop :=
  (∀ row ∈ compareTable, ∀ (s : State) (w : Ins), s.mayIssue w = true →
    GivesResult (row.1 w) w s (if row.2 (s.opA w) (s.opB w) then 1 else 0)) ∧
  (∀ w, (Instr.cmpeq w).code? = some (0x01B, w) ∧ (Instr.cmpne w).code? = some (0x01C, w) ∧
    (Instr.cmplt w).code? = some (0x01D, w) ∧ (Instr.cmple w).code? = some (0x01E, w) ∧
    (Instr.cmpltn w).code? = some (0x01F, w) ∧ (Instr.cmplen w).code? = some (0x020, w)) ∧
  ∀ opc ∈ [0x01B, 0x01C, 0x01D, 0x01E, 0x01F, 0x020], minBound opc 1 ∧
    ∀ sh, shapeOf? opc = some sh → ∀ (w : Ins) (n : Fin 8), w.dst = .b n → w.tag ≠ .S → sh.check opc w ≠ none

namespace Sys2Proof.Claims

/-- What the issue of an instruction with fields `w` may change of its own stream: where it stands, its issue work, and the
result queue where the destination is `q`. -/
def StreamKept (w : Ins) (a b : Stream) : Prop :=
  b.x = a.x ∧ b.xAlt = a.xAlt ∧ b.brCount = a.brCount ∧ b.status = a.status ∧ (w.dst ≠ .q → b.q = a.q ∧ b.qCount = a.qCount)

/-- What the issue of an instruction may change of the running context: the streams (`StreamKept` says how little), the token
queues, what is in flight, the count of frozen cycles and the faults recorded. Every register file, flag, mask, tile, nest, port,
ring, system register, accumulator and exception register is as before. -/
def CtxKept (w : Ins) (st : Nat) (c d : Ctx) : Prop :=
  d = { c with streams := d.streams, tokens := d.tokens, tokenNext := d.tokenNext, flights := d.flights, seqNext := d.seqNext,
               freeze := d.freeze, faults := d.faults } ∧
  (∀ k, k % 5 ≠ st % 5 → d.stream k = c.stream k) ∧ StreamKept w (c.stream st) (d.stream st)

/-- The core that issues changes its turn and its running context and nothing else. -/
def CoreKept (w : Ins) (st : Nat) (k j : Core) : Prop :=
  j = { k with ctx := j.ctx, turn := j.turn } ∧ (∀ i, i % 2 ≠ k.running % 2 → j.slot i = k.slot i) ∧
  CtxKept w st (k.slot k.running) (j.slot k.running)

/-- The whole machine after the issue of an instruction that touches registers alone: memory of the die and of the host, caches,
retrieval state and every other core are as before. -/
def IssueKeeps (w : Ins) (st : Nat) (s t : State) : Prop :=
  t.die = s.die ∧ t.host = s.host ∧ t.retr = s.retr ∧ t.agenda = s.agenda ∧
  (∀ n, n % 128 ≠ s.focus % 128 → t.core n = s.core n) ∧ CoreKept w st (s.core s.focus) (t.core s.focus)

/-- The turn passes to the next core: which core goes next and the time move; where a core cycle of time has passed, the clears of
the slices take effect (R330) and gangs whose instant has come start (R354). Nothing else of the machine. -/
def PassesOn (u t : State) : Prop :=
  t = { u with focus := t.focus, time := t.time, cores := t.cores,
               die := { u.die with counters := t.die.counters, clears := t.die.clears, ovfNow := t.die.ovfNow, gangs := t.die.gangs } } ∧
  ∀ n, t.core n = { u.core n with ctx := (t.core n).ctx } ∧ ∀ i, t.ctxAt n i = { u.ctxAt n i with task := (t.ctxAt n i).task } ∧
    ((t.ctxAt n i).task = (u.ctxAt n i).task ∨ ∃ x, (u.ctxAt n i).task = some x ∧
      (t.ctxAt n i).task = some { x with gated := false, placed := t.time / timeUnit })

/-- A cycle in which the context is frozen (R19, R268): its frozen cycles and the profile counters move, its cluster takes the notices
of counters that wrap (R286), and the turn passes to the next core; nothing else of the machine. -/
def Freezes (s t : State) : Prop :=
  ∃ (d : Ctx) (u : State),
    d = { s.ctx with freeze := s.ctx.freeze + 1, conflicts := d.conflicts, overflow := d.overflow, wants := d.wants,
                     profBusy := d.profBusy, profClear := d.profClear } ∧
    (u = s.setCtx d ∨ ∃ more, let k := s.cluster (s.focus / 8)
      u = (s.setCluster (s.focus / 8) { k with notices := k.notices ++ more }).setCtx d) ∧ PassesOn u t

/-- The same, but for the profile snapshots that R287 writes where loops of S end; or the context is frozen. -/
def IssueFrame (w : Ins) (st : Nat) (s t : State) : Prop :=
  (∃ u popped, t = profileHook u st popped ∧ IssueKeeps w st s u) ∨ Freezes s t

/-- Instructions of code that touch registers alone at their issue. -/
def registerOnly : List (Ins → Instr) :=
  [.nop, .add, .sub, .and, .or, .xor, .andn, .shl, .shrl, .shra, .min, .max, .minn, .maxn, .sel, .mov, .mul, .mulh, .mulhn, .div,
   .divn, .rem, .remn, .clz, .ctz, .popc, .sext, .cmpeq, .cmpne, .cmplt, .cmple, .cmpltn, .cmplen, .addi, .andi, .ori, .xori,
   .shli, .shrli, .shrai, .movi, .movhi, .cmpeqi, .cmplti, .cmpltni, .muli, .lea, .pcadd, .mfsr, .mtsr, .trap, .tksend,
   .kand, .kor, .kxor, .knot, .kmov, .kpop, .tfree, .tlimit, .trank, .tpred]

end Sys2Proof.Claims

/-- The frame of the issue of every instruction that touches registers alone, whether it issues, waits, is skipped by its
predicate or traps: no byte of memory, no register of any file, no flag, special register, accumulator or exception register
changes at the issue, but the result queue where the destination is `q`, and what R287 writes for a profile. -/
def Obligations.RegisterOnlyFrame : Prop :=
  ∀ mk ∈ registerOnly ++ [Instr.post, Instr.awaitp], ∀ (s t : State) (w : Ins), exec (mk w) s = .next t →
    IssueFrame w (s.streamOf w) s t

namespace Sys2Proof.Claims

/-- `exec i s` answers a state that is `u` with the profile snapshots of loops ended by stream S, for a `u` as `P` says. -/
def Passes (i : Instr) (w : Ins) (s : State) (P : State → Prop) : Prop :=
  ∃ u popped, exec i s = .next (profileHook u (s.streamOf w) popped) ∧ P u

/-- Fewer than 64 instructions of the stream are in flight (R268). -/
def MayPass (s : State) (w : Ins) : Prop := s.ctx.issuedCount (s.streamOf w) < 64

/-- Where a stream goes from a transfer: its target, or past it by sequence. -/
def flowTo (s : State) (w : Ins) (taken : Bool) (target : Nat) : Nat × List LoopEntry :=
  let t := s.ctx.stream (s.streamOf w)
  if taken then (target, (popOutside target t.loops).1)
  else
    let r := bodyEnd ((t.pc + w.len.bytes) % 2 ^ 48) t.loops
    (r.1, r.2.1)

/-- The target of BR, BT and BF: the transfer's address plus 4·i, in 48 bits (R124). -/
def branchTarget (s : State) (w : Ins) (st : Nat) : Nat := (((s.ctx.stream st).pc + 4 * w.imm.toInt) % 2 ^ 48).toNat

/-- The stream stands where the flow took it, one position on (R25, R124, R125). -/
def WentTo (s u : State) (w : Ins) (taken : Bool) (target : Nat) : Prop :=
  let st := s.streamOf w
  (u.ctx.stream st).pc = (flowTo s w taken target).1 ∧ (u.ctx.stream st).loops = (flowTo s w taken target).2 ∧
  (u.ctx.stream st).pos = (s.ctx.stream st).pos + 1 ∧ u.here.turn = st + 2

/-- What a resolved instance leaves (R29): the outcome recorded, and S gone where it says. -/
def Resolves (i : Instr) (w : Ins) (s : State) (taken : Bool) (target : Nat) : Prop :=
  Passes i w s fun u =>
    u.ctx.outcomes = s.ctx.outcomes ++ [{ inst := ((s.ctx.stream 0).brCount + 1) % 2 ^ 32, taken, target }] ∧
    (u.ctx.stream 0).brCount = ((s.ctx.stream 0).brCount + 1) % 2 ^ 32 ∧ WentTo s u w taken target ∧
    u.die = s.die ∧ u.host = s.host ∧ u.ctx.b = s.ctx.b ∧ (∀ k, (u.ctx.stream k).x = (s.ctx.stream k).x)

/-- BT, BF and JR with the direction and the target that S resolves (R124). -/
def instanceTable : List ((Ins → Instr) × (State → Ins → Bool) × (State → Ins → Nat) × (State → Ins → List Res)) :=
  [(.bt, fun s w => s.readB (condOf w) 0, fun s w => branchTarget s w 0, fun _ w => [.b (condOf w)]),
   (.bf, fun s w => !s.readB (condOf w) 0, fun s w => branchTarget s w 0, fun _ w => [.b (condOf w)]),
   (.jr, fun _ _ => true, fun s w => (s.srcA 0 0 w + immOf w).toNat, fun s w => s.ctx.srcRes 0 w.sa)]

end Sys2Proof.Claims

/-- DONE, MODEX, MODEI and, in handler mode, ERET (R24, R126, R142): the stream that reaches one stops there and does nothing
else; no stream skips an ERET. In task mode S raises PRIVILEGE at an ERET.
(It rests on choices of the model: notes/assumptions/72, 122.) -/
def Obligations.BarriersStop : Prop :=
  ∀ (s : State) (w : Ins),
    let stopped (st : Nat) (status : StreamStatus) : Host.Outcome State Fault Refusal :=
      .next ((s.setCtx (s.ctx.setStream st { s.ctx.stream st with status, redo := none })).passTurn st)
    let st := s.streamOf w
    let here := s.here.turn - 1
    (MayPass s w → exec (.done w) s = stopped st .done ∧ exec (.modex w) s = stopped st (.barrier true w.len.bytes) ∧
      exec (.modei w) s = stopped st (.barrier false w.len.bytes)) ∧
    (s.ctx.issuedCount here < 64 → s.ctx.handler = true → exec (.eret w) s = stopped here .eret) ∧
    (s.ctx.issuedCount here < 64 → s.ctx.handler = false → here = 0 →
      exec (.eret w) s = .next (s.raise 0 (Instr.eret w).word { cause := 0x0D } none))

namespace Sys2Proof.Claims

/-- The system registers of R144 and what a read of each gives (R27, R106, R145 to R147, R215, R216, R275, R315). -/
def sysTable : List (Nat × (State → Word)) :=
  [(0x000, fun s => BitVec.ofNat 64 s.ctx.slip),
   (0x001, fun s => BitVec.ofNat 64 s.ctx.vcvtpol.toNat),
   (0x002, fun s => BitVec.ofNat 64 s.ctx.factctl.toNat),
   (0x003, fun s => BitVec.ofNat 64 s.ctx.ftol.toNat),
   (0x010, fun s => BitVec.ofNat 64 s.ctx.cycle),
   (0x011, fun s => BitVec.ofNat 64 (s.time / timeUnit)),
   (0x012, fun s => s.ctx.timecmp),
   (0x013, fun s => BitVec.ofNat 64
     ((if s.ctx.timerEn then 1 else 0) + (if s.ctx.handler && s.ctx.timerEn && s.ctx.timecmp.toNat ≤ s.ctx.cycle then 2 else 0))),
   (0x020, fun s => BitVec.ofNat 64 s.ctx.tvec.toNat),
   (0x021, fun s => BitVec.ofNat 64
     (s.ctx.hcause.toNat * 2 ^ 8 + (if s.ctx.hfail then 2 else 0) + (if s.ctx.handler then 1 else 0))),
   (0x022, fun s => BitVec.ofNat 64 s.ctx.frameAddr.toNat),
   (0x023, fun s => BitVec.ofNat 64 (2 * s.focus + s.here.running)),
   (0x030, fun _ => BitVec.ofNat 64 (960 * 2 ^ 16 + 1))]

/-- The numbers that only handler mode reaches (R144). -/
def handlerRegs : List Nat := [0x021, 0x040, 0x041, 0x042, 0x043]

/-- The numbers that R144 lists. -/
def listedRegs : List Nat :=
  [0x000, 0x001, 0x002, 0x003, 0x010, 0x011, 0x012, 0x013, 0x020, 0x021, 0x022, 0x023, 0x030, 0x040, 0x041, 0x042, 0x043]

/-- What an instruction that may issue answers where its issue traps with its work done. -/
def Traps (i : Instr) (w : Ins) (s : State) (t : Trap) : Prop := exec i s = .next (s.trapped s i w t)

/-- What an instruction that may issue answers where it enters effects and a payload. -/
def Enters (i : Instr) (w : Ins) (s s1 : State) (effs : List Effect) (payload : Word) : Prop :=
  exec i s = .next (s.issued s1 i w effs payload)

end Sys2Proof.Claims

/-- NOP, TKSEND, TRAP and BRK (04 R128, R130, R143; 09 R285): NOP enters nothing; TKSEND enters nothing but a, the payload of its
pushes; TRAP raises SOFTWARE-TRAP with its code; BRK raises BREAKPOINT with its code, unless a debug stop it caused is over and it
passes as a NOP, or the BRK trigger is armed and a debug stop is asked for in its place: R285 has that stop come before the cycle, and
how the model comes there is its own choice.
(It rests on choices of the model: notes/assumptions/53.) -/
def Obligations.NopTksendTrapAndBrk : Prop :=
  ∀ (s : State) (w : Ins), s.mayIssue w = true →
    let st := s.streamOf w
    let t := s.ctx.stream st
    Enters (.nop w) w s s [] 0 ∧ Enters (.tksend w) w s s [] (s.opA w) ∧
    Traps (.trap w) w s { cause := 0x0E, aux := w.imm.toNat % 2 ^ 16 } ∧
    (t.passBrk = false → s.ctx.dbg.brk = false → Traps (.brk w) w s { cause := 0x0F, aux := w.imm.toNat % 2 ^ 16 }) ∧
    (t.passBrk = true → Enters (.brk w) w s s [] 0) ∧
    (t.passBrk = false → s.ctx.dbg.brk = true → ∃ u, exec (.brk w) s = .next u ∧ u.ctx.dbg.halt = true ∧
      (u.ctx.stream st).passBrk = true ∧ (u.ctx.stream st).pc = t.pc ∧ u.ctx.flights = s.ctx.flights ∧ u.here.turn = st + 2)

/-- POST, AWAIT and AWAITP (R22, R38, R129), whatever their predicate: POST enters its count for its event; AWAIT, once the event
holds its count, takes the count at its issue, and AWAITP takes nothing; both wait till then.
(It rests on choices of the model: notes/assumptions/104.) -/
def Obligations.EventInstructions : Prop :=
  ∀ (s : State) (w : Ins) (e : Fin 32), w.sa = .e e → s.mayIssue { w with pred := 0 } = true →
    let v := { w with pred := (0 : BitVec 4) }
    let n := w.imm.toNat
    let held := (vget 0 s.ctx.events e).toNat
    let fresh := (s.ctx.stream (s.streamOf w)).redo = none
    exec (.post w) s = .next (s.issued s (.post w) v [.post e n] 0) ∧
    (fresh → n ≤ held → ∃ u, exec (.await w) s = .next (s.issued u (.await w) v [] 0) ∧
      (vget 0 u.ctx.events e).toNat = held - n ∧ (∀ k, k ≠ e.val → vget 0 u.ctx.events k = vget 0 s.ctx.events k) ∧
      u = s.setCtx { s.ctx with events := u.ctx.events }) ∧
    (n ≤ held → exec (.awaitp w) s = .next (s.issued s (.awaitp w) v [] 0)) ∧
    (fresh → held < n → exec (.await w) s = .next (s.passTurn (s.streamOf w)) ∧
      exec (.awaitp w) s = .next (s.passTurn (s.streamOf w)))

namespace Sys2Proof.Claims

/-- The loads of R118: bytes, and whether the value is sign-extended. -/
def loadTable : List ((Ins → Instr) × Nat × Bool) :=
  [(.ld8, 1, false), (.ld8s, 1, true), (.ld16, 2, false), (.ld16s, 2, true), (.ld32, 4, false), (.ld32s, 4, true), (.ld64, 8, false)]

/-- The stores of R118 and their bytes. -/
def storeTable : List ((Ins → Instr) × Nat) := [(.st8, 1), (.st16, 2), (.st32, 4), (.st64, 8)]

/-- The far atomics of R123: the new word from its width in bits, whether the comparison is unsigned, old, b and c. -/
def atomicTable : List ((Ins → Instr) × (Nat → Bool → Nat → Nat → Nat → Nat)) :=
  [(.amoadd, fun _ _ o b _ => o + b), (.amoand, fun _ _ o b _ => o &&& b), (.amoor, fun _ _ o b _ => o ||| b),
   (.amoxor, fun _ _ o b _ => o ^^^ b),
   (.amomin, fun n u o b _ => if u then min o b else (if signExtend b n < signExtend o n then b else o)),
   (.amomax, fun n u o b _ => if u then max o b else (if signExtend o n < signExtend b n then b else o)),
   (.amoswp, fun _ _ _ b _ => b), (.amocas, fun _ _ o b c => if o = b then c else o)]

/-- The effective address of a scalar memory instruction: (a + i) in 64 bits (R117). -/
def addrOf (s : State) (w : Ins) : Nat := ((s.opA w).toNat + (immOf w).toNat) % 2 ^ 64

/-- The 64-bit value of some bytes, lowest first (R3, R118). -/
def extended (n : Nat) (signed : Bool) (bs : List Byte) : Word :=
  if signed then BitVec.ofInt 64 (signExtend (bytesNat bs) (8 * n)) else BitVec.ofNat 64 (bytesNat bs)

/-- The `n` consecutive places from `a`. -/
def places (a n : Nat) : List Nat := (List.range n).map fun i => a + i

/-- The cells of a store of the low `n` bytes of `v` at virtual address `va` and place `pa`. -/
def storedCells (va pa n v : Nat) : List StoreCell :=
  (List.range n).map fun i => { va := va + i, pa := pa + i, val := BitVec.ofNat 8 (v / 256 ^ i), mask := 0xFF }

/-- An access of `n` bytes at a physical address of the window range lies in a host window of the running task's partition, at host
address `a`; windows are 1 GiB of that range each (R335, R406). -/
def InWindow (s : State) (pa n a : Nat) : Prop :=
  ∃ k win, s.host.windows.find? (fun p => p.1 = (pa - 0x3E00_0000_0000) / 2 ^ 30) = some (k, win) ∧ win.part = s.asn ∧
    (pa - 0x3E00_0000_0000) % 2 ^ 30 + n ≤ win.len ∧ a = win.base + (pa - 0x3E00_0000_0000) % 2 ^ 30

/-- A byte of LPDDR-6 that a core's cache holds newer. -/
def dirtyAt (s : State) (core a : Nat) : Bool :=
  (s.core core).lines.any fun l => l.pline == a / 128 && l.dirty.getLsbD (a % 128)

/-- What the issue of a memory instruction that performs nothing at die scope may do beyond its stream: fill and evict, so that
bytes this core had written may reach LPDDR-6; every other byte of it, the host's memory, every scratchpad, every other core's
contexts and every register are as before. An access to the scratchpad asks for banks (R152). -/
def AccessKeeps (w : Ins) (st : Nat) (s u : State) : Prop :=
  (∀ a, dirtyAt s s.focus a = false → u.die.mem.read a = s.die.mem.read a) ∧ u.host = s.host ∧ u.retr = s.retr ∧
  (∀ n, (u.core n).spad = (s.core n).spad) ∧ (∀ n, n % 128 ≠ s.focus % 128 → u.core n = s.core n) ∧
  (∀ i, i % 2 ≠ (s.core s.focus).running % 2 → (u.core s.focus).slot i = (s.core s.focus).slot i) ∧
  CtxKept w st ((s.core s.focus).slot (s.core s.focus).running)
    { (u.core s.focus).slot (s.core s.focus).running with wants := ((s.core s.focus).slot (s.core s.focus).running).wants }

end Sys2Proof.Claims

/-- The scalar loads (R117, R118, R119): aligned, they complete with the bytes at ea, zero- or sign-extended: from the scratchpad
below the grant's end, asking for its banks, from memory where the translation gives a normal page that is not poisoned there, from
the host's memory where it gives a page of a host window of the task's partition, in each with the stream's own stores in flight laid
over them; from a device window the load is in flight as a command that reads at its landing. A host-window page outside a window of
the partition raises PROTECTION.
(It rests on choices of the model: notes/assumptions/9, 27, 29.) -/
def Obligations.ScalarLoads : Prop :=
  ∀ row ∈ loadTable, ∀ (s : State) (w : Ins), s.mayIssue w = true →
    let n := row.2.1
    let st := s.streamOf w
    let ea := addrOf s w
    ea % n = 0 →
    (w.mod = 1 → ea + n ≤ min s.ctx.spadGrant 0x20_0000 →
      let v := extended n row.2.2
        (s.ctx.overlay st true (places (s.ctx.spbase + ea) n) (s.here.spad.load (s.ctx.spbase + ea) n))
      Enters (row.1 w) w s (s.askBanks (streamReq st) [(ea, n)]) (s.ctx.result st w.dst v) v) ∧
    (w.mod ≠ 1 → ∀ ph s1, s.translate s.focus s.asn ea .read = (.ok ph, s1) → ph.attr = 0 →
      s1.readPoison s1.focus s1.asn ea ph.pa (lineFuel n) n = none →
      let r := s1.cacheRead s1.focus s1.asn ea ph.pa (lineFuel n) n
      let v := extended n row.2.2 (s1.ctx.overlay st false (places ph.pa n) r.1)
      Enters (row.1 w) w s r.2 (s.ctx.result st w.dst v) v) ∧
    (w.mod ≠ 1 → ∀ ph s1 t, s.translate s.focus s.asn ea .read = (.ok ph, s1) → ph.attr = 1 → s.ctx.target st w.dst = some t →
      Enters (row.1 w) w s s [.command (.deviceLoad ph.pa n row.2.2 t)] 0) ∧
    (w.mod ≠ 1 → ∀ ph s1, s.translate s.focus s.asn ea .read = (.ok ph, s1) → ph.attr = 2 →
      (∀ a, InWindow s ph.pa n a →
        let v := extended n row.2.2 (s.ctx.overlay st false (places ph.pa n) (s.host.mem.load a n))
        Enters (row.1 w) w s s1 (s.ctx.result st w.dst v) v) ∧
      ((∀ a, ¬ InWindow s ph.pa n a) → exec (row.1 w) s = .next (s.trapped s1 (row.1 w) w { cause := 0x0B, addr := some ea })))

/-- The scalar stores (R117, R118): aligned, they complete with the low bytes of b in flight for the bytes from ea up, in the
scratchpad below the grant's end, in memory where the translation gives a normal page or one of a host window of the task's
partition, in a device window as a command. A host-window page outside a window of the partition raises PROTECTION.
(It rests on choices of the model: notes/assumptions/27.) -/
def Obligations.ScalarStores : Prop :=
  ∀ row ∈ storeTable, ∀ (s : State) (w : Ins), s.mayIssue w = true →
    let n := row.2
    let ea := addrOf s w
    let v := (s.opB w).toNat
    ea % n = 0 →
    (w.mod = 1 → ea + n ≤ min s.ctx.spadGrant 0x20_0000 →
      Enters (row.1 w) w s s [.store true (storedCells ea (s.ctx.spbase + ea) n v)] 0) ∧
    (w.mod ≠ 1 → ∀ ph s1, s.translate s.focus s.asn ea .write = (.ok ph, s1) → ph.attr = 0 →
      Enters (row.1 w) w s s1 [.store false (storedCells ea ph.pa n v)] 0) ∧
    (w.mod ≠ 1 → ∀ ph s1, s.translate s.focus s.asn ea .write = (.ok ph, s1) → ph.attr = 1 →
      Enters (row.1 w) w s s [.command (.deviceStore ph.pa n (v % 2 ^ (8 * n)))] 0) ∧
    (w.mod ≠ 1 → ∀ ph s1, s.translate s.focus s.asn ea .write = (.ok ph, s1) → ph.attr = 2 →
      ((∃ a, InWindow s ph.pa n a) → Enters (row.1 w) w s s1 [.store false (storedCells ea ph.pa n v)] 0) ∧
      ((∀ a, ¬ InWindow s ph.pa n a) → exec (row.1 w) s = .next (s.trapped s1 (row.1 w) w { cause := 0x0B, addr := some ea })))

/-- LDLK, STUL and LDBLK (R121, R122): LDLK enters a lock request where the stream holds no lock and waits for none; STUL, of an
offset the context holds, enters the store and the release; LDBLK, with every line on a normal page, declares its block. SYNC-STATE
answers a second LDLK of a stream and a STUL without its lock; an LDBLK of 0 or more than 64 lines raises ILLEGAL-OPERAND.
(It rests on choices of the model: notes/assumptions/23, 24, 121, 126.) -/
def Obligations.LocksAndBlocks : Prop :=
  ∀ (s : State) (w : Ins), s.mayIssue w = true →
    let st := s.streamOf w
    let ea := addrOf s w
    let inside := ea % 8 = 0 ∧ ea + 8 ≤ min s.ctx.spadGrant 0x20_0000
    let free := s.ctx.lockOf st = none ∧ s.ctx.lockWaits st = false
    let holds := s.ctx.lockS = some ea ∨ s.ctx.lockL = some ea
    let n := w.imm.toNat
    (inside → free → ∀ t, s.ctx.target st w.dst = some t → Enters (.ldlk w) w s s [.command (.lock ea t)] 0) ∧
    (ea % 8 = 0 → ¬ free → Traps (.ldlk w) w s { cause := 0x11 }) ∧
    (inside → holds → Enters (.stul w) w s s
      [.store true (storedCells ea (s.ctx.spbase + ea) 8 (s.opB w).toNat), .command (.unlock ea)] 0) ∧
    (ea % 8 = 0 → ¬ holds → Traps (.stul w) w s { cause := 0x11 }) ∧
    (1 ≤ n → n ≤ 64 → (s.opA w).toNat % 128 = 0 → ∀ ps s1,
      s.translateRange s.focus s.asn (s.opA w).toNat .read (pageFuel (128 * n)) (128 * n) = (.ok ps, s1) →
      (∀ p ∈ ps, p.ph.attr = 0) →
      Enters (.ldblk w) w s (s1.declareBlock s1.focus s1.asn ((s.opA w).toNat / 128)
        (ps.flatMap fun p => (List.range (p.len / 128)).map fun i => p.ph.pa / 128 + i)) [] 0) ∧
    (n = 0 ∨ 64 < n → Traps (.ldblk w) w s { cause := 0x03 })

/-- The far atomics (R123, R348): aligned, on a normal page that may be read and written and whose word is not poisoned, each
completes with the old word for d, and the word in LPDDR-6 holds what the operation makes of old, b and c; every other byte of
LPDDR-6 is as the stream's own earlier accesses, performed before it, left it. In a handler the old word is seen under the stores of
the stream that the trap captured.
(It rests on choices of the model: notes/assumptions/11, 125.) -/
def Obligations.FarAtomics : Prop :=
  ∀ row ∈ atomicTable, ∀ (s : State) (w : Ins), s.mayIssue w = true →
    let n := if w.mod.getLsbD 0 then 4 else 8
    let st := s.streamOf w
    let ea := addrOf s w
    ea % n = 0 → ∀ ph0 s1 ph s2, s.translate s.focus s.asn ea .read = (.ok ph0, s1) →
      s1.translate s1.focus s1.asn ea .write = (.ok ph, s2) → ph.attr = 0 → ph.pa % n = 0 →
      let before := (s2.forceStores fun f => f.stream = st).writeBack s2.focus fun l => l = ph.pa / 128
      ph.pa / 32 * 32 ∉ before.die.poison →
      let old := bytesNat (before.ctx.overlay st false (places ph.pa n) (before.die.mem.load ph.pa n))
      let new := row.2 (8 * n) (w.mod.getLsbD 1) old ((s.opB w).toNat % 2 ^ (8 * n)) ((s.opC w).toNat % 2 ^ (8 * n))
      ∃ u, Enters (row.1 w) w s u (s.ctx.result st w.dst (BitVec.ofNat 64 old)) (BitVec.ofNat 64 old) ∧
        bytesNat (u.die.mem.load ph.pa n) = new % 2 ^ (8 * n) ∧
        (∀ a, a < ph.pa ∨ ph.pa + n ≤ a → u.die.mem.read a = before.die.mem.read a)

namespace Sys2Proof.Claims

/-- What an event of core `n` answers that leaves `u` there, the focus having been moved to that core meanwhile. -/
def AtCore (i : Instr) (s : State) (u : State) : Prop := exec i s = .next { u with focus := s.focus }

/-- The state with the focus at a core. -/
def seenAt (s : State) (n : Nat) : State := { s with focus := n }

/-- One flight of the running context of core `n` is to land in this cycle and no other: the others are not due, no earlier write of
its destination is in flight in interlocked mode (R23), and no other is a lock, a ring pop or a proxy push that waits. -/
def LandsAlone (s : State) (n : Nat) (f : Flight) (fs gs : List Flight) : Prop :=
  let c := s.runCtx n
  n < 128 ∧ (s.core n).turn = 0 ∧ c.moves = true ∧ c.array = [] ∧ c.flights = fs ++ f :: gs ∧ c.due f = true ∧
  (∀ g ∈ fs ++ gs, c.due g = false) ∧ (c.exposed = true ∨ ∀ g ∈ fs ++ gs, g.seq < f.seq → g.eff.shares f.eff = false) ∧
  ∀ g ∈ fs ++ gs, (∀ off ring t, g.eff ≠ .command (.lock off t) ∧ g.eff ≠ .command (.pop ring t)) ∧
    ∀ desc pa shadow slots entry, g.eff ≠ .command (.proxyPush desc pa shadow slots entry)

/-- `n` bytes at die scope hold `v`, every other byte of LPDDR-6 being as before. -/
def MemTakes (a b : State) (pa n v : Nat) : Prop :=
  b.die.mem.load pa n = natBytes n v ∧ ∀ x, x < pa ∨ pa + n ≤ x → b.die.mem.read x = a.die.mem.read x

/-- No store of the running context waits for its performance. -/
def StoresDone (s : State) : Prop := ∀ f ∈ s.ctx.flights, f.waitsStore = false

/-- Nothing that the focused core wrote waits for its write-back. -/
def WrittenBack (s : State) : Prop := ∀ l ∈ (s.core s.focus).lines, l.dirty = 0

/-- A landing of core `n` that leaves the running context `d` and nothing else changed. -/
def LandsAs (s : State) (n : Nat) (d : Ctx) : Prop := AtCore (.resultLand n) s ((seenAt s n).setCtx d)

/-- A context with a result written: to a scalar register, to a queue entry that still stands, to a flag, to a system register (R15,
R19, R21, R144). -/
def written (c : Ctx) (v : Word) : Target → Ctx
  | .x st n => c.setStream st { c.stream st with x := vset (c.stream st).x n v }
  | .q st a => c.setStream st { c.stream st with
      q := if a < (c.stream st).qCount then vset (c.stream st).q ((c.stream st).qCount - 1 - a) v else (c.stream st).q }
  | .b n => { c with b := setFlag c.b n (v.getLsbD 0) }
  | .sys n => c.writeSys n v

/-- The registers of one landing: the context that each effect leaves that changes registers of the context alone, of a context without
the flight that lands: the row predicate, a context bitmap that a transfer of lanes or registers clears, a ring of RINGSET and a port of
PSET among them (R139, R160, R197, R200, R220). -/
def registerLanding (f : Flight) (c : Ctx) : Option Ctx :=
  match f.eff with
  | .reg t v => some (written c v t)
  | .command (.rowpred v) => some { c with rowpred := v }
  | .command (.clearBitmap i keep) => some { c with cb := vset c.cb i keep }
  | .command (.ringset h n) => some { c with rings := vset c.rings h { slots := n, rp := 0, wp := 0, filled := 0 } }
  | .command (.bindPort p gen record) => some { c with
      ports := vset (c.ports.map fun q => if q.state ≠ .unbound ∧ q.gen = gen then Port.reset else q) p (Port.bound gen record) }
  | .kreg n v mask =>
    let new := (vget 0 c.k n &&& ~~~mask) ||| (v &&& mask)
    some (if n = 0 then c else { c with k := vset c.k n new }.payTokens f.seq new)
  | .tile n (.write rep rank plies rcap rinv _) =>
    some { c with z := vset c.z n { c.tile n with rep, rank, tag := 0x1F, held := heldOf rep rank, plies },
                  factctl := c.factctl ||| (if rcap then 0x200 else 0) ||| (if rinv then 0x100 else 0) }
  | .tile n (.limit l) => some { c with z := vset c.z n { c.tile n with limit := l } }
  | .tile n .free => some { c with z := vset c.z n { c.tile n with rep := 0, rank := 0, tag := 0, held := 0, plies := [] } }
  | .nest n v => some { c with nests := vset c.nests n v }
  | .mark => some c
  | _ => none

end Sys2Proof.Claims

/-- RESULT_LAND (R15, R19, R20, R38, R40, R139, R144, R181, R188, R211 to R213, R215): the flight whose landing has come leaves the
list and writes its register, and nothing else changes. Of a vector result the lanes of its mask take the result and the others
keep their bits; a token pushed with a vector or a mask result carries the register as it then stands; a POST adds to its counter, which
saturates at 65,535, and past it EVENT-OVERFLOW is recorded with the counter's number in AUX. A command does at its landing what its
instruction says: XSCHED loads its records and releases those whose STAGE the counter has reached, XSTAGE raises the counter and releases
what it reaches (R139, R239, R240); STUL frees its lock (R121); a granted acquire holds its guard, and a release gives one up (R133,
R134); RGNNEW opens the lowest free region, RGNSET writes its field, RGNKILL kills its subtree and lands when its tasks have stopped
(R306, R318 to R320); ICFLUSH drops the captures of its range in its scope (R137); an access to a device register is performed (R330,
R335, R342, R435); PXFLUSH and a waiting PXPUSH land once the queue's counts allow it (R322); a waiting RPOP pops (R395).
Before the cycle's start, or in a context that may not move, nothing happens.
(It rests on choices of the model: notes/assumptions/7, 10, 22, 51, 52.) -/
def Obligations.ResultLanding : Prop :=
  (∀ (s : State) (n : Nat) (f : Flight) (fs gs : List Flight), LandsAlone s n f fs gs →
    let c := s.runCtx n
    (∀ d, registerLanding f { c with flights := fs ++ gs } = some d → LandsAs s n d) ∧
    (∀ r lanes mask, f.eff = .vec r lanes mask → r < 16 → ∃ d, LandsAs s n d ∧
      (∀ j : Fin 64, (d.vreg r).lanes[j] = if mask.getLsbD j then lanes[j] else (c.vreg r).lanes[j]) ∧
      (∀ q, q ≠ r → d.vreg q = c.vreg q) ∧
      d = { c with v := d.v, flights := d.flights } ∧ d.flights.map (·.seq) = (fs ++ gs).map (·.seq)) ∧
    (∀ e k, f.eff = .post e k → e < 32 →
      let total := (vget 0 c.events e).toNat + k
      let d := { c with flights := fs ++ gs, events := vset c.events e (BitVec.ofNat 16 (min total 65535)) }
      (total ≤ 65535 → LandsAs s n d) ∧
      (65535 < total → LandsAs s n { d with faults := c.faults ++
        [{ cause := 0x05, origin := f.stream, pc := f.pc, word := f.word, aux := e, addr := none, straddle := false,
           imprecise := false, redo := none, cbsel := none, seqPart := none }] }))) ∧
  (∀ (s : State) (n : Nat) (f : Flight) (fs gs : List Flight), LandsAlone s n f fs gs →
    let s0 := seenAt s n
    let c := s.runCtx n
    let j := (s.core n).running
    let rest : Ctx := { c with flights := fs ++ gs }
    let b := s0.setCtx rest
    let own := ∀ g ∈ fs ++ gs, g.seq ≠ f.seq
    let lands (u : State) : Prop := AtCore (.resultLand n) s u
    -- a landing in the running context, beside changes elsewhere
    let leaves (u : State) (d : Ctx) : Prop := lands u ∧ u.runCtx n = d
    let stays : Prop := LandsAs s n c
    -- a store: what its performance does stands in StoresAreSeen
    (∀ spad cs, f.eff = .store spad cs → (f.done = true → LandsAs s n rest) ∧
      (f.done = false →
        let u := (if f.eff.toHost then s0.forceHost f.stream f.seq else s0).performStore f
        lands (u.setCtx { u.ctx with flights := u.ctx.flights.erase f }))) ∧
    -- XSCHED and XSTAGE
    (∀ idx recs, f.eff = .command (.xsched idx recs) → idx + recs.length ≤ 64 → c.handler = false →
      c.slotsIn (· = .faulted) = [] → ∃ d, LandsAs s n d ∧ d = { rest with seq := { c.seq with slots := d.seq.slots, raised := d.seq.raised } } ∧
        (∀ i < 64, i < idx ∨ idx + recs.length ≤ i → d.slotAt i = c.slotAt i) ∧
        (∀ i, (h : i < recs.length) → (d.slotAt (idx + i)).record = recs[i] ∧
          (c.seq.stage < (Nest.ofBits recs[i]).stage → (d.slotAt (idx + i)).state = .loaded) ∧
          ((Nest.ofBits recs[i]).stage ≤ c.seq.stage → (∀ k, (h : k < recs.length) → (Nest.ofBits recs[k]).recordOk = true) →
            (d.slotAt (idx + i)).state = .released ∧ (d.slotAt (idx + i)).order = c.cycle) ∧
          ((Nest.ofBits recs[i]).stage ≤ c.seq.stage → (Nest.ofBits recs[i]).recordOk = false →
            (∀ k < i, (h : k < recs.length) → c.seq.stage < (Nest.ofBits recs[k]).stage ∨ (Nest.ofBits recs[k]).recordOk = true) →
            (d.slotAt (idx + i)).state = .faulted ∧ d.seq.raised = some (idx + i, c.cycle + 1)))) ∧
    (∀ m, f.eff = .command (.xstage m) →
      (m ≤ c.seq.stage → LandsAs s n rest) ∧
      (c.seq.stage < m → (∀ i < 64, (c.slotAt i).state = .loaded → (c.slotAt i).nest.recordOk = true) → ∃ d, LandsAs s n d ∧
        d = { rest with seq := { c.seq with slots := d.seq.slots, stage := m } } ∧
        ∀ i < 64, (d.slotAt i).record = (c.slotAt i).record ∧
          if (c.slotAt i).state = .loaded ∧ (c.slotAt i).nest.stage ≤ m then
            (d.slotAt i).state = .released ∧ (d.slotAt i).order = c.cycle
          else d.slotAt i = c.slotAt i)) ∧
    -- STUL's lock, acquires and releases
    (∀ off, f.eff = .command (.unlock off) → ∃ u, leaves u { rest with
        lockS := if c.lockS = some off then none else c.lockS
        lockL := if c.lockS ≠ some off ∧ c.lockL = some off then none else c.lockL } ∧
      u.die = s.die ∧ u.host = s.host ∧ (u.core n).spad = (s.core n).spad ∧
      ∀ i < 512, (u.core n).locks.getLsbD i = (if i = lockBit off then false else (s.core n).locks.getLsbD i)) ∧
    (∀ va pa excl dst version, f.eff = .command (.acquired va pa excl dst version) →
      let held : Ctx := { rest with guards := c.guards ++ [{ addr := va, pa, excl }] }
      ∃ u, leaves u (match dst with
        | some t => written held (BitVec.ofNat 64 version) t
        | none => held) ∧ u.die = s.die ∧ u.host = s.host ∧
      (u.core n).lines = (s.core n).lines.map fun l => { l with stale := true }) ∧
    (∀ pa h, f.eff = .command (.release pa) → c.holdsGuard pa = some h → b.forceDie.die.poisonIn pa 8 = none → ∃ u, lands u ∧
      MemTakes b.forceDie u pa 8 (guardReleased (b.forceDie.peek pa 8) h.excl) ∧
      (u.runCtx n).guards = c.guards.filter (fun g => g.pa ≠ pa) ∧ StoresDone u ∧ WrittenBack u) ∧
    -- RGNNEW, RGNSET, RGNKILL
    (∀ rcb parent dst, f.eff = .command (.rgnNew rcb parent dst) →
      let asn := s0.asn
      let free (i : Nat) : Prop := i < min (s.part asn).rgncnt 0xFFFF ∧ s.rgnLive asn i = false
      let answers (v : Word) : Ctx := match dst with
        | some t => written rest v t
        | none => rest
      ((∀ i, ¬ free i) → LandsAs s n (answers (BitVec.allOnes 64))) ∧
      (∀ i, free i → (∀ k < i, ¬ free k) → ∃ u, leaves u (answers (BitVec.ofNat 64 i)) ∧ u.rgnLive asn i = true ∧
        u.rgnEntry asn i = rcb ∧ (∀ g ∈ rcbDevice, u.rgnGet asn i g = if g = fIndex then i else if g = fParent then parent else 0) ∧
        ∀ k, k ≠ i → u.region asn k = s.region asn k)) ∧
    (∀ i g v, f.eff = .command (.rgnSet i g.1 v) → s.rgnLive s0.asn i = true →
      (g ∈ rcbSoftware → ∀ pa, s.vaLook s0.asn (s.rgnEntry s0.asn i + g.1) .write = some pa → s.die.poisonIn pa g.2 = none →
        ∃ u, leaves u rest ∧ MemTakes s u pa g.2 v ∧ u.die.regions = s.die.regions) ∧
      (g = fReason → v = 0 → ∃ u, leaves u rest ∧ u.rgnGet s0.asn i fReason = 0 ∧
        u.rgnGet s0.asn i fState = (if s.rgnGet s0.asn i fState = 2 then (if s.rgnGet s0.asn i fLive = 0 then 0 else 1)
          else s.rgnGet s0.asn i fState))) ∧
    (let within (i : Nat) := (s.rgnAll s0.asn).filter fun k => s.rgnWithin s0.asn i k
     let inside (subs : List Nat) (t : Task) : Prop := t.part = s0.asn ∧ t.region ∈ subs
     let elsewhere (p : Task → Prop) : Prop := ∃ m < 128, ∃ k < 2, (m ≠ n ∨ k ≠ j) ∧ ∃ t, (s.ctxAt m k).task = some t ∧ p t
     let mine (subs : List Nat) : Prop := ∃ t, c.task = some t ∧ t.region ∈ subs
     (∀ i, f.eff = .command (.rgnKill i) →
       let subs := within i
       ∃ u, lands u ∧
         (∀ k ∈ subs, s.rgnDead s0.asn k = false → u.rgnLive s0.asn k = true → u.rgnGet s0.asn k fState = 4) ∧
         (∀ m < 128, m ≠ n → ∀ t, (s.runCtx m).task = some t → inside subs t → t.gated = false →
           (u.ctxAt m (s.core m).running).task = some { t with killed := true } ∧ (u.ctxAt n j).flights = fs ++ { f with eff := .command (.killing i subs) } :: gs) ∧
         (∀ m < 128, ∀ r ∈ (u.core m).ready, r.part = s0.asn → r.region ∉ subs) ∧
         (¬ elsewhere (inside subs) → (mine subs → u.ctxAt n j = Ctx.reset) ∧ (¬ mine subs → (u.ctxAt n j).flights = fs ++ gs))) ∧
     (∀ i subs, f.eff = .command (.killing i subs) →
       (elsewhere (fun t => inside subs t ∧ t.killed = true) → stays) ∧
       (¬ elsewhere (fun t => inside subs t ∧ t.killed = true) →
         (mine subs → ∃ u, lands u ∧ u.ctxAt n j = Ctx.reset) ∧ (¬ mine subs → LandsAs s n rest)))) ∧
    -- ICFLUSH
    (∀ lo len scope, f.eff = .command (.icflush lo len scope) → ∃ u, leaves u rest ∧ u.die = s.die ∧ u.host = s.host ∧
      ∀ m < 128, ∀ x, x ∈ (u.core m).icache ↔ x ∈ (s.core m).icache ∧
        ¬ ((scope = 1 → m = n) ∧ (scope = 2 → m / 8 = n / 8) ∧ x.asn = s0.asn ∧ 128 * x.vline < lo + len ∧ lo < 128 * x.vline + 140)) ∧
    -- device registers
    (own → (∀ g ∈ fs ++ gs, g.device = false) →
      (∀ pa size signed t, f.eff = .command (.deviceLoad pa size signed t) →
        ∀ row ∈ [(0x3F00_0000_0008, s.die.tlbSeq % 2 ^ 62 * 4 + (if s.die.tlbDrop then 2 else 0) + (if s.die.tlbQueue = [] then 0 else 1), s.host),
            (0x3F00_0000_0100, s.host.lsgoPart * 256 + (if s.host.lsgoRefused then 2 else 0) + (if s.host.sched = none then 0 else 1),
              { s.host with lsgoRefused := false })] ++
            (List.range 128).flatMap (fun k => (List.range 16).map fun i => (0x3F00_0001_0000 + 128 * k + 8 * i, s.die.counter k i, s.host)),
          pa / 8 * 8 = row.1 → lands { s0.setCtx (written rest (extended size signed (natBytes size (row.2.1 / 2 ^ (8 * (pa % 8))))) t) with
            host := row.2.2 }) ∧
      (∀ pa size v, f.eff = .command (.deviceStore pa size v) →
        ∀ row ∈ [(0x3F00_0000_0000, Instr.tlbinv v), (0x3F00_0000_0008, .tlbinvst v), (0x3F00_0000_0100, .lsgo s0.asn v)] ++
            (List.range 128).map (fun k => (0x3F00_0001_0000 + 128 * k + 0x78, Instr.ctrl k v)),
          pa = row.1 → ∀ u, exec row.2 s0 = .next u → lands (u.setCtx rest))) ∧
    -- proxy queues and completion rings
    (∀ pa head, f.eff = .command (.proxyFlush pa head) →
      let reached := (s.peek (pa + 0x28) 8 + 2 ^ 64 - head) % 2 ^ 64 < 2 ^ 63
      (reached → LandsAs s n rest) ∧ (¬ reached → stays)) ∧
    (∀ desc pa shadow slots entry, f.eff = .command (.proxyPush desc pa shadow slots entry) →
      let head := s.peek (pa + 0x18) 8
      let full := (head + 2 ^ 64 - s.peek (pa + 0x28) 8) % 2 ^ 64 = slots
      (full → stays) ∧
      (own → ¬ full → ∀ place s1, s0.translate n s0.asn (shadow + 16 * (head % slots)) .write = (.ok ⟨place, 0⟩, s1) →
        let q := s1.proxyOf s0.asn desc
        let s2 := (s1.diePut place 16 entry).diePut (pa + 0x18) 8 ((s1.peek (pa + 0x18) 8 + 1) % 2 ^ 64)
        ∃ u, leaves u rest ∧ u.die.mem = s2.die.mem ∧ (u.proxyOf s0.asn desc).pushed = q.pushed ++ [s.time])) ∧
    ∀ ring t, f.eff = .command (.pop ring t) →
      let rp := s.peek (ring + 0x18) 8
      let d := s.ringDesc ring
      (s.peek (ring + 0x10) 8 ≤ rp → stays) ∧
      (own → rp < s.peek (ring + 0x10) 8 → s.die.poisonIn (ring + 0x18) 8 = none → ∃ u, lands u ∧
        u.runCtx n = written rest (BitVec.ofNat 64 (d.base + 32 * (rp % d.slots))) t ∧ MemTakes s u (ring + 0x18) 8 (rp + 1) ∧
        ∀ l ∈ (u.core n).lines, l.stale = true)) ∧
  ∀ (s : State) (n : Nat), n < 128 → (s.core n).turn ≠ 0 ∨ (s.runCtx n).moves = false → exec (.resultLand n) s = .next s

namespace Sys2Proof.Claims

/-- What an instruction that may issue answers where it traps with outside effects of its access standing in `s1`. -/
def TrapsIn (i : Instr) (w : Ins) (s s1 : State) (t : Trap) : Prop := exec i s = .next (s.trapped s1 i w t)

/-- The guard that an instruction's address a names stands on a normal page (R131, R132). -/
def GuardAt (s : State) (w : Ins) (pa : Nat) (s1 : State) : Prop :=
  (s.opA w).toNat % 64 = 0 ∧ ∃ ph, s.translate s.focus s.asn (s.opA w).toNat .write = (.ok ph, s1) ∧ ph.attr = 0 ∧ ph.pa = pa

/-- Memory at die scope holds in `u` what the focused core's cache held newer in `p`: every byte it had written, of a word that is not
poisoned, stands in LPDDR-6 (R170, R332, R346); the host's memory is as in `p` outside some bytes. -/
def Published (p u : State) (besides : Nat → Prop) : Prop :=
  (((p.core p.focus).lines.map (·.pline)).Nodup → ∀ l ∈ (p.core p.focus).lines, ∀ i < 128, l.dirty.getLsbD i = true →
    (128 * l.pline + i) / 32 * 32 ∉ p.die.poison → ∀ b, l.data[i]? = some b → u.die.mem.read (128 * l.pline + i) = b) ∧
  ∀ a, ¬ besides a → u.host.mem.read a = p.host.mem.read a

end Sys2Proof.Claims

/-- GUARD_GRANT (R133): the request that heads the guard's order is granted once STATE admits it; it leaves the order, STATE
takes the grant, and the acquire in flight holds VERSION and lands no earlier than now. With no such request nothing happens.
STATE's word (R131, R134): a grant sets bit 31 or adds a reader, a release clears bit 31 and adds 1 to VERSION, or takes a reader
away.
(It rests on choices of the model: notes/assumptions/10, 22.) -/
def Obligations.GuardGrant : Prop :=
  (∀ (s : State) (guard : Nat),
    let first := s.die.guardReqs.find? fun r => r.guard = guard
    let state := s.peek guard 8
    (∀ r, first = some r → bit state 31 = false → (r.excl = true → bits state 15 0 = 0) → s.die.poisonIn guard 8 = none →
      ∃ t, exec (.guardGrant guard) s = .next t ∧ t.die.guardReqs = s.die.guardReqs.erase r ∧
        MemTakes s t guard 8 (guardGranted state r.excl) ∧
        (t.ctxAt r.core r.slot).flights = (s.ctxAt r.core r.slot).flights.map fun f => match f.eff with
          | .command (.acquire va pa excl dst) =>
            if f.seq = r.seq ∧ pa = guard then
              { f with eff := .command (.acquired va pa excl dst (bits state 63 32)),
                       land := max f.land (s.ctxAt r.core r.slot).cycle }
            else f
          | _ => f) ∧
    (first = none ∨ (∃ r, first = some r ∧ (bit state 31 = true ∨ (r.excl = true ∧ bits state 15 0 ≠ 0))) →
      exec (.guardGrant guard) s = .next s)) ∧
  ∀ version readers, version < 2 ^ 32 → readers < 2 ^ 15 →
    let word (excl : Bool) (v r : Nat) := v * 2 ^ 32 + (if excl then 2 ^ 31 else 0) + r
    guardGranted (word false version 0) true = word true version 0 ∧
    guardGranted (word false version readers) false = word false version (readers + 1) ∧
    guardReleased (word true version 0) true = word false ((version + 1) % 2 ^ 32) 0 ∧
    guardReleased (word false version (readers + 1)) false = word false version readers

/-- FENCE, PUBLISH, ICFLUSH and CBSYNC (R135 to R138, R407): FENCE, with no engine command and no device access of the stream in
flight that it must wait for, performs the stream's stores, at die scope where its scope asks for that, and in exposed mode the
accesses to devices too; PUBLISH, of a window of the task's partition, writes back what the context stored, then the window's new
version, and answers it; ICFLUSH enters its invalidation behind the context's stores; CBSYNC waits for them. LPDDR-6, or the host
where a store goes to a window, then holds the bytes of the stores performed: those of each store as its landing performs it
(StoresAreSeen), and from there what the core's cache holds newer.
(It rests on choices of the model: notes/assumptions/11, 12, 107.) -/
def Obligations.FencesAndPublication : Prop :=
  ∀ (s : State) (w : Ins), s.mayIssue w = true →
    let st := s.streamOf w
    let n := w.imm.toNat
    (s.ctx.fenced st = true → exec (.fence w) s = .next (s.passTurn st)) ∧
    (s.ctx.fenced st = false → ∃ u, Enters (.fence w) w s u [] 0 ∧
      (∀ f ∈ u.ctx.flights, f.stream = st → f.waitsStore = false ∧ f.device = false) ∧
      (2 ≤ n → ∀ l ∈ (u.core u.focus).lines, l.dirty = 0 ∧ l.stale = true) ∧
      ((∀ f ∈ s.ctx.flights, f.stream = st → f.eff.engine = false) →
        let p := s.forceStores fun f => f.stream = st
        (2 ≤ n → Published p u fun _ => False) ∧ (n < 2 → u = p))) ∧
    (∀ k win, s.host.windows.find? (fun p => p.1 = n) = some (k, win) → win.part = s.asn →
      let v := (win.version + 1) % 2 ^ 64
      ∃ u, Enters (.publish w) w s u (s.ctx.result st w.dst (BitVec.ofNat 64 v)) (BitVec.ofNat 64 v) ∧
        u.host.mem.load win.verAddr 8 = natBytes 8 v ∧ StoresDone u ∧ WrittenBack u ∧
        (Published s.forceAll u fun a => win.verAddr ≤ a ∧ a < win.verAddr + 8) ∧
        u.host.windows.find? (fun p => p.1 = n) = some (n, { win with version := v })) ∧
    ((∀ p, s.host.windows.find? (fun p => p.1 = n) = some p → p.2.part ≠ s.asn) → Traps (.publish w) w s { cause := 0x03 }) ∧
    (1 ≤ n → n ≤ 3 → ∃ u, Enters (.icflush w) w s u [.command (.icflush (s.opA w).toNat (s.opB w).toNat n)] 0 ∧
      StoresDone u ∧ WrittenBack u ∧ Published s.forceAll u fun _ => False) ∧
    (n < 1 ∨ 3 < n → Traps (.icflush w) w s { cause := 0x03 }) ∧
    Enters (.cbsync w) w s s.forceAll [] 0 ∧ StoresDone s.forceAll

/-- The commands of S to its sequencer (R139, R239, R246, R247, R262): when each enters its effect, when it waits and when it
raises ILLEGAL-OPERAND.
(It rests on choices of the model: notes/assumptions/84.) -/
def Obligations.SequencerCommands : Prop :=
  ∀ (s : State) (w : Ins), s.mayIssue w = true →
    let st := s.streamOf w
    let c := s.ctx
    let a := (s.opA w).toNat
    let n := w.imm.toNat
    let idx := bits n 5 0
    let cnt := bits n 12 6
    let h := ringOf w.sa
    let r := c.ring h
    let bad : Trap := { cause := 0x03 }
    -- the records of some slots that are released and not complete
    let active (p : Nat → Bool) := (List.range 64).filter fun i => (c.slotAt i).state.pending && p i
    let inRange := active fun i => idx ≤ i && i < idx + cnt
    let naming := active fun i => (c.slotAt i).nest.ring = h && (c.slotAt i).nest.op ≠ 0
    let waits (i : Instr) := exec i s = .next (s.passTurn st)
    -- XSCHED
    (1 ≤ cnt → idx + cnt ≤ 64 → a % 64 = 0 → c.seqBusy = false →
      (if c.handler then ∀ i ∈ inRange, (c.slotAt i).state = .faulted else inRange = []) →
      ∀ bs s1, (s.forceStores fun f => f.stream = st).loadVirt st a (64 * cnt) = (.ok bs, s1) →
        Enters (.xsched w) w s s1 [.command (.xsched idx (splitRecords bs cnt))] 0) ∧
    (1 ≤ cnt → idx + cnt ≤ 64 → a % 64 = 0 → c.handler = false → inRange ≠ [] → waits (.xsched w)) ∧
    (1 ≤ cnt → idx + cnt ≤ 64 → a % 64 = 0 → c.handler = true → c.seqBusy = false →
      (∃ i ∈ inRange, (c.slotAt i).state ≠ .faulted) → Traps (.xsched w) w s bad) ∧
    (cnt = 0 ∨ 64 < idx + cnt → Traps (.xsched w) w s bad) ∧
    -- XSTAGE
    (c.stageAhead ≤ n → n ≤ 4095 → ∃ u, exec (.xstage w) s =
        .next (s.issued u (.xstage w) w [.command (.xstage n)] 0 (lat := c.seqLat (latBound w.lat))) ∧
      (∀ f ∈ u.ctx.flights, f.stream = st → f.waitsStore = false)) ∧
    (n < c.stageAhead ∨ 4095 < n → Traps (.xstage w) w s bad) ∧
    -- RINGSET
    (1 ≤ n → n ≤ 256 → c.ringWaits st h = false → c.seqBusy = false → naming = [] →
      Enters (.ringset w) w s s [.command (.ringset h n)] 0) ∧
    (1 ≤ n → n ≤ 256 → c.ringWaits st h = false → c.seqBusy = false → naming ≠ [] →
      if c.handler then Traps (.ringset w) w s bad else waits (.ringset w)) ∧
    (n < 1 ∨ 256 < n → Traps (.ringset w) w s bad) ∧
    -- AWFILL
    (c.ringWaits st h = false → 1 ≤ n → r.slots ≠ 0 → n ≤ r.slots →
      (n ≤ r.filled → GivesResult (.awfill w) w s (BitVec.ofNat 64 r.rp)) ∧ (r.filled < n → waits (.awfill w))) ∧
    (c.ringWaits st h = false → r.slots ≠ 0 → n = 0 ∨ r.slots < n → Traps (.awfill w) w s bad) ∧
    (r.slots = 0 → waits (.awfill w)) ∧
    -- RLSLOT
    (c.ringWaits st h = false → 1 ≤ n → n ≤ r.filled → (r.slots ≠ 0 → n ≤ r.slots) →
      Enters (.rlslot w) w s (s.setCtx (c.setRing h { r with rp := (r.rp + n) % r.slots, filled := r.filled - n })) [] 0) ∧
    (c.ringWaits st h = false → n = 0 ∨ (r.slots ≠ 0 ∧ r.slots < n) ∨ r.filled < n → Traps (.rlslot w) w s bad) ∧
    -- XSTAT
    (∀ k, w.sa = .h k → c.ringWaits st k = false →
      let g := c.ring k
      GivesResult (.xstat w) w s (BitVec.ofNat 64 (g.slots * 2 ^ 48 + g.filled * 2 ^ 32 + g.wp * 2 ^ 16 + g.rp))) ∧
    ((∀ k, w.sa ≠ .h k) → GivesResult (.xstat w) w s (BitVec.ofNat 64
      (((c.slotsIn (· = .faulted)).headD 0xFFFF) * 2 ^ 32 + (active fun _ => true).length * 2 ^ 16 + c.seq.stage)))

namespace Sys2Proof.Claims

/-- The running context of a core stands at the start of a cycle, may move, has no fault to take and nothing in flight. -/
def Quiet (s : State) (n : Nat) : Prop :=
  let c := s.runCtx n
  n < 128 ∧ (s.core n).turn = 0 ∧ c.moves = true ∧ c.faults = [] ∧ c.flights = []

/-- All five streams stand at one instruction with a status (R24, R126, R142). -/
def AllAt (c : Ctx) (p : StreamStatus) : Prop := ∀ k < 5, (c.stream k).status = p ∧ (c.stream k).pc = (c.stream 0).pc

/-- The registers of a stream as the trap's handler finds them, `x` and `alt` the task's two banks (R141). -/
def HandlerBank (x : Vector Word 16) (alt : Vector Word 4) (t : Stream) : Prop :=
  (∀ i < 12, vget 0 t.x i = vget 0 x i) ∧ (∀ i < 4, vget 0 t.xAlt i = vget 0 x (12 + i)) ∧
  (∀ i < 2, vget 0 t.x (12 + i) = vget 0 alt i)

end Sys2Proof.Claims

/-- TRAP_ENTRY (R141, R273, R276), of a task in task mode with a handler, nothing in flight and the frame written: the first fault
by origin is reported; all five streams stand at TVEC with empty loop stacks, queues, positions and counts, x12 to x15 change banks, S finds
the cause in x14 and the frame's address in x15; the handler runs interlocked with slip 4,096, empty token queues and events, and
the task's values are kept. With no fault nothing happens; with no handler, or in one, the task ends faulted.
(It rests on choices of the model: notes/assumptions/15, 46, 81, 83.) -/
def Obligations.TrapEntry : Prop :=
  ∀ (s : State) (n : Nat), n < 128 →
    let s0 := seenAt s n
    let c := s0.ctx
    (c.faults = [] → exec (.trapEntry n) s = .next s) ∧
    (∀ f, c.reported = some f → c.flights = [] → c.task.isSome = true → c.handler = true ∨ c.tvec = 0 →
      AtCore (.trapEntry n) s (s0.endRunning .faulted f.cause (f.addr.getD 0))) ∧
    (∀ f, c.reported = some f → c.flights = [] → c.task.isSome = true → c.handler = false → c.tvec ≠ 0 →
      let marked := if f.origin = 6 then { c.markRedo with timerEn := false } else c.markRedo
      let s1 := s0.setCtx { marked with array := [] }
      ∀ s2, s1.writeFrame c.frameAddr.toNat (s1.ctx.frameBytes (marked.faultHead f) true s1.resumeBitmaps) = (true, s2) →
        ∃ t, exec (.trapEntry n) s = .next t ∧ t.die = s2.die ∧ t.host = s2.host ∧ (t.core n).turn = 0 ∧
          (let d := t.runCtx n
           d.handler = true ∧ d.hcause = BitVec.ofNat 8 f.cause ∧ d.hfail = false ∧ d.exposed = false ∧ d.slip = 4096 ∧
           d.tokens = Vector.replicate 6 [] ∧ d.events = Vector.replicate 32 0 ∧ d.outcomes = [] ∧ d.flights = [] ∧ d.faults = [] ∧
           (∀ k < 5, (d.stream k).pc = c.tvec.toNat ∧ (d.stream k).pos = 0 ∧ (d.stream k).loops = [] ∧ (d.stream k).qCount = 0 ∧
             (d.stream k).brCount = 0 ∧ (d.stream k).status = .run ∧
             HandlerBank (c.stream k).x (c.stream k).xAlt (d.stream k)) ∧
           vget 0 (d.stream 0).x 14 = BitVec.ofNat 64 f.cause ∧ vget 0 (d.stream 0).x 15 = c.frameAddr.setWidth 64 ∧
           d.saved.map (fun v => (v.streams, v.outcomes, v.tokens, v.events, v.slip, v.exposed, v.flights, v.stop)) =
             some (marked.streams, c.outcomes, c.tokens, c.events, c.slip, c.exposed, [], c.cycle) ∧
           d = { c with handler := d.handler, hcause := d.hcause, hfail := d.hfail, exposed := d.exposed, slip := d.slip,
                        tokens := d.tokens, events := d.events, outcomes := d.outcomes, flights := d.flights,
                        faults := d.faults, streams := d.streams, saved := d.saved, timerEn := d.timerEn, array := d.array,
                        seq := { c.seq with raised := none } }))

/-- ERET_RETURN (R141, R142, R278, R279), from a handler whose streams all stand at one ERET with nothing in flight: from a valid
frame each stream goes on at its record's RESUME with the scalars the handler leaves and its own x12 to x15, and the task's
outcomes, events, slip window and mode are back. A stream whose withdrawn operation stayed on the core, its record unchanged, goes on
behind that operation, which waits anew; an acquire among them stands in its guard's order (R449). A frame of another version, or one
that cannot be read, ends the task with FRAME-INVALID.
(It rests on choices of the model: notes/assumptions/45, 95, 109.) -/
def Obligations.EretReturn : Prop :=
  ∀ (s : State) (n : Nat), n < 128 →
    let s0 := seenAt s n
    let c := s0.ctx
    let here := Quiet s n ∧ c.handler = true ∧ AllAt c .eret
    (¬ here → exec (.eretReturn n) s = .next s) ∧
    (here → ∀ sv, c.saved = some sv → ∀ bs s1, s0.loadVirt 0 c.frameAddr.toNat 0x140 = (.ok bs, s1) →
      let rs := resumeRecs bs
      let back := s1.ctx.restored sv
      (bytesNat (bs.take 2) = 1 → (∀ p ∈ rs.zipIdx, p.1.bad (back.shown p.2) = false) →
        (∀ f ∈ sv.flights, f.eff.unbounded = true → f.back.isSome = true) →
        (∀ p ∈ rs.zipIdx, back.heldWait p.2 = none ∨ p.1.keeps back p.2 = true) →
        ∀ u, s1.ctx.resumeUnit bs = some u → ∃ t, exec (.eretReturn n) s = .next t ∧ t.host = s1.host ∧ t.retr = s1.retr ∧
          { t.die with guardReqs := s1.die.guardReqs } = s1.die ∧
          (∀ f ∈ sv.flights, ∀ va pa excl dst, f.eff = .command (.acquire va pa excl dst) →
            ∃ r ∈ t.die.guardReqs, r.core = n ∧ r.slot = (s.core n).running ∧ r.seq = f.seq) ∧
          let d := t.runCtx n
          d.handler = false ∧ d.saved = none ∧ d.outcomes = sv.outcomes ∧ d.events = sv.events ∧ d.slip = sv.slip ∧
          d.exposed = sv.exposed ∧ d.flights = sv.flights.map (fun f => { f with land := c.cycle + (f.land - sv.stop) }) ∧
          ∀ k < 5, (d.stream k).pc = (if back.heldWait k = none then bytesNat ((bs.drop (0x030 + 48 * k)).take 6)
              else (vget Stream.reset sv.streams k).pc) ∧
            (∀ i < 12, vget 0 (d.stream k).x i = vget 0 (c.stream k).x i) ∧
            (∀ i < 4, vget 0 (d.stream k).x (12 + i) = vget 0 (vget Stream.reset sv.streams k).x (12 + i)) ∧
            (∀ i < 4, vget 0 (d.stream k).xAlt i = vget 0 (c.stream k).x (12 + i))) ∧
      (bytesNat (bs.take 2) ≠ 1 → AtCore (.eretReturn n) s (s1.endRunning .faulted 0x1A 0))) ∧
    (here → c.saved.isSome = true → ∀ f s1, s0.loadVirt 0 c.frameAddr.toNat 0x140 = (.error f, s1) →
      AtCore (.eretReturn n) s (s1.endRunning .faulted 0x1A f.addr))

/-- MODE_BARRIER_PASS, TASK_COMPLETE and TIMER_FIRE (R24, R126, R142, R146): all five streams at one barrier with nothing in flight
pass it in its mode; all at DONE, the sequencer idle, the task completes, or ends faulted where its handler set FAIL; the armed
timer records TIMER once the cycle reaches TIMECMP. Where that is not so nothing happens.
(It rests on choices of the model: notes/assumptions/72, 81, 82.) -/
def Obligations.BarriersAndTimer : Prop :=
  ∀ (s : State) (n : Nat), n < 128 →
    let s0 := seenAt s n
    let c := s0.ctx
    (∀ exposed len, Quiet s n → AllAt c (.barrier exposed len) → ∃ t, exec (.modeBarrierPass n) s = .next t ∧
      (t.runCtx n).exposed = exposed ∧
      ∀ k < 5, let a := c.stream k; let r := bodyEnd ((a.pc + len) % 2 ^ 48) a.loops
        (t.runCtx n).stream k = { a with pc := r.1, loops := r.2.1, pos := a.pos + 1, status := .run, redo := none, passBrk := false }) ∧
    ((∀ exposed len, ¬ (Quiet s n ∧ AllAt c (.barrier exposed len))) → exec (.modeBarrierPass n) s = .next s) ∧
    (Quiet s n → AllAt c .done → c.handler = false → c.seqIdle = true →
      AtCore (.taskComplete n) s (s0.endRunning .completed 0 0)) ∧
    (Quiet s n → AllAt c .done → c.handler = true → AtCore (.taskComplete n) s
      (if c.hfail then s0.endRunning .faulted c.hcause.toNat (((c.saved.bind fun x => x.fault.addr)).getD 0)
       else s0.endRunning .completed 0 0)) ∧
    (¬ (Quiet s n ∧ AllAt c .done ∧ (c.handler = true ∨ c.seqIdle = true)) → exec (.taskComplete n) s = .next s) ∧
    (let due := (s.core n).turn = 0 ∧ c.moves = true ∧ c.handler = false ∧ c.timerEn = true ∧ c.timecmp.toNat ≤ c.cycle ∧
        ∀ f ∈ c.faults, f.origin ≠ 6
     (due → ∃ d, AtCore (.timerFire n) s (s0.setCtx d) ∧ d = { c with faults := d.faults } ∧
        d.faults.map (fun f => (f.cause, f.origin)) = c.faults.map (fun f => (f.cause, f.origin)) ++ [(0x10, 6)]) ∧
     (¬ due → exec (.timerFire n) s = .next s))

namespace Sys2Proof.Claims

/-- The lane instructions of R184 to R187 and R190: what a lane holds after one, from the format, the rounding mode, whether
subnormals are honoured and the stored bits of the three sources. -/
def laneTable : List ((Ins → Instr) × (Nat → Nat → Bool → Nat → Nat → Nat → Nat)) :=
  let int (g : Int → Int → Int) (v : Nat → Nat → Bool → Val → Val → Nat) : Nat → Nat → Bool → Nat → Nat → Nat → Nat :=
    fun f rm sn a b _ =>
      if fmtClassI f then wrapInt (g (intVal f a) (intVal f b)) (fmtWidth f)
      else v f rm sn (decodeValue a f sn) (decodeValue b f sn)
  let val (g : Val → Val → Val) : Nat → Nat → Bool → Nat → Nat → Nat → Nat :=
    fun f rm sn a b _ => encodeVal (g (decodeValue a f sn) (decodeValue b f sn)) f rm sn
  let both (f : Nat) (x : Val) (y : Val) (sn : Bool) (first : Bool) : Nat :=
    if x.cls = .nan ∨ y.cls = .nan then nanBits f else encodeVal (if first then x else y) f 0 sn
  let negT (f a : Nat) : Nat := (2 ^ fmtWidth f - a) % 2 ^ fmtWidth f
  [(.vadd, int (· + ·) fun f rm sn x y => addVals x y f rm sn),
   (.vsub, int (· - ·) fun f rm sn x y => addVals x (flip y) f rm sn),
   (.vmul, int (· * ·) fun f rm sn x y => encodeVal (mulVal x y) f rm sn),
   (.vfma, fun f rm sn a b c => fmaBits (decodeValue a f sn) (decodeValue b f sn) (decodeValue c f sn) false f rm sn),
   (.vfms, fun f rm sn a b c => fmaBits (decodeValue a f sn) (decodeValue b f sn) (decodeValue c f sn) true f rm sn),
   (.vmin, int min fun f _ sn x y => both f x y sn (!valLt y x)),
   (.vmax, int max fun f _ sn x y => both f x y sn (!valLt x y)),
   (.vabs, fun f _ sn a _ _ =>
     if fmtClassI f then wrapInt (intVal f a).natAbs (fmtWidth f)
     else if fmtClassT f then (if bit a (fmtWidth f - 1) then negT f a else a)
     else encodeVal { decodeValue a f sn with s := false } f 0 sn),
   (.vneg, fun f _ sn a _ _ =>
     if fmtClassI f then wrapInt (-intVal f a) (fmtWidth f)
     else if fmtClassT f then negT f a else encodeVal (flip (decodeValue a f sn)) f 0 sn),
   (.vadds, fun f _ _ a b _ => wrapInt (min (max (intVal f a + intVal f b) (intLo f)) (intHi f)) (fmtWidth f)),
   (.vsubs, fun f _ _ a b _ => wrapInt (min (max (intVal f a - intVal f b) (intLo f)) (intHi f)) (fmtWidth f)),
   (.vmulh, fun f _ _ a b _ => wrapInt (intVal f a * intVal f b / ((2 ^ fmtWidth f : Nat) : Int)) (fmtWidth f)),
   (.vdiv, val divVal), (.vsqrt, val fun x _ => sqrtVal x), (.vrcp, val fun x _ => divVal ⟨.num, false, 1, 0⟩ x),
   (.vrsq, val fun x _ => rsqrtVal x), (.vexp2, val fun x _ => exp2Val x), (.vlog2, val fun x _ => log2Val x),
   (.vand, fun _ _ _ a b _ => a &&& b), (.vor, fun _ _ _ a b _ => a ||| b), (.vxor, fun _ _ _ a b _ => a ^^^ b),
   (.vshl, fun f _ _ a b _ => if fmtWidth f ≤ b then 0 else a * 2 ^ b % 2 ^ fmtWidth f),
   (.vshrl, fun f _ _ a b _ => if fmtWidth f ≤ b then 0 else a / 2 ^ b),
   (.vshra, fun f _ _ a b _ =>
     wrapInt (if fmtWidth f ≤ b then (if intVal f a < 0 then -1 else 0) else intVal f a / ((2 ^ b : Nat) : Int)) (fmtWidth f)),
   (.vmov, fun _ _ _ a _ _ => a), (.vbcast, fun _ _ _ _ b _ => b)]

/-- The vector and port sources in some slots carry the formats asked for, FMT is not A36, and the ports read can give their
entries, which leaves `s1` (R162, R180). -/
def VectorReady (s : State) (w : Ins) (slots : List (Nat × Nat)) (s1 : State) : Prop :=
  s.ctx.fmtCheck w slots = none ∧ fmtOf w ≠ fmtA36 ∧ s.fillPorts w false = (none, s1)

/-- The state in which a vector result is entered: the destination has its new tag, the ports are popped (R20, R162, R180). -/
def tagged (w : Ins) (s1 : State) : State := (s1.setCtx (s1.ctx.setTag (vdst w) w.fmt)).popPorts w

/-- An issue that enters a vector result for the lanes of a mask, its payload lanes 1 and 0 (R181, R182). -/
def GivesLanes (i : Instr) (w : Ins) (s u : State) (lanes : Vector Lane 64) (mask : Word) : Prop :=
  Enters i w s u [.vec (vdst w) lanes mask] (vget 0 lanes 1 ++ vget 0 lanes 0)

/-- Lane `j` of source `slot` as stored bits. -/
def laneAt (s1 s : State) (w : Ins) (slot : Nat) (j : Nat) : Nat :=
  laneBits (fmtOf w) (vget 0 (s1.laneSrc (s.streamOf w) (s.popped w) w slot) j)

end Sys2Proof.Claims

/-- The lane instructions (R20, R180 to R187, R190): with its sources in the formats asked for, each completes, and every lane
that the predicate enables is to take the operation on the stored bits of the sources; FMT A36 raises ILLEGAL-OPERAND whatever the
tags, a wrong format FORMAT-MISMATCH.
(It rests on choices of the model: notes/assumptions/13, 73, 111.) -/
def Obligations.VectorLanes : Prop :=
  ∀ row ∈ laneTable, ∀ (s : State) (w : Ins), s.mayIssue w = true →
    let f := fmtOf w
    (∀ s1, VectorReady s w [(0, f), (1, f), (2, f)] s1 → ∃ lanes, GivesLanes (row.1 w) w s (tagged w s1) lanes (s1.lanePred w) ∧
      ∀ j : Fin 64, lanes[j] = laneForm f (row.2 f w.mod.toNat (!s1.ctx.exposed)
        (laneAt s1 s w 0 j) (laneAt s1 s w 1 j) (laneAt s1 s w 2 j))) ∧
    (f ≠ fmtA36 → ∀ t, s.ctx.fmtCheck w [(0, f), (1, f), (2, f)] = some t →
      exec (row.1 w) s = .next (s.raise (s.streamOf w) (row.1 w).word t none)) ∧
    (f = fmtA36 → Traps (row.1 w) w s { cause := 0x03 })

namespace Sys2Proof.Claims

/-- The comparisons of R188: of integers, and of values. -/
def relationTable : List ((Ins → Instr) × (Int → Int → Bool) × (Val → Val → Bool)) :=
  [(.vcmpeq, (fun x y => x = y), valEq), (.vcmpne, (fun x y => x ≠ y), fun x y => !valEq x y),
   (.vcmplt, (fun x y => x < y), fun x y => x.cls ≠ .nan && y.cls ≠ .nan && valBelow x y),
   (.vcmple, (fun x y => x ≤ y), fun x y => x.cls ≠ .nan && y.cls ≠ .nan && (valBelow x y || valEq x y))]

/-- The reductions of R193: over the integers of the enabled lanes, and of two values in the tree of R109, with the answer where
no lane is enabled. -/
def reductionTable : List ((Ins → Instr) × (List Int → Nat → Int) × (Nat → Nat → Bool → Val → Val → Nat) × (Nat → Nat)) :=
  let pick (f : Nat) (x y : Val) (sn first : Bool) : Nat :=
    if x.cls = .nan ∨ y.cls = .nan then nanBits f else encodeVal (if first then x else y) f 0 sn
  [(.vredadd, (fun l _ => l.sum), (fun f rm sn x y => addVals x y f rm sn), fun f => zeroBits f false),
   (.vredmax, (fun l f => l.foldl max (intLo f)), (fun f _ sn x y => pick f x y sn (!valLt x y)), fun f => infBits f true),
   (.vredmin, (fun l f => l.foldl min (intHi f)), (fun f _ sn x y => pick f x y sn (!valLt y x)), fun f => infBits f false)]

/-- The mask instructions of R192 on two masks. -/
def maskTable : List ((Ins → Instr) × (Word → Word → Word)) :=
  [(.kand, fun a b => a &&& b), (.kor, fun a b => a ||| b), (.kxor, fun a b => a ^^^ b), (.knot, fun a _ => ~~~a)]

end Sys2Proof.Claims

/-- Comparisons, VCLASS, reductions and the mask instructions (R188, R189, R192, R193): what each mask bit or scalar becomes.
(It rests on choices of the model: notes/assumptions/96.) -/
def Obligations.VectorTests : Prop :=
  ∀ (s : State) (w : Ins), s.mayIssue w = true →
    let f := fmtOf w
    let st := s.streamOf w
    let k (slot : Nat) := s.maskSrc st slot (sourceAt w slot)
    (∀ s1, VectorReady s w [(0, f), (1, f), (2, f)] s1 →
      let sn := !s1.ctx.exposed
      let on (j : Nat) := (s1.lanePred w).getLsbD j
      (∀ row ∈ relationTable, ∃ v, Enters (row.1 w) w s (s1.popPorts w) (maskResult w v (BitVec.allOnes 64)) v ∧
        ∀ j < 64, v.getLsbD j = (on j &&
          (if fmtClassI f then row.2.1 (intVal f (laneAt s1 s w 0 j)) (intVal f (laneAt s1 s w 1 j))
           else row.2.2 (decodeValue (laneAt s1 s w 0 j) f sn) (decodeValue (laneAt s1 s w 1 j) f sn)))) ∧
      (∃ v, Enters (.vclass w) w s (s1.popPorts w) (maskResult w v (BitVec.allOnes 64)) v ∧
        ∀ j < 64, v.getLsbD j = (on j && w.imm.getLsbD (classOf f (laneAt s1 s w 0 j)))) ∧
      (∀ row ∈ reductionTable,
        let present := (List.range 64).map fun j => if on j then some (laneAt s1 s w 0 j) else none
        let v : Word :=
          if fmtClassI f then BitVec.ofInt 64 (row.2.1 ((present.filterMap id).map (intVal f)) f)
          else BitVec.ofNat 64 ((redTree (fun x y => row.2.2.1 f w.mod.toNat sn (decodeValue x f sn) (decodeValue y f sn))
            present).getD (row.2.2.2 f))
        Enters (row.1 w) w s (s1.popPorts w) (s.ctx.result st w.dst v) v)) ∧
    (∀ row ∈ maskTable, Enters (row.1 w) w s s (maskResult w (row.2 (k 0) (k 1)) (s.lanePred w)) (row.2 (k 0) (k 1))) ∧
    (let v := match w.sa with
       | .k n => s.readMask st n 0
       | _ => s.opA w
     Enters (.kmov w) w s s (maskResult w v (s.lanePred w) ++ s.ctx.result st w.dst v) v) ∧
    GivesResult (.kpop w) w s (BitVec.ofNat 64 ((List.range 64).countP fun j => (k 0).getLsbD j && (s.lanePred w).getLsbD j))

/-- Selection, permutation, insertion, extraction and conversion (R190, R191, R194): the lanes each is to leave, and where it
raises ILLEGAL-OPERAND or POLICY-FAULT.
(It rests on choices of the model: notes/assumptions/26.) -/
def Obligations.VectorMoves : Prop :=
  ∀ (s : State) (w : Ins),
    let f := fmtOf w
    let st := s.streamOf w
    let nth := (s.opB w).toNat
    (s.mayIssue w = true →
      (∀ s1, VectorReady s w [(0, f), (1, f)] s1 → ∃ lanes, GivesLanes (.vsel w) w s (tagged w s1) lanes (s1.lanePred w) ∧
        ∀ j : Fin 64, lanes[j] = laneForm f (laneAt s1 s w (if (s1.maskSrc st 2 w.sc).getLsbD j then 0 else 1) j)) ∧
      (∀ s1, VectorReady s w [(0, f)] s1 →
        let m := s1.maskSrc st 1 w.sb
        let chosen := (List.range 64).filter fun i => m.getLsbD i
        (∃ lanes, GivesLanes (.vcomp w) w s (tagged w s1) lanes (BitVec.allOnes 64) ∧
          ∀ j : Fin 64, lanes[j] = laneForm f (if h : j.val < chosen.length then laneAt s1 s w 0 chosen[j.val] else 0)) ∧
        (∃ lanes, GivesLanes (.vexpd w) w s (tagged w s1) lanes (BitVec.allOnes 64) ∧
          ∀ j : Fin 64, lanes[j] =
            if m.getLsbD j then laneForm f (laneAt s1 s w 0 ((chosen.filter (· < j.val)).length)) else 0) ∧
        (nth ≤ 63 →
          let l := laneForm f (laneAt s1 s w 0 nth)
          let v : Word := match fmtKind f with
            | .sint _ => BitVec.ofInt 64 l.toInt
            | _ => BitVec.ofNat 64 l.toNat
          ((s1.lanePred w).getLsbD nth = true →
            Enters (.vextr w) w s (s1.popPorts w) (s.ctx.result st w.dst v) v) ∧
          ((s1.lanePred w).getLsbD nth = false → Enters (.vextr w) w s (s1.popPorts w) [] 0)) ∧
        (63 < nth → Traps (.vextr w) w s { cause := 0x03 })) ∧
      (∀ s1, VectorReady s w [(0, f), (1, fmtS32)] s1 →
        ∃ lanes, GivesLanes (.vperm w) w s (tagged w s1) lanes (s1.lanePred w) ∧ ∀ j : Fin 64, lanes[j] =
          laneForm f (laneAt s1 s w 0 ((vget 0 (s1.laneSrc st (s.popped w) w 1) j).toNat % 64))) ∧
      (∀ s1, VectorReady s w [] s1 → ∃ lanes, GivesLanes (.viota w) w s (tagged w s1) lanes (s1.lanePred w) ∧
        ∀ j : Fin 64, lanes[j] =
          laneForm f (((List.range j).filter fun i => (s1.maskSrc st 0 w.sa).getLsbD i).length % 2 ^ fmtWidth f))) ∧
    (s.mayIssue w [.v (vdst w)] = true → (s.ctx.vreg (vdst w)).tag.toNat = f → fmtNamed f = true → f ≠ fmtA36 →
      (nth ≤ 63 → ∃ lanes, GivesLanes (.vins w) w s (s.setCtx (s.ctx.setTag (vdst w) w.fmt)) lanes
          (s.lanePred w &&& BitVec.twoPow 64 nth) ∧
        ∀ j : Fin 64, lanes[j] = laneForm f ((s.opA w).toNat % 2 ^ fmtWidth f)) ∧
      (63 < nth → Traps (.vins w) w s { cause := 0x03 })) ∧
    (s.mayIssue w [.sys 0x001] = true → (∀ t, s.ctx.tagOf w.sa = some t → fmtNamed t = true) → f ≠ fmtA36 →
      ∀ s1, s.fillPorts w false = (none, s1) →
        let src := (s1.ctx.tagOf w.sa).getD 0
        let lane (j : Nat) := convertValue (laneBits src (vget 0 (s1.laneSrc st (s.popped w) w 0) j)) src f s1.ctx.vcvtpol.toNat
          w.mod.toNat (!s1.ctx.exposed)
        let on (j : Nat) := (s1.lanePred w).getLsbD j = true
        ((∀ j < 64, on j → ∀ c, lane j ≠ .error c) → ∃ lanes, GivesLanes (.vcvt w) w s (tagged w s1) lanes (s1.lanePred w) ∧
          ∀ j : Fin 64, ∀ y, lane j = .ok y → lanes[j] = laneForm f y) ∧
        (∀ j < 64, on j → ∀ c, lane j = .error c → (∀ i < j, on i → ∀ d, lane i ≠ .error d) →
          TrapsIn (.vcvt w) w s s1 { cause := 0x09, aux := c.code * 2 ^ 16 + j }))

namespace Sys2Proof.Claims

/-- The element of `n` bytes at a scratchpad offset as a stream sees it (R3, R119, R172). -/
def spadElem (s : State) (st n a : Nat) : Nat :=
  bytesNat (s.ctx.overlay st true (places (s.ctx.spbase + a) n) (s.here.spad.load (s.ctx.spbase + a) n))

/-- Every enabled lane's element of `n` bytes lies, aligned, in the scratchpad grant (R117, R150, R197, R198). -/
def InGrant (s : State) (on : Word) (n : Nat) (addr : Nat → Int) : Prop :=
  ∀ j < 64, on.getLsbD j = true → 0 ≤ addr j ∧ addr j % n = 0 ∧ addr j + n ≤ min s.ctx.spadGrant 0x20_0000

/-- The effective addresses of the lanes: consecutive, strided, and indexed (R196 to R198). -/
def unitAddr (ea n : Nat) (j : Nat) : Int := ea + n * j
def strideAddr (ea : Nat) (stride : Word) (j : Nat) : Int := ea + j * stride.toInt
def indexedAddr (ea n : Nat) (ix : Vector Lane 64) (j : Nat) : Int := ea + (vget 0 ix j).toInt * n

/-- The issue has asked for banks of the scratchpad and has done nothing else yet (R152). -/
def BanksAsked (s u : State) : Prop := u = s.setCtx { s.ctx with wants := u.ctx.wants }

/-- The destination register has its new tag (R20, R180). -/
def retagged (w : Ins) (s1 : State) : State := s1.setCtx (s1.ctx.setTag (vdst w) w.fmt)

end Sys2Proof.Claims

/-- The vector loads (R180, R195 to R200, R204): VLD, VLDS and VGATH complete once every byte they read can be read, with the
enabled lanes in flight; in the scratchpad each enabled lane is the element at its address; VGATH and VFILL clear their bitmap as
they land, VFILL loads for each register j of its set that is not yet marked the 256 bytes at a + 256·j and the tag at a + 4096 + j,
NLD loads a nest register; a misaligned address raises MISALIGNED-ACCESS, FMT A36 ILLEGAL-OPERAND, and a fault of VGATH leaves the
lanes done marked in the bitmap. In the scratchpad the registers and tags VFILL loads are those of R200's layout, and a tag byte that
it refuses stops it at that register with ILLEGAL-OPERAND, the registers before it loaded and marked.
(It rests on choices of the model: notes/assumptions/9, 18, 108, 111.) -/
def Obligations.VectorLoads : Prop :=
  ∀ (s : State) (w : Ins), s.mayIssue w = true → 
    let f := fmtOf w
    let n := fmtWidth f / 8
    let st := s.streamOf w
    let ea := addrOf s w
    let p := s.lanePred w
    let value (a : Nat → Int) (lanes : Vector Lane 64) (on : Word) : Prop :=
      ∀ j : Fin 64, on.getLsbD j = true → lanes[j] = laneForm f (spadElem s st n (a j).toNat)
    (f ≠ fmtA36 →
      -- VLD
      (ea % packedAlign (fmtWidth f) = 0 →
        (∀ image s1, s.loadRuns st (isSpad w) ea (touchedRuns (packedMask (fmtWidth f) p)) (List.replicate (8 * fmtWidth f) 0) =
            (.ok image, s1) →
          ∃ lanes, GivesLanes (.vld w) w s (retagged w s1) lanes p ∧
            ∀ j : Fin 64, lanes[j] = laneForm f ((unpackElems (fmtWidth f) 64 image).getD j 0)) ∧
        (w.mod = 1 → fmtByteWidth f = true → InGrant s p n (unitAddr ea n) →
          ∃ u lanes, BanksAsked s u ∧ GivesLanes (.vld w) w s (retagged w u) lanes p ∧ value (unitAddr ea n) lanes p)) ∧
      (ea % packedAlign (fmtWidth f) ≠ 0 → Traps (.vld w) w s { cause := 0x0C, addr := some ea }) ∧
      -- VLDS
      (fmtByteWidth f = true → ea % n = 0 → (s.opB w).toInt % (n : Int) = 0 →
        (∀ es s1, s.loadLanes st (isSpad w) n p (strideAddr ea (s.opB w)) = (none, (es, s1)) →
          ∃ lanes, GivesLanes (.vlds w) w s (retagged w s1) lanes p ∧ ∀ j : Fin 64, lanes[j] = laneForm f (es.getD j 0)) ∧
        (w.mod = 1 → InGrant s p n (strideAddr ea (s.opB w)) →
          ∃ u lanes, BanksAsked s u ∧ GivesLanes (.vlds w) w s (retagged w u) lanes p ∧
            value (strideAddr ea (s.opB w)) lanes p)) ∧
      (fmtByteWidth f = true → ea % n ≠ 0 ∨ (s.opB w).toInt % (n : Int) ≠ 0 → Traps (.vlds w) w s { cause := 0x0C, addr := some ea }) ∧
      -- VGATH
      (s.ctx.slotCheck w 1 fmtS32 = none → fmtByteWidth f = true →
        let r := s.gatherRun st (s.popped w) w
        let on := s.lanesPending w
        let ix := s.laneSrc st (s.popped w) { w with fmt := 0x14 } 1
        let cb := cbOf w.sc
        let gives (u : State) (lanes : Vector Lane 64) : Prop := Enters (.vgath w) w s (retagged w u)
          [.vec (vdst w) lanes on, .command (.clearBitmap cb 0)] (vget 0 lanes 1 ++ vget 0 lanes 0)
        (r.fault = none → ∃ lanes, gives r.s lanes) ∧
        (w.mod = 1 → InGrant s on n (indexedAddr ea n ix) →
          ∃ u lanes, BanksAsked s u ∧ gives u lanes ∧ value (indexedAddr ea n ix) lanes on) ∧
        (∀ t, r.fault = some t → cb < 8 → ∃ u, TrapsIn (.vgath w) w s u { t with cbsel := some cb } ∧
          vget 0 u.ctx.cb cb = vget 0 s.ctx.cb cb ||| r.done)) ∧
      (fmtByteWidth f = false → Traps (.vlds w) w s { cause := 0x03 } ∧
        (s.ctx.slotCheck w 1 fmtS32 = none → Traps (.vgath w) w s { cause := 0x03 })) ∧
      -- VFILL
      (let a := (s.opA w).toNat
       let run := s.fillRun st w a
       let c := run.1.2.ctx.fillTags run.2
       (a % 256 = 0 → run.1.1 = none → Enters (.vfill w) w s (run.1.2.setCtx c)
         (run.2.map (fun x => .vec x.1 (imageLanes x.2.1) p) ++
           [.command (.clearBitmap (cbOf w.sb) (s.readCb (cbOf w.sb) 1 &&& ~~~0xFFFF))])
         (match firstOfSet w.imm.toNat with
          | some j => vget 0 (c.vreg j).lanes 1 ++ vget 0 (c.vreg j).lanes 0
          | none => 0)) ∧
       (a % 256 ≠ 0 → Traps (.vfill w) w s { cause := 0x0C, addr := some a }) ∧
       -- the area in the scratchpad (R200): lanes at a + 256·j, 4 bytes each, the tag byte at a + 4,096 + j
       (a % 256 = 0 → w.mod = 1 → a + 4112 ≤ min s.ctx.spadGrant 0x20_0000 →
         let done := s.readCb (cbOf w.sb) 1
         let set := (List.range 16).filter fun j => w.imm.toNat.testBit j && !done.getLsbD j
         let tag (j : Nat) := spadElem s st 1 (a + 4096 + j)
         let good (j : Nat) : Prop := tag j ≤ 0x20 ∧ tag j ≠ 0x1F
         let lane (j i : Nat) : Lane := BitVec.ofNat 32 (spadElem s st 4 (a + 256 * j + 4 * i))
         let image (j : Nat) : Vector Lane 64 := Vector.ofFn fun (i : Fin 64) => if p.getLsbD i then lane j i else 0
         ((∀ j ∈ set, good j) → ∃ u pay, BanksAsked s u ∧
           Enters (.vfill w) w s (u.setCtx (set.foldl (fun c j => c.setTag j (BitVec.ofNat 6 (tag j))) u.ctx))
             (set.map (fun j => .vec j (image j) p) ++ [.command (.clearBitmap (cbOf w.sb) (done &&& ~~~0xFFFF))]) pay) ∧
         (∀ j ∈ set, ¬ good j → (∀ i ∈ set, i < j → good i) → cbOf w.sb < 8 →
           ∃ u, TrapsIn (.vfill w) w s u { cause := 0x03, cbsel := some (cbOf w.sb) } ∧
             (∀ i < 16, (vget 0 u.ctx.cb (cbOf w.sb)).getLsbD i =
               ((vget 0 s.ctx.cb (cbOf w.sb)).getLsbD i || decide (i ∈ set ∧ i < j))) ∧
             (∀ i ∈ set, i < j → (u.ctx.vreg i).tag.toNat = tag i ∧
               ∀ k < 64, p.getLsbD k = true → vget 0 (u.ctx.vreg i).lanes k = lane i k) ∧
             ∀ i < 16, i ∉ set ∨ j ≤ i → u.ctx.vreg i = s.ctx.vreg i)))) ∧
    (f = fmtA36 → ∀ i ∈ [Instr.vld w, .vlds w, .vgath w, .vfill w], Traps i w s { cause := 0x03 }) ∧
    -- NLD
    (∀ k, w.dst = .n k → ea % 64 = 0 → ∀ bs s1, s.loadSpace st (isSpad w) ea 64 = (.ok bs, s1) →
      Enters (.nld w) w s s1 [.nest k (BitVec.ofNat 512 (bytesNat bs))] (BitVec.ofNat 64 (bytesNat (bs.take 8)))) ∧
    (ea % 64 ≠ 0 → Traps (.nld w) w s { cause := 0x0C, addr := some ea })

/-- The vector stores (R196 to R200, R204): VST, VSTS, VSCAT, VSPILL and NST complete once every byte they write can be written,
with the cells of the enabled lanes in flight; in the scratchpad those are the elements' bytes at the lanes' addresses, in lane
order, the area of VSPILL as R200 lays it out. VSCATADD adds each pending lane's value to its element, lane by lane: in the scratchpad
to every element its lanes name, in memory by a read-modify-write at the home slice. VSCAT, VSCATADD and VSPILL clear their bitmap as
they land; a fault leaves the lanes done marked there. A format that is no whole number of bytes raises ILLEGAL-OPERAND at VSTS and
VSCAT, and A36 at each but NST.
(It rests on choices of the model: notes/assumptions/11, 18, 20, 110, 111.) -/
def Obligations.VectorStores : Prop :=
  ∀ (s : State) (w : Ins),
    let f := fmtOf w
    let n := fmtWidth f / 8
    let st := s.streamOf w
    let ea := addrOf s w
    let p := s.lanePred w
    let spad := isSpad w
    let cb := cbOf w.sc
    let marks (i : Instr) (cb : Nat) (r : LaneRun) : Prop := ∀ t, r.fault = some t → cb < 8 →
      ∃ u, TrapsIn i w s u { t with cbsel := some cb } ∧ vget 0 u.ctx.cb cb = vget 0 s.ctx.cb cb ||| r.done
    -- the cells of elements in the scratchpad, lane by lane
    let cells (on : Word) (v : Nat → Nat) (a : Nat → Int) : List StoreCell :=
      ((List.range 64).filter fun j => on.getLsbD j).flatMap fun j => storedCells (a j).toNat (s.ctx.spbase + (a j).toNat) n (v j)
    (s.mayIssue w = true → f ≠ fmtA36 →
      (s.ctx.slotCheck w 1 f = none →
        let v (j : Nat) := laneAt s s w 1 j
        let image := (packElems (fmtWidth f) ((List.range 64).map v)).zip (packedMask (fmtWidth f) p)
        (ea % packedAlign (fmtWidth f) = 0 → ∀ cs s1,
          s.storeRuns spad ea image (touchedRuns (packedMask (fmtWidth f) p)) = (.ok cs, s1) →
            Enters (.vst w) w s s1 [.store spad cs] 0) ∧
        (ea % packedAlign (fmtWidth f) = 0 → w.mod = 1 → fmtByteWidth f = true → InGrant s p n (unitAddr ea n) →
          Enters (.vst w) w s s [.store true (cells p v (unitAddr ea n))] 0) ∧
        (ea % packedAlign (fmtWidth f) ≠ 0 → Traps (.vst w) w s { cause := 0x0C, addr := some ea }) ∧
        (fmtByteWidth f = true → ea % n = 0 → (s.opC w).toInt % (n : Int) = 0 → ∀ cs s1,
          s.storeLanes spad n p (strideAddr ea (s.opC w)) v = (none, (cs, s1)) →
            Enters (.vsts w) w s s1 [.store spad cs] 0) ∧
        (fmtByteWidth f = true → ea % n = 0 → (s.opC w).toInt % (n : Int) = 0 → w.mod = 1 → InGrant s p n (strideAddr ea (s.opC w)) →
          ∃ cs, Enters (.vsts w) w s s [.store true cs] 0 ∧
            cs.filter (fun c => c.mask ≠ 0) = cells p v (strideAddr ea (s.opC w))) ∧
        (fmtByteWidth f = false → Traps (.vsts w) w s { cause := 0x03 }) ∧
        (fmtByteWidth f = true → ea % n ≠ 0 ∨ (s.opC w).toInt % (n : Int) ≠ 0 →
          Traps (.vsts w) w s { cause := 0x0C, addr := some ea }))) ∧
    (s.mayIssue w (setRes w) = true → f ≠ fmtA36 →
      let a := (s.opA w).toNat
      let r := s.spillRun w a
      (a % 256 ≠ 0 → Traps (.vspill w) w s { cause := 0x0C, addr := some a }) ∧
      (a % 256 = 0 →
        (r.fault = none → Enters (.vspill w) w s r.s
          [.store spad r.cells, .command (.clearBitmap (cbOf w.sb) (s.readCb (cbOf w.sb) 1 &&& ~~~0xFFFF))] 0) ∧
        marks (.vspill w) (cbOf w.sb) r) ∧
      -- the area in the scratchpad (R200): lanes at a + 256·j, 4 bytes each, the tag byte at a + 4,096 + j
      (a % 256 = 0 → w.mod = 1 → a + 4112 ≤ min s.ctx.spadGrant 0x20_0000 →
        let done := s.readCb (cbOf w.sb) 1
        let at_ (off n v : Nat) : List StoreCell := storedCells (a + off) (s.ctx.spbase + a + off) n v
        let reg (j : Nat) : List StoreCell :=
          (((List.range 64).filter fun i => p.getLsbD i).flatMap fun i => at_ (256 * j + 4 * i) 4 (vget 0 (s.readLanes j 2) i).toNat) ++
            at_ (4096 + j) 1 (s.ctx.vreg j).tag.toNat
        Enters (.vspill w) w s s [.store true (((List.range 16).filter fun j => w.imm.toNat.testBit j && !done.getLsbD j).flatMap reg),
          .command (.clearBitmap (cbOf w.sb) (done &&& ~~~0xFFFF))] 0)) ∧
    (f = fmtA36 → (s.mayIssue w = true → ∀ i ∈ [Instr.vst w, .vsts w], Traps i w s { cause := 0x03 }) ∧
      (s.mayIssue w (setRes w) = true → Traps (.vspill w) w s { cause := 0x03 }) ∧
      (s.mayIssue w [.v (pairOf w).2] = true → ∀ i ∈ [Instr.vscat w, .vscatadd w], Traps i w s { cause := 0x03 })) ∧
    (s.mayIssue w [.v (pairOf w).2] = true → f ≠ fmtA36 → s.ctx.pairCheck w = none →
      (fmtByteWidth f = true →
        let r := s.scatterRun st w
        let ix := s.readLanes (pairOf w).1 1
        let ea0 := ((s.srcA st 0 w).toNat + (immOf w).toNat) % 2 ^ 64
        (r.fault = none → Enters (.vscat w) w s r.s [.store spad r.cells, .command (.clearBitmap cb 0)] 0) ∧
        (w.mod = 1 → InGrant s (s.lanesPending w) n (indexedAddr ea0 n ix) →
          Enters (.vscat w) w s s [.store true (cells (s.lanesPending w)
            (fun j => laneBits f (vget 0 (s.readLanes (pairOf w).2 3) j)) (indexedAddr ea0 n ix)),
            .command (.clearBitmap cb 0)] 0) ∧
        marks (.vscat w) cb r) ∧
      (fmtByteWidth f = false → Traps (.vscat w) w s { cause := 0x03 }) ∧
      (let r := s.scatterAddRun st w
       (r.fault = none → Enters (.vscatadd w) w s r.s [.command (.clearBitmap cb 0)] 0) ∧ marks (.vscatadd w) cb r) ∧
      -- the sums (R198), after the stream's own earlier stores
      (fmtByteWidth f = true →
        let adds (u : State) : Prop := Enters (.vscatadd w) w s u [.command (.clearBitmap cb 0)] 0
        let before := s.forceStores fun x => x.stream = st
        let on := s.lanesPending w
        let lane (j : Nat) := laneBits f (vget 0 (s.readLanes (pairOf w).2 3) j)
        let plus (old v : Nat) := if fmtClassI f then (old + v) % 2 ^ fmtWidth f
          else addVals (decodeValue old f s.ctx.subn) (decodeValue v f s.ctx.subn) f 0 s.ctx.subn
        let ea0 := ((s.srcA st 0 w).toNat + (immOf w).toNat) % 2 ^ 64
        let addr := indexedAddr ea0 n (s.readLanes (pairOf w).1 1)
        let elem (u : State) (x : Nat) := bytesNat (u.here.spad.load (s.ctx.spbase + x) n)
        (w.mod = 1 → InGrant s on n addr → ∃ u, adds u ∧
          (∀ x, (∃ j < 64, on.getLsbD j = true ∧ addr j = (x : Nat)) → elem u x =
            (((List.range 64).filter fun j => on.getLsbD j && decide (addr j = (x : Nat))).map lane).foldl plus (elem before x)) ∧
          ∀ x, (∀ j < 64, on.getLsbD j = true → x < s.ctx.spbase + (addr j).toNat ∨ s.ctx.spbase + (addr j).toNat + n ≤ x) →
            u.here.spad.read x = before.here.spad.read x) ∧
        (w.mod ≠ 1 → ∀ j < 64, on = BitVec.twoPow 64 j → 0 ≤ addr j → addr j % n = 0 → ∀ ph s1 pa s2,
          before.translate s.focus s.asn (addr j).toNat .read = (.ok ph, s1) →
          s1.translate s.focus s.asn (addr j).toNat .write = (.ok ⟨pa, 0⟩, s2) → pa % n = 0 →
          let home := s2.writeBack s.focus fun l => l = pa / 128
          pa / 32 * 32 ∉ home.die.poison →
          let old := bytesNat (home.ctx.overlay st false (places pa n) (home.die.mem.load pa n))
          ∃ u, adds u ∧ MemTakes home u pa n (plus old (lane j))))) ∧
    (s.mayIssue w = true → ∀ k, w.sb = .n k →
      (ea % 64 = 0 → ∀ cs s1, s.storeSpace spad ea (wholeBytes (natBytes 64 (s.readNest k 1).toNat)) = (.ok cs, s1) →
        Enters (.nst w) w s s1 [.store spad cs] 0) ∧
      (ea % 64 = 0 → w.mod = 1 → ea + 64 ≤ min s.ctx.spadGrant 0x20_0000 →
        Enters (.nst w) w s s [.store true (storedCells ea (s.ctx.spbase + ea) 64 (s.readNest k 1).toNat)] 0) ∧
      (ea % 64 ≠ 0 → Traps (.nst w) w s { cause := 0x0C, addr := some ea }))

/-- Ports (R159 to R163, R202, R203): PSET enters the binding of a record that keeps R159; VLDP enters the lanes its port gives;
VSTP, to a write walk of FMT, enters the cells of the enabled lanes and moves the walk on by 64. PSET of another record raises
ILLEGAL-OPERAND; VSTP to a write walk of another format FORMAT-MISMATCH, to a plane walk ILLEGAL-OPERAND, without a write walk
PORT-EXHAUSTED, outside the grant DATA-FAULT. A binding that lands ends the walks of
its port and of its generator.
(It rests on choices of the model: notes/assumptions/97, 111.) -/
def Obligations.Ports : Prop :=
  (∀ (s : State) (w : Ins),
    let f := fmtOf w
    (s.mayIssue w = true →
      (∀ p g k, w.sa = .p p → w.sb = .g g → w.sc = .n k →
        let record := s.readNest k 4
        ((Nest.ofBits record).genOk = true → Enters (.pset w) w s s [.command (.bindPort p g record)] 0) ∧
        ((Nest.ofBits record).genOk = false → Traps (.pset w) w s { cause := 0x03 })) ∧
      (∀ s1, VectorReady s w [(0, f), (1, f), (2, f)] s1 →
        GivesLanes (.vldp w) w s (tagged w s1) (s1.laneSrc (s.streamOf w) (s.popped w) w 0) (s1.lanePred w))) ∧
    (∀ n v, w.sa = .p n → w.sb = .v v → s.mayIssue w [.port n] = true → s.ctx.slotCheck w 1 f = none → f ≠ fmtA36 →
      let p := s.ctx.port n
      let r := Nest.ofBits p.record
      let push := pushCells s.ctx r p.next (s.readLanes v 1) (s.lanePred w)
      let unlike := p.state ≠ .unbound ∧ r.op = 0x41 ∧ r.dfmt ≠ f
      (p.state = .write → r.dfmt = f → r.planeWalk = false → ∀ cells, push = .ok cells →
        Enters (.vstp w) w s (s.setCtx (s.ctx.setPort n { p with
          next := p.next + 64, state := if r.total ≤ p.next + 64 then .ended else .write })) [.store true cells] 0) ∧
      (p.state = .write → r.dfmt = f → r.planeWalk = false → ∀ off, push = .error off →
        Traps (.vstp w) w s { cause := 0x0A, addr := some off }) ∧
      (unlike → exec (.vstp w) s = .next (s.raise (s.streamOf w) (Instr.vstp w).word
        { cause := 0x08, aux := f * 2 ^ 8 + r.dfmt } none)) ∧
      (¬ unlike → p.state ≠ .unbound → r.planeWalk = true → Traps (.vstp w) w s { cause := 0x03 }) ∧
      (¬ unlike → p.state ≠ .write → p.state = .unbound ∨ r.planeWalk = false → Traps (.vstp w) w s { cause := 0x14 }))) ∧
  ∀ (c : Ctx) (n gen : Nat) (record : BitVec 512), n < 8 →
    let d := c.bindPort n gen record
    d.port n = Port.bound gen record ∧
    ∀ m < 8, m ≠ n → d.port m = if (c.port m).state ≠ .unbound ∧ (c.port m).gen = gen then Port.reset else c.port m

namespace Sys2Proof.Claims

/-- The plies a tile write needs are free and nothing holds it back (R213). -/
def PliesFor (s : State) (need : Nat) : Prop :=
  (s.ctx.exposed = true ∨ need = 0 ∨ s.ctx.flights.any Flight.tileWrite = false) ∧ need ≤ s.ctx.freePlies

/-- An issue that enters the write of a tile. -/
def GivesTile (i : Instr) (w : Ins) (s : State) (v : TileVal) : Prop :=
  Enters i w s s [.tile (zdst w) (.write v.rep.1 v.rep.2 v.plies false false v.need)] 0

/-- A result of R214: a pair above the destination's LIMIT becomes its dense form with FALLBACK, and raises RANK-OVERFLOW
without; TILE-STORE-EXHAUSTED where the plies are not free (R213). -/
def TileResult (i : Instr) (w : Ins) (s : State) (v dense : TileVal) : Prop :=
  let c := s.ctx
  let limit := (c.tile (zdst w)).limit
  let excess := v.rep.1 = 2 ∧ limit < v.rep.2
  (¬ excess → v.rep.2 ≤ limit ∨ c.fallback = true → PliesFor s v.need → GivesTile i w s v) ∧
  (excess → c.fallback = true → PliesFor s dense.need → GivesTile i w s dense) ∧
  (excess → c.fallback = false →
    TrapsIn i w s s { cause := 0x17, aux := zdst w * 2 ^ 32 + v.rep.2 * 2 ^ 8 + limit }) ∧
  (¬ excess → v.rep.2 ≤ limit → s.ctx.exposed = true → c.freePlies < v.need →
    TrapsIn i w s s { cause := 0x16, aux := zdst w * 2 ^ 32 + v.need * 2 ^ 16 + c.freePlies })

/-- All elements +0. -/
def zeros (rows cols : Nat) : Mat := Mat.build rows cols fun _ _ => 0

end Sys2Proof.Claims

/-- The tile instructions that compute no product (R213, R214, R218, R220, R225 to R227): TZERO, TMOV, TDENSE and TADD give their
value under the rules of R213 and R214; TFREE, TLIMIT and TPRED enter their effect, and TRANK reads the header. -/
def Obligations.TileMoves : Prop :=
  ∀ (s : State) (w : Ins),
    let c := s.ctx
    let a := c.tileVal w.sa
    let b := c.tileVal w.sb
    let form := bits w.imm.toNat 1 0
    let r := bits w.imm.toNat 13 8
    (s.mayIssue w = true →
      (form = 0 → TileResult (.tzero w) w s .zero (.dense (zeros 64 64))) ∧
      (form = 1 → TileResult (.tzero w) w s (.dense (zeros 64 64)) (.dense (zeros 64 64))) ∧
      (c.tilesCheck w = none →
        TileResult (.tdense w) w s (.dense (a.read (!c.exposed))) (.dense (a.read (!c.exposed))) ∧
        (let v : TileVal := if a.rep.1 = 0 ∧ b.rep.1 = 0 then .zero else .dense (Mat.build 64 64 fun m n =>
           a36Add (!c.exposed) ((a.read (!c.exposed)).at m n) ((b.read (!c.exposed)).at m n))
         TileResult (.tadd w) w s v v)) ∧
      Enters (.tfree w) w s s [.tile (zdst w) .free] 0 ∧
      Enters (.tlimit w) w s s [.tile (zdst w) (.limit w.imm.toNat)] 0) ∧
    (s.mayIssue w [.z (zdst w), .sys 0x002] = true →
      (2 ≤ form → TileResult (.tzero w) w s (.pair r (zeros 64 r) (zeros r 64)) (.dense (zeros 64 64))) ∧
      (c.tilesCheck w = none → TileResult (.tmov w) w s a (.dense (a.read (!c.exposed))))) ∧
    (s.mayIssue w = true → Enters (.tpred w) w s s [.command (.rowpred (s.opA w))] 0 ∧
      ∀ n, w.sa = .z n → let t := c.tile n
        GivesResult (.trank w) w s (BitVec.ofNat 64
          (c.freePlies * 2 ^ 48 + t.held * 2 ^ 32 + t.tag.toNat * 2 ^ 24 + t.limit * 2 ^ 16 + t.rep * 2 ^ 8 + t.rank)))

namespace Sys2Proof.Claims

/-- The plane tiles that slots 0 and 1 take from ports can be read, which leaves `s1` (R161, R162, R219). -/
def PlanesReady (s : State) (w : Ins) (s1 : State) : Prop :=
  [0, 1].findSome? (s.ctx.portKind w true) = none ∧ [0, 1].findSome? (s.ctx.portSpent w) = none ∧ s1 = s.readAhead w ∧
  [0, 1].findSome? (s1.ctx.portStopped w) = none

/-- The exact sum of whole numbers times powers of two, rounded once to A36 (R108, R218). -/
def summed (sn : Bool) (l : List (Int × Int)) : Nat :=
  let q := l.foldl (fun (q : Int) x => if x.1 = 0 then q else min q x.2) 0
  roundSigned ((l.map fun x => x.1 * 2 ^ (x.2 - q).toNat).sum) q false fmtA36 0 sn

/-- The exact value of a finite A36 element, a product of two such values, and the sum of products of elements, rounded once; NaN where
some element is infinite or NaN (R218). -/
def exactly (sn : Bool) (b : Nat) : Int × Int :=
  let v := decodeValue b fmtA36 sn
  (if v.s then -(v.m : Int) else v.m, v.e)
def times (x y : Int × Int) : Int × Int := (x.1 * y.1, x.2 + y.2)
def products (sn : Bool) (l : List (List Nat)) : Nat :=
  if l.any fun fs => fs.any a36Special then nan36
  else summed sn (l.map fun fs => fs.foldl (fun a b => times a (exactly sn b)) (1, 0))

/-- An element of the dense reading of a tile (R218). -/
def denseAt (sn : Bool) (t : TileVal) (m n : Nat) : Nat := match t with
  | .zero => 0
  | .dense a => a.at m n
  | .pair r u v => products sn ((List.range r).map fun k => [u.at m k, v.at k n])

/-- Σ36 of some A36 elements (R217). -/
def sigma (sn : Bool) (n : Nat) (f : Nat → Nat) : Nat := ((List.range n).map f).foldl (a36Add sn) 0

/-- A finite A36 element is zero. -/
def isZero (sn : Bool) (b : Nat) : Prop := (decodeValue b fmtA36 sn).m = 0

/-- The modified Gram-Schmidt step of R232 on a matrix of 64 rows and r columns, element by element; `w j i` is column j after i
projections. -/
def Orthogonal (sn : Bool) (r : Nat) (x q t : Nat → Nat → Nat) : Prop :=
  ∃ w : Nat → Nat → Nat → Nat, ∀ j < r,
    (∀ e < 64, w j 0 e = x e j) ∧
    (∀ i < j, t i j = sigma sn 64 (fun e => a36Mul sn (q e i) (w j i e)) ∧
      ∀ e < 64, w j (i + 1) e = a36Sub sn (w j i e) (a36Mul sn (t i j) (q e i))) ∧
    t j j = a36Sqrt sn (sigma sn 64 fun e => a36Mul sn (w j j e) (w j j e)) ∧
    (∀ e < 64, (isZero sn (t j j) → q e j = 0) ∧ (¬ isZero sn (t j j) → q e j = a36Div sn (w j j e) (t j j))) ∧
    ∀ i < r, j < i → t i j = 0

/-- One rotation of columns p and q of K and J (R232 step 3). -/
def Turned (sn : Bool) (r p q : Nat) (k j k1 j1 : Nat → Nat → Nat) : Prop :=
  let a := sigma sn r fun i => a36Mul sn (k i p) (k i p)
  let b := sigma sn r fun i => a36Mul sn (k i q) (k i q)
  let g := sigma sn r fun i => a36Mul sn (k i p) (k i q)
  let z := a36Div sn (a36Sub sn b a) (a36Mul sn two36 g)
  let size := a36Div sn one36 (a36Add sn (z % 2 ^ 35) (a36Sqrt sn (a36Add sn one36 (a36Mul sn z z))))
  let t := if bit z 35 then size + 2 ^ 35 else size
  let c := a36Div sn one36 (a36Sqrt sn (a36Add sn one36 (a36Mul sn t t)))
  let s := a36Mul sn c t
  let turns (x y : Nat → Nat → Nat) : Prop := ∀ i < r,
    y i p = a36Sub sn (a36Mul sn c (x i p)) (a36Mul sn s (x i q)) ∧ y i q = a36Add sn (a36Mul sn s (x i p)) (a36Mul sn c (x i q)) ∧
    ∀ l < r, l ≠ p → l ≠ q → y i l = x i l
  (isZero sn g → ∀ i < r, ∀ l < r, k1 i l = k i l ∧ j1 i l = j i l) ∧ (¬ isZero sn g → turns k k1 ∧ turns j j1)

/-- Six sweeps of rotations over the pairs of columns p below q, in order (R232 step 3). -/
def Swept (sn : Bool) (r : Nat) (k0 k j : Nat → Nat → Nat) : Prop :=
  let pairs := (List.range 6).flatMap fun _ => (List.range r).flatMap fun p => ((List.range r).filter fun q => p < q).map fun q => (p, q)
  ∃ ks js : Nat → Nat → Nat → Nat,
    (∀ i < r, ∀ l < r, ks 0 i l = k0 i l ∧ js 0 i l = (if i = l then one36 else 0) ∧
      ks pairs.length i l = k i l ∧ js pairs.length i l = j i l) ∧
    ∀ n, (h : n < pairs.length) → Turned sn r pairs[n].1 pairs[n].2 (ks n) (js n) (ks (n + 1)) (js (n + 1))

/-- The recompression of a tile that is not ZERO, element by element (R231 to R233). -/
def Recompressed (sn : Bool) (ftol cap : Nat) (a : TileVal) (x : Recomp) : Prop :=
  let r := if a.rep.1 = 1 then 64 else a.rep.2
  let u (e j : Nat) : Nat := match a with
    | .zero => 0
    | .dense m => m.at e j
    | .pair _ y _ => y.at e j
  let v (e j : Nat) : Nat := match a with
    | .zero => 0
    | .dense _ => if e = j then one36 else 0
    | .pair _ _ y => y.at j e
  (x.rinv = true → x.val = .dense (a.read sn) ∧ x.rcap = false) ∧
  ((∃ e < 64, ∃ j < r, a36Special (u e j) = true ∨ a36Special (v e j) = true) → x.rinv = true) ∧
  (x.rinv = false → ∃ qu tu qv tv k j : Nat → Nat → Nat, Orthogonal sn r u qu tu ∧ Orthogonal sn r v qv tv ∧
    Swept sn r (fun i l => sigma sn r fun t => a36Mul sn (tu i t) (tv l t)) k j ∧
    let norm (l : Nat) := a36Sqrt sn (sigma sn r fun i => a36Mul sn (k i l) (k i l))
    let lim := a36Mul sn ftol (((List.range r).map norm).foldl max 0)
    ∃ keep : List Nat, keep.Pairwise (fun l m => norm m < norm l ∨ (norm m = norm l ∧ l < m)) ∧
      (∀ l, l ∈ keep ↔ l < r ∧ lim % 2 ^ 35 < norm l) ∧ x.rcap = decide (cap < keep.length) ∧
      let kept := keep.take cap
      (kept = [] → x.val = .zero) ∧
      (kept ≠ [] → ∃ un vn, x.val = .pair kept.length un vn ∧ ∀ h, (lt : h < kept.length) → ∀ e < 64,
        un.at e h = sigma sn r (fun t => a36Mul sn (qu e t) (k t kept[h])) ∧
        vn.at h e = sigma sn r (fun t => a36Mul sn (qv e t) (j t kept[h]))))

/-- An array instruction enters its step and its tile (R210). -/
def EntersArray (i : Instr) (w : Ins) (s s1 : State) (cost : Nat) (eff : Effect) : Prop :=
  let s2 := s1.popPorts w
  exec i s = .next (s.issued (s2.setCtx (s2.ctx.enterArray cost)) i w [eff] 0
    (lat := if s.ctx.exposed then latBound w.lat else 1))

end Sys2Proof.Claims

/-- The dense reading, the products, sums of pairs and recompressions, element by element (R210, R214, R218, R221 to R224, R231 to R233):
in the order of R219 each completes once its tiles carry A36, its ports can give their planes and the plies are free, with the value of
its rule; a pair above the destination's LIMIT becomes its dense form with FALLBACK, and raises RANK-OVERFLOW without. -/
def Obligations.TileProducts : Prop :=
  (∀ (sn : Bool) (t : TileVal), ∀ m < 64, ∀ k < 64, (t.read sn).at m k = denseAt sn t m k) ∧
  ∀ (s : State) (w : Ins),
    let c := s.ctx
    let f := fmtOf w
    let n := w.imm.toNat
    let z := c.tile (zdst w)
    let a := c.tileVal w.sa
    let b := c.tileVal w.sb
    let sn := !c.exposed
    let writes (v : TileVal) (need : Nat) : Effect := .tile (zdst w) (.write v.rep.1 v.rep.2 v.plies false false need)
    (s.mayIssue w [.rowpred] = true →
      (∀ fb pa pb, tmmaPlanes f n = some (fb, pa, pb) → c.slotCheck w 0 f = none → c.slotCheck w 1 fb = none →
        c.tileCheck w 2 = none → operandPort w.sc = none → PliesFor s 64 → ∀ s1, PlanesReady s w s1 →
          let x (i : Nat) := alignRow (((s1.ctx.portTile w 0).drop (512 * i)).take 512) f pa sn
          let y (i : Nat) := alignRow (((s1.ctx.portTile w 1).drop (512 * i)).take 512) fb pb sn
          let step (i k : Nat) : Nat :=
            if (x i).special || (y k).special then nan36
            else roundSigned ((List.range 512).map fun e => (x i).m.getD e 0 * (y k).m.getD e 0).sum ((x i).g + (y k).g) false fmtA36 0 sn
          ∃ v : Mat, (∀ i < 64, ∀ k < 64, v.at i k =
              (if c.rowpred.getLsbD i then a36Add sn (denseAt sn (c.tileVal w.sc) i k) (step i k) else denseAt sn (c.tileVal w.sc) i k)) ∧
            EntersArray (.tmma w) w s s1 ((tmmaCost f n).getD 0) (writes (.dense v) 64))) ∧
    (s.mayIssue w [.z (zdst w), .sys 0x002, .rowpred] = true →
      (∀ pb, planesRead f (bits n 5 0) = some pb → c.tileCheck w 0 = none → c.slotCheck w 1 f = none →
        (a.rep.1 = 1 → [0, 1].findSome? (c.portKind w true) = none → Traps (.tfmul w) w s { cause := 0x03 }) ∧
        ∀ s1, PlanesReady s w s1 →
          let gives (v : TileVal) (need : Nat) : Prop := EntersArray (.tfmul w) w s s1 ((tfmulCost f n).getD 0) (writes v need)
          -- the rows of the dense operand: 64 elements, and none of a row that ROWPRED leaves out
          let x (i : Nat) := alignRow ((((s1.ctx.portTile w 1).drop (512 * i)).take 64) ++ List.replicate 448 0) f pb sn
          let special := (List.range 64).any fun i => c.rowpred.getLsbD i && (x i).special
          let cell (i e : Nat) : Int × Int := if c.rowpred.getLsbD i then ((x i).m.getD e 0, (x i).g) else (0, 0)
          (a = .zero → PliesFor s 0 → gives .zero 0) ∧
          (∀ r u v, a = .pair r u v →
            (r ≤ z.limit → PliesFor s (2 * r) → ∃ xs : Mat, (∀ t < r, ∀ e < 64, xs.at t e =
                if special || (List.range 64).any (fun i => a36Special (v.at t i)) then nan36
                else summed sn ((List.range 64).map fun i => times (exactly sn (v.at t i)) (cell i e))) ∧ gives (.pair r u xs) (2 * r)) ∧
            (z.limit < r → c.fallback = true → PliesFor s 64 → ∃ d : Mat, (∀ m < 64, ∀ e < 64, d.at m e =
                if special || (List.range r).any (fun t => a36Special (u.at m t) || (List.range 64).any fun i => a36Special (v.at t i))
                then nan36
                else summed sn ((List.range r).flatMap fun t => (List.range 64).map fun i =>
                  times (times (exactly sn (u.at m t)) (exactly sn (v.at t i))) (cell i e))) ∧ gives (.dense d) 64) ∧
            (z.limit < r → c.fallback = false →
              Traps (.tfmul w) w s { cause := 0x17, aux := zdst w * 2 ^ 32 + r * 2 ^ 8 + z.limit })))) ∧
    (s.mayIssue w [.z (zdst w), .sys 0x002] = true → c.tilesCheck w = none →
      (∀ ra ua va rb ub vb, a = .pair ra ua va → b = .pair rb ub vb →
        (∃ u v d : Mat,
          (∀ m < 64, ∀ j < ra + rb, u.at m j = if j < ra then ua.at m j else ub.at m (j - ra)) ∧
          (∀ j < ra + rb, ∀ e < 64, v.at j e = if j < ra then va.at j e else vb.at (j - ra) e) ∧
          (∀ m < 64, ∀ e < 64, d.at m e = products sn
            (((List.range ra).map fun t => [ua.at m t, va.at t e]) ++ (List.range rb).map fun t => [ub.at m t, vb.at t e])) ∧
          TileResult (.tfadd w) w s (.pair (ra + rb) u v) (.dense d)) ∧
        ∃ k u v d : Mat,
          (∀ i < ra, ∀ j < rb, k.at i j = products sn ((List.range 64).map fun e => [va.at i e, ub.at e j])) ∧
          (ra ≤ rb → (∀ m < 64, ∀ i < ra, u.at m i = ua.at m i) ∧
            ∀ i < ra, ∀ e < 64, v.at i e = products sn ((List.range rb).map fun j => [k.at i j, vb.at j e])) ∧
          (rb < ra → (∀ m < 64, ∀ j < rb, u.at m j = products sn ((List.range ra).map fun i => [ua.at m i, k.at i j])) ∧
            ∀ j < rb, ∀ e < 64, v.at j e = vb.at j e) ∧
          (∀ m < 64, ∀ e < 64, d.at m e = products sn ((List.range ra).flatMap fun i => (List.range 64).flatMap fun l =>
            (List.range rb).map fun j => [ua.at m i, va.at i l, ub.at l j, vb.at j e])) ∧
          TileResult (.tpmul w) w s (.pair (min ra rb) u v) (.dense d)) ∧
      (a = .zero → b.rep.1 ≠ 1 → TileResult (.tfadd w) w s b (.dense (b.read sn))) ∧
      (b = .zero → a.rep.1 ≠ 1 → TileResult (.tfadd w) w s a (.dense (a.read sn))) ∧
      (a = .zero ∨ b = .zero → a.rep.1 ≠ 1 → b.rep.1 ≠ 1 → TileResult (.tpmul w) w s .zero .zero) ∧
      (a.rep.1 = 1 ∨ b.rep.1 = 1 → Traps (.tfadd w) w s { cause := 0x03 } ∧ Traps (.tpmul w) w s { cause := 0x03 })) ∧
    (s.mayIssue w [.z (zdst w), .sys 0x003] = true → c.tilesCheck w = none →
      (∀ row ∈ [(Instr.trecmp, 1), (Instr.tfact, 2)],
        (a.rep.1 ≠ row.2 → PliesFor s 64 → ∃ r : Recomp,
          (a.rep.1 = 0 → r = { val := .zero, rcap := false, rinv := false }) ∧
          (a.rep.1 ≠ 0 → Recompressed sn c.ftol.toNat (if n = 0 then z.limit else min z.limit n) a r) ∧
          Enters (row.1 w) w s s [.tile (zdst w) (.write r.val.rep.1 r.val.rep.2 r.val.plies r.rcap r.rinv 64)] 0) ∧
        (a.rep.1 = row.2 → Traps (row.1 w) w s { cause := 0x03 })))

/-- Tiles and memory (R228 to R230): TLD converts 64 rows of 64 elements into a DENSE tile, TST stores the dense reading
converted, TRDROW pushes a row or factor column to a write walk, TWRROW replaces one.
(It rests on choices of the model: notes/assumptions/9, 111, 130.) -/
def Obligations.TileMemory : Prop :=
  ∀ (s : State) (w : Ins),
    let c := s.ctx
    let f := fmtOf w
    let fw := fmtWidth f
    let st := s.streamOf w
    let ea := addrOf s w
    let sn := !c.exposed
    let pol := c.vcvtpol.toNat
    (s.mayIssue w = true →
      (strideTrap ea (packedAlign fw) (s.opB w) = none → PliesFor s 64 → ∀ rows s1,
        s.loadRows st (isSpad w) (8 * fw) (strideAddr ea (s.opB w)) = (none, (rows, s1)) →
          let v : TileVal := .dense (rows.map fun bs =>
            ((unpackElems fw 64 bs).map fun e => convertPlain e f fmtA36 0xAA sn).toArray).toArray
          Enters (.tld w) w s s1 [.tile (zdst w) (.write 1 0 v.plies false false 64)] 0) ∧
      (∀ t, strideTrap ea (packedAlign fw) (s.opB w) = some t → Traps (.tld w) w s t)) ∧
    (s.mayIssue w [.z (zdst w)] = true →
      (let v := (c.tile (zdst w)).val
       c.slotCheck w 0 f = none → (c.tile (zdst w)).tag.toNat = fmtA36 → selTrap w v = none → v.rep.1 ≠ 0 →
       c.portsBefore w false = none → PliesFor s v.need →
       let s1 := s.readAhead w
       s1.ctx.portStopped w 0 = none →
         let xs := (s1.laneSrc st (s.popped w) w 0).toList.map fun l => convertPlain (laneBits f l) f fmtA36 0xAA sn
         Enters (.twrrow w) w s (s1.popPorts w)
           [.tile (zdst w) (.write v.rep.1 v.rep.2 (putRow w v xs).plies false false v.need)] 0)) ∧
    (s.mayIssue w [.sys 0x001] = true → c.tileCheck w 1 = none → strideTrap ea (packedAlign fw) (s.opC w) = none →
      (∀ es, storeElements ((c.tileVal w.sb).read sn) f pol sn = .ok es → ∀ cs s1,
        s.storeRows (isSpad w) fw es (strideAddr ea (s.opC w)) = (none, (cs, s1)) →
          Enters (.tst w) w s s1 [.store (isSpad w) cs] 0) ∧
      (∀ i cond, storeElements ((c.tileVal w.sb).read sn) f pol sn = .error (i, cond) →
        Traps (.tst w) w s { cause := 0x09, aux := cond.code * 2 ^ 16 + i })) ∧
    (∀ n, w.sa = .p n → s.mayIssue w [.port n, .sys 0x001] = true → c.tileCheck w 1 = none →
      let p := c.port n
      let r := Nest.ofBits p.record
      let v := c.tileVal w.sb
      let elem (i : Nat) := convertValue ((selRow w v).getD i 0) fmtA36 f pol 0 sn
      selTrap w v = none → p.state = .write → r.dfmt = f → r.planeWalk = false →
      ∀ lanes : Vector Lane 64, (∀ j : Fin 64, ∃ y, elem j = .ok y ∧ lanes[j] = laneForm f y) → ∀ cells,
        pushCells c r p.next lanes (BitVec.allOnes 64) = .ok cells →
          Enters (.trdrow w) w s (s.setCtx (c.setPort n { p with
            next := p.next + 64, state := if r.total ≤ p.next + 64 then .ended else .write })) [.store true cells] 0)

namespace Sys2Proof.Claims

/-- A block that a task instruction names: below 2^48, aligned, and on a normal page of LPDDR-6 (R316). -/
def BlockAt (s : State) (v : Word) (align pa : Nat) (s1 : State) : Prop :=
  v.toNat < 2 ^ 48 ∧ v.toNat % align = 0 ∧ s.translate s.focus s.asn v.toNat .read = (.ok ⟨pa, 0⟩, s1)

/-- A record may be handed over (R301, R316): it can be read, WAIT and KILLED are clear, its fields keep R301, and its region is
live in the subtree of the task's. -/
def MaySpawn (s : State) (va : Nat) (r : Record) : Prop :=
  s.readRecord s.asn va = some r ∧ w3Wait r.w3 = false ∧ w3Killed r.w3 = false ∧ r.bad va = false ∧
  s.rgnWithin s.asn s.ownRegion (w3Region r.w3) = true

/-- Where the hand-over of a checked record writes WAIT, the record's page may be written; what that leaves (R8, R300). -/
def HandAt (s : State) (va : Nat) (r : Record) (t : State) : Prop :=
  (w3Join r.w3 = 0 ∧ t = s) ∨ (w3Join r.w3 ≠ 0 ∧ s.blockWrite va = (none, t))

/-- What SIGJ reports to a join: one completion, by the task's region and cluster (R316). -/
def arrivalOf (s : State) (va : Nat) : Ending :=
  { part := s.asn, record := 0, region := s.ownRegion, succ := va, how := .completed, cause := 0, reason := 0,
    launch := none, cluster := some s.ownCluster, addr := 0, hostCause := 0 }

end Sys2Proof.Claims

/-- SPAWN, ENQ, SPAWNJ, SIGJ, JSTAT and YIELD (R300, R316, R317): each completes on a record it may name, with the hand-over, the
count or the status the rule gives; JOIN-INVALID and CONTINUATION-INVALID where the join is not one. A record handed over with
JOIN 0 stands last in the queue of its priority in its slice, another waits.
(It rests on choices of the model: notes/assumptions/55.) -/
def Obligations.TaskInstructions : Prop :=
  (∀ (s : State) (w : Ins), s.mayIssue w = true →
    let st := s.streamOf w
    let a := s.opA w
    let va := a.toNat
    (∀ pa s0, BlockAt s a 32 pa s0 →
      let s1 := s0.storesOut.noteRead pa 32
      ∀ r u, MaySpawn s1 va r → HandAt s1 va r u →
        Enters (.spawn w) w s (u.handOver s.asn va r none (some s.ownRegion) none none (some s.ownCluster))
          (s.ctx.result st w.dst a) a ∧
        (w3Join r.w3 = 0 → (s.opB w).toNat < 16 → (s.part s.asn).clusters.getLsbD (s.opB w).toNat = true →
          Enters (.enq w) w s (u.handOver s.asn va r none (some s.ownRegion) none (some (s.opB w).toNat) (some s.ownCluster))
            (s.ctx.result st w.dst a) a)) ∧
    (∀ pa pb s0 s1 s2, BlockAt s a 32 pa s0 → BlockAt s0 (s.opB w) 64 pb s1 → s1.blockWrite (s.opB w).toNat = (none, s2) →
      let s3 := s2.storesOut.noteRead pa 32
      let k := s3.peek (pb + 24) 8
      let joins := w3Jr k = true ∧ w3Wait k = true ∧ w3Join k ≠ 65535
      ∀ r, MaySpawn s3 va r →
        (joins → ∀ u, HandAt s3 va r u → Enters (.spawnj w) w s
          ((u.dieChange (pb + 24) 8 (· + 1)).1.handOver s.asn va r (some (s.opB w).toNat) (some s.ownRegion) none none
            (some s.ownCluster)) (s.ctx.result st w.dst a) a) ∧
        (¬ joins → TrapsIn (.spawnj w) w s (s3.noteRead (pb + 24) 8) { cause := 0x1B })) ∧
    (16 ≤ (s.opB w).toNat ∨ (s.part s.asn).clusters.getLsbD (s.opB w).toNat = false → Traps (.enq w) w s { cause := 0x03 }) ∧
    (∀ pa s0, BlockAt s a 64 pa s0 →
      (∀ s1, s0.blockWrite va = (none, s1) →
        let s2 := s1.storesOut
        let k := s2.peek (pa + 24) 8
        (w3Killed k = true → Enters (.sigj w) w s (s2.noteRead (pa + 24) 8) [] 0) ∧
        (w3Killed k = false → w3Jr k = true → w3Wait k = true →
          let r := s2.report (arrivalOf s va)
          Enters (.sigj w) w s (r.1.settle r.2) [] 0) ∧
        (w3Killed k = false → w3Jr k = false ∨ w3Wait k = false → TrapsIn (.sigj w) w s (s2.noteRead (pa + 24) 8) { cause := 0x1B })) ∧
      let s1 := s0.storesOut.noteRead pa 64
      let k := s1.peek (pa + 24) 8
      (w3Jr k = true →
        let first := s1.peek (pa + 0x28) 8
        let v := BitVec.ofNat 64 (if w.imm.toNat = 0 then
          s1.peek (pa + 0x20) 2 * 2 ^ 48 + s1.peek (pa + 0x22) 2 * 2 ^ 32 + bits first 55 48 * 2 ^ 8 + bits first 63 63
          else bits first 47 0)
        Enters (.jstat w) w s s1 (s.ctx.result st w.dst v) v) ∧
      (w3Jr k = false → TrapsIn (.jstat w) w s s1 { cause := 0x21 })) ∧
    (let asks := ∃ t r, s.ctx.task = some t ∧ s.here.ready.head? = some r ∧ t.prio ≤ r.prio ∧ t.saveBase ≠ 0
     (¬ asks → Enters (.yield w) w s s [] 0) ∧
     (∀ t r, s.ctx.task = some t → s.here.ready.head? = some r → t.prio ≤ r.prio → t.saveBase ≠ 0 →
       Enters (.yield w) w s (s.setCtx { s.ctx with task := some { t with preempt := true, yields := true } }) [] 0))) ∧
  ∀ (s : State) (part va : Nat) (r : Record) (succ issuer launch slice cluster : Option Nat),
    let u := s.handOver part va r succ issuer launch slice cluster
    (w3Join r.w3 = 0 → (∀ b, slice = some b → b < 16) → ∃ k < 16, ∃ p < 16, ∃ q, (∀ b, slice = some b → k = b) ∧
      (vget [] (u.cluster k).queues p).getLast? = some q ∧ q.record = va ∧ q.part = part ∧ q.region = w3Region r.w3 ∧
      q.code = r.code ∧ q.frame = r.frame ∧ q.succ = succ.getD r.succ ∧ q.launch = launch ∧ q.prio = p) ∧
    (w3Join r.w3 ≠ 0 → u.die.waiting.getLast? =
      some { part, record := va, region := w3Region r.w3, succ, issuer, launch } ∧ ∀ k, (u.cluster k).queues = (s.cluster k).queues)

/-- The region and proxy instructions (R316, R318 to R322): what each checks, enters and answers.
(It rests on choices of the model: notes/assumptions/52, 55, 88, 89, 91, 117, 128.) -/
def Obligations.RegionsAndProxies : Prop :=
  ∀ (s : State) (w : Ins), s.mayIssue w = true →
    let st := s.streamOf w
    let a := s.opA w
    let within (s : State) (v : Word) := v.toNat < 0x10000 ∧ s.rgnWithin s.asn s.ownRegion v.toNat = true
    let region : Trap := { cause := 0x1C }
    let operand : Trap := { cause := 0x03 }
    -- RGNNEW
    (∀ pa s0 u, BlockAt s a 256 pa s0 → s0.blockWrite a.toNat = (none, u) →
      let s1 := u.noteRead pa 256
      let get (f : RcbField) : Nat := s1.peek (pa + f.1) f.2
      let p := (s.opB w).toNat
      let suits := (∀ f ∈ rcbSoftware, rcbRange f (get f) = true) ∧
        ∀ f ∈ rcbBounded, s1.rcbWithin s.asn p (get fOvr) f (get f) = true
      let entry := ((List.range (min (s.part s.asn).rgncnt 0xFFFF)).find? fun i => !s1.rgnLive s.asn i).map fun i =>
        (s.part s.asn).rgntab + 8 * i
      (within s1 (s.opB w) → s1.rgnDead s.asn p = false → suits → (∀ e, entry = some e → e + 8 ≤ 0x60_0000_0000) →
        Enters (.rgnnew w) w s s1 [.command (.rgnNew a.toNat p (s.ctx.target st w.dst))] 0) ∧
      (within s1 (s.opB w) → s1.rgnDead s.asn p = false → suits → ∀ e, entry = some e → 0x60_0000_0000 < e + 8 →
        TrapsIn (.rgnnew w) w s s1 { cause := 0x0A, addr := some e }) ∧
      (within s1 (s.opB w) → s1.rgnDead s.asn p = false → ¬ suits → TrapsIn (.rgnnew w) w s s1 operand) ∧
      (¬ within s1 (s.opB w) ∨ s1.rgnDead s.asn p = true → TrapsIn (.rgnnew w) w s s1 region)) ∧
    -- RGNSET, RGNGET, RGNKILL
    (∀ f, fieldOf w = some f →
      let i := a.toNat
      let b := (s.opB w).toNat
      let parent := s.rgnGet s.asn i fParent
      let read := s.visitPath s.asn (s.rgnPath s.asn i)
      let ovr := if f = fOvr then b else s.rgnGet s.asn i fOvr
      let settable := bit w.imm.toNat 8 = false ∧ b < 2 ^ (8 * f.2) ∧ (f ∈ rcbSoftware ∨ (f = fReason ∧ b = 0)) ∧ rcbRange f b = true
      let fits := parent = 0xFFFF ∨ (if f = fOvr then ∀ g ∈ rcbBounded, s.rcbWithin s.asn parent ovr g (s.rgnGet s.asn i g) = true
        else f ∉ rcbBounded ∨ s.rcbWithin s.asn parent ovr f b = true)
      (settable → within s a → fits → Enters (.rgnset w) w s read [.command (.rgnSet i f.1 b)] 0) ∧
      (¬ settable → Traps (.rgnset w) w s operand) ∧
      (settable → ¬ within s a → Traps (.rgnset w) w s region) ∧
      (settable → within s a → ¬ fits → TrapsIn (.rgnset w) w s read operand) ∧
      (within s a →
        let v := BitVec.ofNat 64 (if bit w.imm.toNat 8 then s.rgnEff s.asn i f else s.rgnGet s.asn i f)
        Enters (.rgnget w) w s (s.rgnNote i f (bit w.imm.toNat 8)) (s.ctx.result st w.dst v) v) ∧
      (¬ within s a → Traps (.rgnget w) w s region)) ∧
    (fieldOf w = none → Traps (.rgnset w) w s operand ∧ Traps (.rgnget w) w s operand) ∧
    (within s a → Enters (.rgnkill w) w s s [.command (.rgnKill a.toNat)] 0) ∧
    (¬ within s a → Traps (.rgnkill w) w s region) ∧
    -- PXPUSH, PXFLUSH
    (∀ pa s0, BlockAt s a 64 pa s0 →
      (∀ u, s0.blockWrite a.toNat = (none, u) →
        let s1 := u.storesOut.noteRead pa 64
        let d := s1.proxyDesc pa
        let q := s1.proxyOf s.asn a.toNat
        let head := s1.peek (pa + 0x18) 8
        let full := (head + 2 ^ 64 - s1.peek (pa + 0x28) 8) % 2 ^ 64 = d.slots
        let serves := d.ok = true ∧ q.stopped = false ∧ bit (s1.peek (pa + 0x30) 8) 63 = false
        let item := w.imm.toNat * 2 ^ 48 + (s.opB w).toNat
        ((s.opB w).toNat < 2 ^ 48 → serves → ¬ full → ∀ entry s2,
          s1.translate s1.focus s.asn (d.shadow + 16 * (head % d.slots)) .write = (.ok ⟨entry, 0⟩, s2) →
          let s3 := (s2.diePut entry 16 item).diePut (pa + 0x18) 8 ((head + 1) % 2 ^ 64)
          Enters (.pxpush w) w s (s3.setProxy { q with pushed := q.pushed ++ [s.time] }) [] 0) ∧
        ((s.opB w).toNat < 2 ^ 48 → serves → full →
          Enters (.pxpush w) w s s1 [.command (.proxyPush a.toNat pa d.shadow d.slots item)] 0) ∧
        ((s.opB w).toNat < 2 ^ 48 → ¬ serves → TrapsIn (.pxpush w) w s s1 { cause := 0x1E })) ∧
      let s1 := s0.storesOut.noteRead pa 64
      let q := s1.proxyOf s.asn a.toNat
      let head := s1.peek (pa + 0x18) 8
      let pending := if (s1.peek (pa + 0x28) 8 + 2 ^ 64 - head) % 2 ^ 64 < 2 ^ 63 then none else some head
      ((s1.proxyDesc pa).ok = true → Enters (.pxflush w) w s (s1.setProxy { q with flush := pending })
        [.command (.proxyFlush pa head)] 0) ∧
      ((s1.proxyDesc pa).ok = false → TrapsIn (.pxflush w) w s s1 { cause := 0x1E }))

/-- The retrieval instructions (R393 to R395): SRCH, INS, DEL, KVF and DARN, with fewer than 256 of the task's commands
outstanding and a completion ring that keeps R390, send their command with the next sequence number and are in flight until it is
accepted; they wait at 256; RPOP pops the ring's oldest entry, answers 0 where nb is set and there is none, and is in flight else;
RSTAT and GENQ answer of a usable index. RING-INVALID and HANDLE-INVALID else.
(It rests on choices of the model: notes/assumptions/11, 59.) -/
def Obligations.RetrievalInstructions : Prop :=
  ∀ (s : State) (w : Ins), s.mayIssue w = true →
    let st := s.streamOf w
    let gives (i : Instr) (u : State) (v : Word) : Prop := Enters i w s u (s.ctx.result st w.dst v) v
    (∀ row ∈ [(Instr.srch, 0x240), (Instr.ins, 0x241), (Instr.del, 0x242), (Instr.kvf, 0x243), (Instr.darn, 0x247)],
      (256 ≤ s.outstanding → exec (row.1 w) s = .next (s.passTurn st)) ∧
      (s.outstanding < 256 → ∀ block s1 ring s2, s.retrPlace (s.opA w) = (.ok block, s1) →
        s1.retrPlace (s.opB w) = (.ok ring, s2) →
        ((s2.ringDesc ring).ok = true → ∃ u c, Enters (row.1 w) w s u [.command (.retrieval c.uid (s.ctx.target st w.dst))] 0 ∧
          u.retr.cmds = s.retr.cmds ++ [c] ∧ c.op = row.2 ∧ c.seq = s.ctx.retrNext ∧ c.blockPa = block ∧ c.ringPa = ring ∧
          c.uid = s.retr.uidNext ∧ c.accepted = false ∧ c.result = none ∧ c.vas = [(s.opA w).toNat, (s.opB w).toNat] ∧
          u.ctx.retrNext = (s.ctx.retrNext + 1) % 2 ^ 48 ∧ WrittenBack u) ∧
        ((s2.ringDesc ring).ok = false → TrapsIn (row.1 w) w s (s2.noteRead ring 64) { cause := 0x40 })) ∧
      (s.outstanding < 256 → (s.opA w).toNat % 64 ≠ 0 →
        TrapsIn (row.1 w) w s s { cause := 0x0C, addr := some (s.opA w).toNat })) ∧
    (∀ pa s0, s.retrPlace (s.opA w) = (.ok pa, s0) →
      let s1 := s0.noteRead pa 64
      let d := s1.ringDesc pa
      let rp := s1.peek (pa + 0x18) 8
      let wp := s1.peek (pa + 0x10) 8
      (d.ok = true → rp < wp → gives (.rpop w) ((s1.diePut (pa + 0x18) 8 (rp + 1)).markStale s.focus)
        (BitVec.ofNat 64 (d.base + 32 * (rp % d.slots)))) ∧
      (d.ok = true → wp ≤ rp → bit w.imm.toNat 0 = true → gives (.rpop w) s1 0) ∧
      (d.ok = true → wp ≤ rp → bit w.imm.toNat 0 = false → ∀ t, s.ctx.target st w.dst = some t →
        Enters (.rpop w) w s s1 [.command (.pop pa t)] 0) ∧
      (d.ok = false → TrapsIn (.rpop w) w s s1 { cause := 0x40 })) ∧
    (∀ x, s.usableIdx (s.opA w) = some x →
      (w.imm.toNat < 13 → gives (.rstat w) s (BitVec.ofNat 64 (vget 0 x.counters w.imm.toNat))) ∧
      gives (.genq w) s (BitVec.ofNat 64 (
        if w.imm.toNat = 0 then x.gen else if w.imm.toNat = 1 then x.hposNext
        else if w.imm.toNat = 2 then (x.versions.head?.map (·.fromGen)).getD 0 else x.versions.length))) ∧
    (s.usableIdx (s.opA w) = none → (w.imm.toNat < 13 → Traps (.rstat w) w s { cause := 0x41 }) ∧
      Traps (.genq w) w s { cause := 0x41 }) ∧
    (13 ≤ w.imm.toNat → Traps (.rstat w) w s { cause := 0x03 })

namespace Sys2Proof.Claims

/-- The sequencer of the context that runs on a core may act (R241, R246, R262). -/
def EngineMay (s : State) (n : Nat) : Prop :=
  let c := s.runCtx n
  n < 128 ∧ (s.core n).turn = 0 ∧ c.moves = true ∧ c.handler = false ∧ c.faults = [] ∧ c.slotsIn (· = .faulted) = []

/-- The address of the entry of a level that an address indexes in a node, and that entry (R336). -/
def entryAddr (node va level : Nat) : Nat := node + 8 * (va / 2 ^ (39 - 9 * level) % 512)
def entryOf (s : State) (node va level : Nat) : Nat := s.peek (entryAddr node va level) 8

/-- What makes an entry with V = 1 invalid at its level (R338). -/
def EntryInvalid (e level : Nat) : Prop :=
  bits e 63 59 ≠ 0 ∨ bits e 55 46 ≠ 0 ∨ bits e 11 5 ≠ 0 ∨ (level = 0 ∧ bit e 1 = true) ∨ (level = 3 ∧ bit e 1 = false) ∨
  bits e 57 56 = 3 ∨ (level = 2 ∧ bit e 1 = true ∧ bits e 20 12 ≠ 0) ∨ (level = 1 ∧ bit e 1 = true ∧ bits e 29 12 ≠ 0) ∨
  (level ≠ 3 ∧ bit e 58 = true) ∨ (bit e 1 = false ∧ 0x60_0000_0000 ≤ bits e 45 12 * 4096)

/-- The node of a level that the walk for an address of a partition comes to (R336, R338). -/
def NodeAt (s : State) (asn va : Nat) : Nat → Nat → Prop
  | 0, node => node = (s.part asn).ptroot
  | level + 1, node => ∃ p, NodeAt s asn va level p ∧ s.die.poisonIn (entryAddr p va level) 8 = none ∧
      let e := entryOf s p va level
      bit e 0 = true ∧ ¬ EntryInvalid e level ∧ bit e 1 = false ∧ node = bits e 45 12 * 4096

/-- The entry of a level that a walk reads stands alone: of the sixteen of its group none is marked CONTIG (R339). -/
def Alone (s : State) (node va level : Nat) : Prop :=
  level = 3 → ∀ i < 16, bit (s.peek (entryAddr node va 3 / 128 * 128 + 8 * i) 8) 58 = false

/-- An entry permits an access (R335, R338). -/
def Permits (e : Nat) : Acc → Prop
  | .read => bit e 2 = true
  | .write => bit e 3 = true
  | .fetch => bit e 4 = true ∧ bits e 57 56 = 0

/-- A physical address is of the kind of the attribute that maps it (R335, R362). -/
def Placed (pa attr : Nat) : Prop :=
  (attr = 0 ∧ pa < 0x60_0000_0000) ∨ (attr = 1 ∧ 0x3F00_0000_0000 ≤ pa ∧ pa < 0x3F00_0100_0000) ∨
  (attr = 2 ∧ 0x3E00_0000_0000 ≤ pa ∧ pa < 0x3F00_0000_0000)

/-- The walk for an address comes to a leaf that stands alone: its level and its bits (R336 to R338). -/
def LeafAt (s : State) (asn va level e : Nat) : Prop :=
  va < 2 ^ 48 ∧ level < 4 ∧ ∃ node, NodeAt s asn va level node ∧ s.die.poisonIn (entryAddr node va level) 8 = none ∧
    Alone s node va level ∧ e = entryOf s node va level ∧ bit e 0 = true ∧ ¬ EntryInvalid e level ∧ bit e 1 = true

/-- The tables map an address of a partition to a place, for an access (R336 to R338). -/
def Maps (s : State) (asn va : Nat) (acc : Acc) (pa attr : Nat) : Prop :=
  ∃ level e, LeafAt s asn va level e ∧ Permits e acc ∧ pa = bits e 45 12 * 4096 + va % 2 ^ (39 - 9 * level) ∧ attr = bits e 57 56 ∧
    Placed pa attr

/-- Why the tables do not map an address for an access, by cause, in the order of R338; a fetch has its own cause (R65). -/
def Unmapped (s : State) (asn va : Nat) (acc : Acc) (cause : Nat) : Prop :=
  let fetched (c : Nat) : Nat := if acc = .fetch then 0x06 else c
  (2 ^ 48 ≤ va ∧ cause = fetched 0x0A) ∨
  (va < 2 ^ 48 ∧ ∃ level < 4, ∃ node, NodeAt s asn va level node ∧
    let e := entryOf s node va level
    (s.die.poisonIn (entryAddr node va level) 8 ≠ none ∧ cause = 0x31) ∨
    (s.die.poisonIn (entryAddr node va level) 8 = none ∧ Alone s node va level ∧
      ((bit e 0 = false ∧ cause = fetched 0x0A) ∨ (bit e 0 = true ∧ EntryInvalid e level ∧ cause = 0x30)))) ∨
  (∃ level e, LeafAt s asn va level e ∧
    ((¬ Permits e acc ∧ cause = fetched 0x0B) ∨
     (Permits e acc ∧ ¬ Placed (bits e 45 12 * 4096 + va % 2 ^ (39 - 9 * level)) (bits e 57 56) ∧ cause = fetched 0x0A)))

/-- No TLB that core `n` asks holds the address (R171, R340). -/
def TlbMiss (s : State) (n asn va : Nat) : Prop :=
  (∀ t ∈ (s.core n).tlb, t.maps asn va = false) ∧ ∀ t ∈ (s.cluster (n / 8)).tlb, t.maps asn va = false

/-- The entry that a leaf leaves in a TLB (R337, R340). -/
def tlbOf (asn va level e : Nat) : TlbEntry :=
  let size := 2 ^ (39 - 9 * level)
  { asn, va := va / size * size, size, pa := bits e 45 12 * 4096, r := bit e 2, w := bit e 3, x := bit e 4, attr := bits e 57 56 }

/-- The flight of the first LDLK of a stream that waits for its lock (R167). -/
def waitingLock (c : Ctx) (st : Nat) : Option Flight :=
  c.flights.find? fun f => f.stream = st && (match f.eff with
    | .command (.lock _ _) => true
    | _ => false)

end Sys2Proof.Claims

/-- RECORD_START, SEQUENCER_UNIT and RECORD_COMPLETE (R241, R245, R246, R257, R260): the released record that comes to start runs
from unit 0, unless its ring is full; one that breaks its table becomes FAULTED with RECORD-INVALID; the running record performs
its next unit, or stops at one that fails; with its units performed it is COMPLETE, the ring it closes gains a slot, and the next
record may start a cycle later. Nothing happens where the engine may not act.
(It rests on choices of the model: notes/assumptions/32.) -/
def Obligations.SequencerEngine : Prop :=
  ∀ (s : State) (n : Nat), n < 128 →
    let s0 := seenAt s n
    let c := s0.ctx
    let q := c.seq
    (EngineMay s n → q.startCycle ≤ c.cycle → ∀ i, c.seqNextStart = some i →
      let x := c.slotAt i
      let r := x.nest
      let g := c.ring r.ring
      let full := r.op ≠ 0 ∧ g.slots ≠ 0 ∧ g.filled = g.slots
      (r.recordOk = true → ¬ full → (r.closes = true → g.slots ≠ 0) → r.op ≠ 8 ∨ r.total = 0 →
        ∃ d, AtCore (.recordStart n) s (s0.setCtx d) ∧ 
          d = { c with seq := { q with slots := d.seq.slots, unit := 0, captured := [], entry := none, held := [] } } ∧
          d.slotAt i = { x with state := .running, checked := true } ∧ ∀ j < 64, j ≠ i → d.slotAt j = c.slotAt j) ∧
      (r.recordOk = true → full → exec (.recordStart n) s = .next s) ∧
      (x.checked = false → r.recordOk = false →
        ∃ d, AtCore (.recordStart n) s (s0.setCtx d) ∧ (d.slotAt i).state = .faulted ∧
          d.faults.map (fun f => (f.cause, f.origin)) = [(0x18, 5)] ∧ ∀ j < 64, j ≠ i → d.slotAt j = c.slotAt j)) ∧
    (∀ i, c.seqRunning = some i → EngineMay s n →
      let x := c.slotAt i
      let r := x.nest
      (q.unit < r.units → (r.op = 8 → r.total ≠ 0 → q.captured ≠ []) →
        (∀ us s1 s2, s0.unitCells r q.unit = (.ok us, s1) → s1.performUnit r us = (s2, []) →
          AtCore (.sequencerUnit n) s (s2.setCtx { s2.ctx with seq := { s2.ctx.seq with unit := s2.ctx.seq.unit + 1 } })) ∧
        (∀ f s1, s0.unitCells r q.unit = (.error f, s1) →
          ∃ d, AtCore (.sequencerUnit n) s (s1.setCtx d) ∧ (d.slotAt i).state = .faulted ∧
            d.faults = s1.ctx.faults ++ [seqFault (s1.ctx.slotAt i).nest i s1.ctx.seq.unit f]) ∧
        exec (.recordComplete n) s = .next s) ∧
      (r.units ≤ q.unit → q.held = [] →
        exec (.sequencerUnit n) s = .next s ∧
        ∃ d, AtCore (.recordComplete n) s (s0.setCtx d) ∧ d.slotAt i = { x with state := .complete } ∧
          (∀ j < 64, j ≠ i → d.slotAt j = c.slotAt j) ∧ d.seq.startCycle = c.cycle + 1 ∧
          (r.closes = false → d.rings = c.rings) ∧
          (r.closes = true → r.ring < 16 → let g := c.ring r.ring
            d.ring r.ring = { g with wp := (g.wp + 1) % g.slots, filled := g.filled + 1 })) ∧
      (r.units ≤ q.unit → ∃ t, exec (.recordComplete n) s = .next t ∧ ((t.runCtx n).slotAt i).state = .complete)) ∧
    (∀ i ∈ [Instr.recordStart n, .sequencerUnit n, .recordComplete n], ¬ EngineMay s n → exec i s = .next s)

/-- LOCK_RETRY, ICACHE_FILL, BLOCK_CACHE_FILL, GENERATOR_READ, MATRIX_STEP and PAGE_WALK (R64, R164, R167, R169, R210, R336 to
R340): a waiting LDLK takes its lock bit once it is clear and reads its word; a fill of the instruction cache captures a line that can
be fetched; the next missing line of a block fills from its home slice; a generator reads one entry ahead; the array starts its next
operation; a walk puts the leaf it comes to at the front of the core's and the cluster's TLB, and nothing where it fails. An address
that no TLB holds is translated as the tables say, or raises the cause of the first entry that is not usable; a whole group of entries
marked CONTIG maps as one. A core, stream or port that is not there refuses.
(It rests on choices of the model: notes/assumptions/7, 41, 112.) -/
def Obligations.CoreEngines : Prop :=
  (∀ (s : State) (n : Nat), n < 128 →
    let s0 := seenAt s n
    let c := s0.ctx
    let k := s.core n
    (∀ st < 2, ∀ f off dst, waitingLock c st = some f → f.eff = .command (.lock off dst) →
      (k.locks.getLsbD (lockBit off) = true → ∃ u, AtCore (.lockRetry n st) s u ∧ BanksAsked s0 u) ∧
      (k.locks.getLsbD (lockBit off) = false → ∃ t, exec (.lockRetry n st) s = .next t ∧
        (t.core n).locks = k.locks ||| BitVec.twoPow 512 (lockBit off) ∧
        (if st = 0 then (t.runCtx n).lockS else (t.runCtx n).lockL) = some off ∧
        (t.runCtx n).flights = (c.resolve f.seq (some dst) (loadedWord 8 false (s0.loadSpad st off 8))).flights)) ∧
    (∀ st < 2, waitingLock c st = none → exec (.lockRetry n st) s = .next s) ∧
    (∀ line cause s1, s0.codeBytes n s0.asn (128 * line) 128 = (.error cause, s1) → AtCore (.icacheFill n line) s s1) ∧
    (∀ line code s1, s0.codeBytes n s0.asn (128 * line) 128 = (.ok code, s1) →
      ∃ t more bad, exec (.icacheFill n line) s = .next t ∧
        (t.core n).icache.find? (fun x => x.asn = s0.asn && x.vline = line) =
          some { asn := s0.asn, vline := line, pline := code.pa / 128, bytes := code.bytes ++ more, poison := code.bad 0 ++ bad }) ∧
    (∀ line b, k.blocks.find? (fun b => k.nextFill b = some line) = some b → ∃ t, exec (.blockCacheFill n line) s = .next t ∧
      (t.core n).lineOf line = some { pline := line, data := s.die.mem.load (128 * line) 128, dirty := 0, stale := false, writers := [] } ∧
      ((∀ p ∈ b.plines, p ≠ line → (k.lineOf p).isSome = true) → { b with complete := true } ∈ (t.core n).blocks)) ∧
    (∀ line, k.blocks.find? (fun b => k.nextFill b = some line) = none → exec (.blockCacheFill n line) s = .next s) ∧
    (∀ j < 8, c.moves = true →
      let p := c.port j
      (p.ahead.length < (Nest.ofBits p.record).maxAhead → ∃ u, AtCore (.generatorRead n j) s u ∧ BanksAsked (s0.setCtx (c.setPort j
        (p.fill (s0.spadView c) c.spadLimit (p.ahead.length + 1) (p.ahead.length + 1)))) u) ∧
      ((Nest.ofBits p.record).maxAhead ≤ p.ahead.length → exec (.generatorRead n j) s = .next s)) ∧
    (∀ j < 8, c.moves = false → exec (.generatorRead n j) s = .next s) ∧
    (∀ seq cost issued rest, c.array = (seq, cost, issued) :: rest →
      let start := max c.arrayFree (issued + 1)
      (start ≤ c.coreCycle → AtCore (.matrixStep n) s (s0.setCtx { c with
        array := rest, arrayFree := start + cost
        flights := c.flights.map fun f => if f.seq = seq then { f with ready := some (start + cost + 8) } else f })) ∧
      (c.coreCycle < start → exec (.matrixStep n) s = .next s)) ∧
    (c.array = [] → exec (.matrixStep n) s = .next s) ∧
    (∀ va, AtCore (.pageWalk n va) s (s0.translate n s0.asn va .read).2 ∧ ∃ t, exec (.pageWalk n va) s = .next t ∧
      t.die.mem = s.die.mem ∧ t.host = s.host ∧ (∀ m < 128, (t.core m).ctx = (s.core m).ctx) ∧
      (TlbMiss s n s0.asn va → ∀ level e, LeafAt s s0.asn va level e → bit e 2 = true →
        (t.core n).tlb.head? = some (tlbOf s0.asn va level e) ∧ (t.cluster (n / 8)).tlb.head? = some (tlbOf s0.asn va level e)) ∧
      (TlbMiss s n s0.asn va → ∀ c, Unmapped s s0.asn va .read c →
        (∀ level e, LeafAt s s0.asn va level e → bit e 2 = false) →
        ∀ m < 128, (t.core m).tlb = (s.core m).tlb ∧ (t.cluster (m / 8)).tlb = (s.cluster (m / 8)).tlb))) ∧
  -- translation: through the tables where no TLB holds the address, a whole contiguous group as one entry; else by the TLB's entry
  (∀ (s : State) (n asn va : Nat) (acc : Acc), n < 128 →
    let gives (r : Except Nat Phys) : Prop := (s.translate n asn va acc).1 = r
    (TlbMiss s n asn va → (∀ pa attr, Maps s asn va acc pa attr → gives (.ok ⟨pa, attr⟩)) ∧
      (∀ c, Unmapped s asn va acc c → gives (.error c)) ∧
      (va < 2 ^ 48 → ∀ node run rights, NodeAt s asn va 3 node →
        (∀ i < 16, let ea := entryAddr node va 3 / 128 * 128 + 8 * i
          let e := s.peek ea 8
          s.die.poisonIn ea 8 = none ∧ bit e 0 = true ∧ ¬ EntryInvalid e 3 ∧ bit e 58 = true ∧ bits e 45 12 = 16 * run + i ∧
          bits e 4 2 = rights ∧ bits e 57 56 = 0) →
        (acc = .read → bit rights 0 = true) → (acc = .write → bit rights 1 = true) → (acc = .fetch → bit rights 2 = true) →
        65536 * run + va % 65536 < 0x60_0000_0000 → node % 4096 = 0 → gives (.ok ⟨65536 * run + va % 65536, 0⟩))) ∧
    (va < 2 ^ 48 → ∀ t, ((s.core n).tlb.find? fun t => t.maps asn va) = some t →
      (t.permits acc = true → Placed (t.pa + (va - t.va)) t.attr → gives (.ok ⟨t.pa + (va - t.va), t.attr⟩)) ∧
      (t.permits acc = false → gives (.error (if acc = .fetch then 0x06 else 0x0B))))) ∧
  ∀ (s : State) (n j line : Nat), 128 ≤ n ∨ 8 ≤ j →
    exec (.generatorRead n j) s = .refused .noSuchPlace ∧
    (128 ≤ n → ∀ i ∈ [Instr.lockRetry n j, .icacheFill n line, .blockCacheFill n line, .matrixStep n, .pageWalk n line, .recordStart n,
      .sequencerUnit n, .recordComplete n, .resultLand n, .taskComplete n, .eretReturn n, .timerFire n, .trapEntry n,
      .modeBarrierPass n, .preempt n, .contextSave n, .contextRestore n, .debugStop n, .placement n], exec i s = .refused .noSuchPlace)

namespace Sys2Proof.Claims

/-- A context that holds a task, as the debug commands reach it over the link of its cluster (R147, R283, R353). -/
def DebugAt (s : State) (n slot : Nat) : Prop :=
  n < 128 ∧ slot < 2 ∧ (s.ctxAt n slot).task.isSome = true ∧ s.linkFree (n / 8) = true

/-- Where the link of a cluster is not free, a command to it takes a permit and stands behind those sent before; with no permit left
the Crown waits (R353). -/
def LinkHeld (s : State) (k : Nat) (i : Instr) : Prop := s.linkFree k = false →
  let c := s.cluster k
  (c.permits = 0 → exec i s = .next s) ∧
  (c.permits ≠ 0 → exec i s = .next (s.setCluster k { c with permits := c.permits - 1, link := c.link ++ [i] }))

end Sys2Proof.Claims

/-- LLC_OPERATION, CTRL, TLBINV, TLBINVST and TLB_INVALIDATION (R329 to R332, R342): a slice's operation reads a line or writes
bytes within one, and counts the ECC error it meets, an uncorrectable one setting its word's poison bit; bit 0 of CTRL clears the
counters of its slice and no other's at the end of the cycle, but for the overflow bits set in that cycle; a write of TLBINV queues an invalidation, or sets DROP where 16 are queued; a 1 in DROP clears
it; the oldest invalidation drops every entry it meets from every TLB and every block of the caches, and counts once no store
through an old translation is in flight.
(It rests on choices of the model: notes/assumptions/27, 112, 115.) -/
def Obligations.SliceAndTlbOperations : Prop :=
  (∀ (s : State) (a : Nat),
    let word := a / 32 * 32
    (0x60_0000_0000 ≤ a → ∀ x, exec (.llcOperation a x) s = .refused .noSuchPlace) ∧
    (a < 0x60_0000_0000 →
      (∀ e, ∃ t, exec (.llcOperation a { write := none, found := e }) s = .next t ∧ t.die.mem = s.die.mem ∧ t.cores = s.cores ∧ t.host = s.host ∧
        match e with
        | .clean => t.die.poison = s.die.poison ∧ t.die.counter (homeSlice (word / 128)) cCecc = s.die.counter (homeSlice (word / 128)) cCecc
        | .corrected m => t.die.poison = s.die.poison ∧ t.die.eccMemC = s.die.eccMemC + (if m then 1 else 0) ∧
            t.die.eccLlcC = s.die.eccLlcC + (if m then 0 else 1)
        | .uncorrectable m => t.die.poison = addSorted word s.die.poison ∧ t.die.eccMemU = s.die.eccMemU + (if m then 1 else 0) ∧
            t.die.eccLlcU = s.die.eccLlcU + (if m then 0 else 1)) ∧
      ∀ bs, let n := min bs.length (128 - a % 128)
        s.die.poisonIn a n = none → ∃ t, exec (.llcOperation a { write := some bs, found := .clean }) s = .next t ∧ t.die.mem.load a n = bs.take n ∧
          (∀ x, x < a ∨ a + n ≤ x → t.die.mem.read x = s.die.mem.read x) ∧ t.cores = s.cores ∧ t.host = s.host)) ∧
  (∀ (s : State) (slice v : Nat),
    (slice < 128 → bit v 0 = true → ∃ t, exec (.ctrl slice v) s = .next t ∧ t.die.mem = s.die.mem ∧
      (∀ j < 14, j ≠ 8 → j ≠ 9 → t.die.endCycle.counter slice j = 0) ∧
      t.die.endCycle.counter slice 14 = tget 0 s.die.ovfNow slice ∧
      ∀ m j, m ≠ slice → j < 16 → t.die.endCycle.counter m j = s.die.endCycle.counter m j) ∧
    (slice < 128 → bit v 0 = false → exec (.ctrl slice v) s = .next s) ∧
    (128 ≤ slice → exec (.ctrl slice v) s = .refused .noSuchPlace)) ∧
  ∀ (s : State) (v : Nat),
    (s.die.tlbQueue.length < 16 → exec (.tlbinv v) s = .next { s with die := { s.die with tlbQueue := s.die.tlbQueue ++ [v % 2 ^ 64] } }) ∧
    (16 ≤ s.die.tlbQueue.length → exec (.tlbinv v) s = .next { s with die := { s.die with tlbDrop := true } }) ∧
    (bit v 1 = true → exec (.tlbinvst v) s = .next { s with die := { s.die with tlbDrop := false } }) ∧
    (bit v 1 = false → exec (.tlbinvst v) s = .next s) ∧
    (s.die.tlbQueue = [] → exec .tlbInvalidation s = .next s) ∧
    (∀ rest, s.die.tlbQueue = v :: rest → ∃ t, exec .tlbInvalidation s = .next t ∧
      (s.oldAccess v = false → t.die.tlbQueue = rest ∧ t.die.tlbSeq = (s.die.tlbSeq + 1) % 2 ^ 62) ∧
      (s.oldAccess v = true → t.die.tlbQueue = s.die.tlbQueue ∧ t.die.tlbSeq = s.die.tlbSeq) ∧
      ((∀ n < 128, ∀ b ∈ (s.core n).blocks, b.meets v = false) → t.die.mem = s.die.mem) ∧
      (∀ n < 128, ∀ b ∈ (t.core n).blocks, b.meets v = false) ∧
      let met (e : TlbEntry) : Prop := e.asn = bits v 62 60 ∧
        (bit v 63 = true ∨ (bits v 47 12 * 4096 < e.va + e.size ∧ e.va < (bits v 47 12 + bits v 59 48 + 1) * 4096))
      (∀ n < 128, ∀ e, e ∈ (t.core n).tlb ↔ e ∈ (s.core n).tlb ∧ ¬ met e) ∧
      ∀ k < 16, ∀ e, e ∈ (t.cluster k).tlb ↔ e ∈ (s.cluster k).tlb ∧ ¬ met e)

/-- RESERVE, COMMIT, ROLLBACK, GANG_START and GANG_TIMEOUT (R354, R355): of the one gang that is reserving, a part that fits a core
of the cluster takes its context there and is reserved; when every part is, each commits for one start instant, at least 2 µs away at
every COMMIT; one of a gang that failed gives its context back; a committed part begins at the instant where every part has committed;
a phase that waits for 10 ms fails with GANG-TIMEOUT. A command to a link that is not free takes a permit and stands in the order sent,
or waits where no permit is left. Where that is not so nothing happens, and a cluster above 15 refuses.
(It rests on choices of the model: notes/assumptions/51.) -/
def Obligations.GangPhases : Prop :=
  (∀ (s : State) (id k : Nat), k < 16 → s.linkFree k = true →
    let held (p : GangPart) : Bool := p.phase = .reserved && p.cluster = k
    let soon (t : Nat) : Prop := t < s.now + 2000
    (∀ g i p x, s.reserving = some g → g.launch = id → g.failure = none → s.reservePart g k = some (i, p) →
      let g1 : Gang := { g with sent := g.sent.or (some s.now) }
      s.partCheck p = .ok x →
      (∀ n j slot, s.reserveCore p x k = some (n, j, slot) →
        exec (.reserve id k) s = .next (((s.partReads p).placeAt n j slot x.ready { bytes := x.header } x.recs true).setGang
          (g1.setPart i { p with phase := .reserved, cluster := k, core := some n, kept := some x }))) ∧
      (s.reserveCore p x k = none →
        exec (.reserve id k) s = .next ((s.partReads p).setGang (g1.setPart i { p with phase := .waiting, cluster := k, kept := some x })))) ∧
    (∀ p x, p.kept = some x → s.partCheck p = .ok x) ∧
    (s.reserving = none → exec (.reserve id k) s = .next s) ∧
    (∀ g i p time, s.gang id = some g → g.allReserved = true →
      (g.fabric.isSome = true ∧ g.start = some time) ∨ (g.fabric = none ∧ ¬ soon time ∧
        ((g.start = none ∧ s.reserving.map (·.launch) = some id) ∨ ∃ t, g.start = some t ∧ (t = time ∨ soon t))) →
      g.first held = some (i, p) →
      ∃ t, exec (.commit id k time) s = .next t ∧ t.die.gangs = s.die.gangs.map fun x =>
        if x.launch = g.launch then { g.setPart i { p with phase := .committed } with start := some time } else x) ∧
    (∀ g time, s.gang id = some g → g.allReserved = false ∨
        (g.fabric = none ∧ (soon time ∨ ∃ t, g.start = some t ∧ t ≠ time ∧ ¬ soon t)) →
      exec (.commit id k time) s = .next s) ∧
    (∀ g i p n j t, s.gang id = some g → g.failure.isSome = true → g.first held = some (i, p) → s.gatedSlot p = some (n, j) →
      (s.ctxAt n j).task = some t → (g.setPart i { p with phase := .idle, core := none, kept := none }).parts.any (fun p => p.phase = .reserved) = true →
      ∃ u, exec (.rollback id k) s = .next u ∧ u.ctxAt n j = Ctx.reset ∧
        u.die.gangs = s.die.gangs.map fun x => if x.launch = g.launch then g.setPart i { p with phase := .idle, core := none, kept := none } else x) ∧
    (∀ g, s.gang id = some g → g.failure = none → exec (.rollback id k) s = .next s)) ∧
  (∀ (s : State) (id k time : Nat), k < 16 → ∀ i ∈ [Instr.reserve id k, .rollback id k, .commit id k time], LinkHeld s k i) ∧
  (∀ (s : State) (id k : Nat), k < 16 → ∀ g, s.gang id = some g →
    let ready := ∀ p ∈ g.parts, p.phase = .committed ∨ p.phase = .started
    (∀ i p n j t x, g.start = some t → t ≤ s.now → ready → g.first (fun p => p.phase = .committed && p.cluster = k) = some (i, p) →
      s.gatedSlot p = some (n, j) → (s.ctxAt n j).task = some x →
      ∃ u, exec (.gangStart id k) s = .next u ∧ u.ctxAt n j = { s.ctxAt n j with task := some { x with gated := false, placed := s.now } }) ∧
    ((∀ t, g.start = some t → s.now < t) ∨ ¬ ready → exec (.gangStart id k) s = .next s)) ∧
  (∀ (s : State) (id : Nat), s.gang id = none →
    exec (.gangTimeout id) s = .next s ∧ ∀ k < 16, exec (.gangStart id k) s = .next s ∧ (s.linkFree k = true → ∀ time,
      exec (.commit id k time) s = .next s ∧ exec (.rollback id k) s = .next s)) ∧
  (∀ (s : State) (id : Nat) (g : Gang), s.gang id = some g →
    (∀ i p t, g.start = none → g.failure = none → g.sent = some t → t + 10000000 ≤ s.now →
      g.first (fun p => p.phase = .waiting) = some (i, p) →
      exec (.gangTimeout id) s = .next ((s.setGang (g.setPart i { p with phase := .failed 0x0E })).closeGang id)) ∧
    (g.start.isSome = true ∨ g.failure.isSome = true ∨ (∀ t, g.sent = some t → s.now < t + 10000000) → exec (.gangTimeout id) s = .next s)) ∧
  ∀ (s : State) (id k time : Nat), 16 ≤ k → ∀ i ∈ [Instr.reserve id k, .commit id k time, .rollback id k, .gangStart id k],
    exec i s = .refused .noSuchPlace

namespace Sys2Proof.Claims

/-- A command has its completion with a status (R390, R396). -/
def HasStatus (t : State) (uid status : Nat) : Prop := ∃ d r, t.cmd uid = some d ∧ d.result = some r ∧ r.status = status

/-- No two commands bear one number. -/
def OneUid (s : State) (c : RetrCmd) : Prop := ∀ d ∈ s.retr.cmds, d.uid = c.uid → d = c

end Sys2Proof.Claims

/-- COMMAND_ACCEPT, KVF_FETCH and COMPLETION_WRITE (R389, R390, R393, R394, R396): the command sent first is accepted, and has its
completion at once where its block is poisoned, breaks the table or names no index; a fetch that is killed, or whose object's pages
have been read, ends KILLED, ABSENT, or OK with its block and block-table entry written; a completion with room in its ring advances WP, and its command is gone.
(It rests on choices of the model: notes/assumptions/8, 38, 57, 58.) -/
def Obligations.RetrievalCommands : Prop :=
  (∀ (s : State), (s.retr.cmds.find? fun c => !c.accepted) = none → exec .commandAccept s = .next s) ∧
  (∀ (s : State) (c : RetrCmd), s.retr.cmds.find? (fun c => !c.accepted) = some c → OneUid s c →
    let b := CmdBlock.ofBytes (s.die.mem.load c.blockPa 64)
    let clean := s.die.poisonIn c.blockPa 64 = none
    (∃ t d, exec .commandAccept s = .next t ∧ t.cmd c.uid = some d ∧ d.accepted = true ∧ d.handle = bits b.handle 9 0 ∧ d.user = b.user) ∧
    (¬ clean → ∃ t, exec .commandAccept s = .next t ∧ HasStatus t c.uid 8) ∧
    (clean → b.bad c.op = true → ∃ t, exec .commandAccept s = .next t ∧ HasStatus t c.uid 1) ∧
    (clean → b.bad c.op = false → s.idx (bits b.handle 9 0) = none → ∃ t, exec .commandAccept s = .next t ∧ HasStatus t c.uid 2)) ∧
  (∀ (s : State) (k i : Nat), k < 16 →
    let reading (c : RetrCmd) : Bool := s.retr.reads.any fun r => r.kind = .object && r.cmds = [c.uid]
    let due (c : RetrCmd) : Bool := c.op = 0x243 && c.accepted && c.result.isNone && ((s.idx c.handle).any fun x => x.home = k) &&
      (c.killed || !reading c)
    ((s.retr.cmds.filter due)[i]? = none → exec (.kvfFetch k i) s = .next s) ∧
    ∀ c x, (s.retr.cmds.filter due)[i]? = some c → s.idx c.handle = some x → OneUid s c →
      (c.killed = true → ∃ t, exec (.kvfFetch k i) s = .next t ∧ HasStatus t c.uid 9 ∧
        ∀ r ∈ t.retr.reads, ¬ (r.kind = .object ∧ r.cmds = [c.uid])) ∧
      (c.killed = false → x.objectAt c.id c.blockNo c.gen = none → ∃ t, exec (.kvfFetch k i) s = .next t ∧ HasStatus t c.uid 10) ∧
      (c.killed = false → ∀ bs fs, x.objectAt c.id c.blockNo c.gen = some (bs, fs) → s.die.poisonIn c.tablePa 16 = none →
        ∃ t, exec (.kvfFetch k i) s = .next t ∧ HasStatus t c.uid 0 ∧
          t.die.mem.load c.tablePa 16 = natBytes 16 (2 ^ 63 + c.out + c.gen * 2 ^ 64))) ∧
  (∀ (s : State) (k : Nat), k < 16 →
    let ready (c : RetrCmd) : Bool := c.result.isSome && s.ctlOf c = k && s.ringRoom c
    (s.retr.cmds.find? ready = none → exec (.completionWrite k) s = .next s) ∧
    ∀ c, s.retr.cmds.find? ready = some c → ∃ t, exec (.completionWrite k) s = .next t ∧
      t.retr.cmds = s.retr.cmds.filter (fun d => d.uid ≠ c.uid) ∧
      (let d := s.ringDesc c.ringPa
       let w := s.peek (c.ringPa + 0x10) 8
       ∀ pa s1, (s.noteRead c.ringPa 64).ctlPlace c.part (d.base + 32 * (w % d.slots)) .write = (some pa, s1) → s.die.poisonIn (c.ringPa + 0x10) 8 = none →
         t.peek (c.ringPa + 0x10) 8 = (w + 1) % 2 ^ 64)) ∧
  ∀ (s : State) (k i : Nat), 16 ≤ k →
    exec (.kvfFetch k i) s = .refused .noSuchPlace ∧ exec (.completionWrite k) s = .refused .noSuchPlace

/-- PROXY_FORWARD, PROXY_ACCEPT and PROXY_LOSS (R322, R433): a batch goes out when it is full, its time has come or a flush asks
for it: its entries are read at SHADOW, and TAIL advances by them; a received SPAWN hands its record over at the cluster, a received SIGJ reports to its
join; a queue whose oldest sent entry is not accepted for 10 ms stops with LINK-FAILED. Where that is not so nothing happens.
(It rests on choices of the model: notes/assumptions/47, 52.) -/
def Obligations.ProxyEngine : Prop :=
  (∀ (s : State) (p desc : Nat), p < 8 →
    let x := s.proxyOf p desc
    (∀ pa, s.proxyPlace p desc = some pa →
      let d := s.proxyDesc pa
      let n := min d.batch x.pushed.length
      let due := x.stopped = false ∧ ∃ t rest, x.pushed = t :: rest ∧
        (d.batch ≤ x.pushed.length ∨ x.flush ≠ none ∨ t + d.timeout * 1000 * 720720 ≤ s.time)
      let tail := s.peek (pa + 0x20) 8
      let r := (s.visit p desc 64).shadowEntries p d tail n
      (due → exec (.proxyForward p desc) s = .next ((r.2.diePut (pa + 0x20) 8 ((tail + n) % 2 ^ 64)).setProxy
        { x with pushed := x.pushed.drop n, sent := x.sent ++ List.replicate n s.time, batch := r.1 })) ∧
      (∀ j < n, ∀ ea, Maps s p (d.shadow + 16 * ((tail + j) % d.slots)) .read ea 0 → r.1[j]? = some (bits (s.peek ea 8) 48 48, bits (s.peek ea 8) 47 0)) ∧
      (¬ due → exec (.proxyForward p desc) s = .next s)) ∧
    (s.proxyPlace p desc = none → exec (.proxyForward p desc) s = .next s) ∧
    (let lost := x.stopped = false ∧ ∃ t rest, x.sent = t :: rest ∧ t + 10000000 * 720720 ≤ s.time
     (lost → exec (.proxyLoss p desc) s = .next ((s.stopProxy p desc).logFault 2 0x53 (some p) 0x7FF 0 desc 0)) ∧
     (¬ lost → exec (.proxyLoss p desc) s = .next s))) ∧
  (∀ (s : State) (k p va : Nat) (r : Record), k < 16 → s.partOfCluster k = some p → s.readRecord p va = some r →
    let v := s.visit p va 32
    exec (.proxyAccept k []) s = .next s ∧
    (w3Wait r.w3 = false → w3Killed r.w3 = false → r.bad va = false → s.rgnLive p (w3Region r.w3) = true →
      exec (.proxyAccept k [(0, va)]) s = .next (v.handOver p va r none none none (some k) (some k))) ∧
    (va % 64 ≠ 0 → exec (.proxyAccept k [(1, va)]) s = .next (v.logFault 0 0x21 (some p) 0x7FF 0 va 0)) ∧
    (va % 64 = 0 → w3Killed r.w3 = true → exec (.proxyAccept k [(1, va)]) s = .next v) ∧
    (va % 64 = 0 → w3Killed r.w3 = false → w3Jr r.w3 = true → w3Wait r.w3 = true →
      let e : Ending := { part := p, record := 0, region := w3Region r.w3, succ := va, how := .completed, cause := 0, reason := 0,
                          launch := none, cluster := some k, addr := 0, hostCause := 0 }
      exec (.proxyAccept k [(1, va)]) s = .next ((v.report e).1.settle (v.report e).2)) ∧
    (va % 64 = 0 → w3Killed r.w3 = false → w3Jr r.w3 = false ∨ w3Wait r.w3 = false →
      exec (.proxyAccept k [(1, va)]) s = .next (v.logFault 0 0x1B (some p) 0x7FF 0 va 0))) ∧
  ∀ (s : State) (p desc k : Nat) (es : List (Nat × Nat)), (8 ≤ p →
    exec (.proxyForward p desc) s = .refused .noSuchPlace ∧ exec (.proxyLoss p desc) s = .refused .noSuchPlace) ∧
    (16 ≤ k → exec (.proxyAccept k es) s = .refused .noSuchPlace)

namespace Sys2Proof.Claims

/-- The next packet of a queue, which the agent that serves it performs (R411, R420). -/
def NextPacket (s : State) (q : Nat) (x : Queue) (p : Packet) : Prop :=
  q < 1024 ∧ s.queueOf q = some x ∧ s.queueNext x = .packet p ∧ (s.host.mitten = false ∨ mittenPacket p = true)

/-- The event of a packet type. -/
def PacketEvent (q kind : Nat) (i : Instr) : Prop :=
  (kind, i) ∈ ([(0x00, .nopPacket q), (0x01, .launch q), (0x02, .ib q), (0x03, .pktPred q), (0x04, .loopPacket q), (0x05, .waitmem q),
    (0x05, .waitmemPoll q), (0x06, .writemem q), (0x07, .signal q), (0x08, .timestamp q), (0x09, .fetchfence q)] : List (Nat × Instr))

/-- A word of the host's memory. -/
def hostAddr (w : Nat) : Prop := bit w 63 = true

end Sys2Proof.Claims

/-- REGISTER_WRITE, MGMTDB, REBOOT, PRESET, MODRESET, DOORBELL and HOST_ACCESS (R404, R405, R409, R420, R421, R423, R432): what a
write of each register of BAR0 does, a write that names none being discarded and logged; a doorbell moves WPTR and starts a queue
with packets; an access through the aperture reads or writes LPDDR-6, and the host has an error response to a write refused.
(It rests on choices of the model: notes/assumptions/69.) -/
def Obligations.HostRegisters : Prop :=
  (∀ (s : State) (v : Nat), v < 2 ^ 64 →
    let h := s.host
    let host (i : Instr) (g : Host1) : Prop := exec i s = .next { s with host := g }
    let discarded (o q : Nat) : Prop := exec (.registerWrite o v) s = .next (s.logFault 4 0x54 none q 0 0 o)
    host (.registerWrite 0x08 v) { h with mirrorBase := v / 4096 * 4096 + v % 2 } ∧
    host (.registerWrite 0x10 v) { h with mgmtBase := v / 4096 * 4096 } ∧
    (bits v 38 36 < 6 → host (.registerWrite 0x48 v) { h with aperture := bits v 38 36 }) ∧
    (6 ≤ bits v 38 36 → discarded 0x48 0x7FF) ∧
    (∀ o ∈ [0x00, 0x20, 0x38], exec (.registerWrite o v) s = .next s) ∧
    exec (.registerWrite 0x18 v) s = exec (.mgmtdb v) s ∧ exec (.registerWrite 0x28 v) s = exec (.reboot v) s ∧
    exec (.registerWrite 0x30 v) s = exec (.preset v) s ∧ exec (.registerWrite 0x40 v) s = exec (.modreset v) s ∧
    (∀ q < 1024, exec (.registerWrite (0x1_0000 + 8 * q) v) s = exec (.doorbell q v) s) ∧
    (∀ o, o ∉ [0x00, 0x08, 0x10, 0x18, 0x20, 0x28, 0x30, 0x38, 0x40, 0x48] → (∀ q < 1024, o ≠ 0x1_0000 + 8 * q) → discarded o 0x7FF) ∧
    (let dist (x : Nat) := (x + 2 ^ 64 - h.mgmtDone) % 2 ^ 64
     (v = h.mgmtAccepted → exec (.mgmtdb v) s = .next s) ∧
     (v ≠ h.mgmtAccepted → dist h.mgmtAccepted ≤ dist v → dist v ≤ 64 → host (.mgmtdb v) { h with mgmtAccepted := v }) ∧
     (v ≠ h.mgmtAccepted → dist v < dist h.mgmtAccepted ∨ 64 < dist v →
       exec (.mgmtdb v) s = .next (s.logFault 4 0x54 none 0x7FF 0 v h.mgmtBase))) ∧
    (bit v 0 = true → h.crown = 1 → ∃ t, exec (.reboot v) s = .next t ∧ t.host.crown = 2 ∧ t.host.mitten = true ∧ t.host.ladder = 1 ∧
      t.die = s.die ∧ t.cores = s.cores ∧ t.retr = s.retr ∧ ∀ p ∈ t.host.queues, p.2.windows = [] ∧ ∀ l ∈ p.2.levels, l.window = none) ∧
    (bit v 0 = false ∨ h.crown ≠ 1 → exec (.reboot v) s = .next s) ∧
    (∃ t, exec (.preset v) s = .next t ∧ ∀ p < 8,
      (bit v p = true → (s.part p).state.resettable = true → (t.part p).state = .resetting) ∧
      (bit v p = false → (t.part p).state = (s.part p).state)) ∧
    (v = 0x4D52 → ∃ t, exec (.modreset v) s = .next t ∧ t.cores = State.reset.cores ∧ t.die = State.reset.die ∧
      ((∀ q ∈ h.queues, q.2.working = false) ∨ bit h.mirrorBase 0 = false → t.host.mem = h.mem) ∧ t.host.fuses = h.fuses ∧ t.host.stored = h.stored ∧ t.host.crown = 0 ∧ t.host.ladder = 4 ∧
      t.host.queues = [] ∧ t.retr.cmds = []) ∧
    (v ≠ 0x4D52 → exec (.modreset v) s = .next s)) ∧
  (∀ (s : State) (q v : Nat),
    (1024 ≤ q → exec (.doorbell q v) s = .refused .noSuchPlace) ∧
    (q < 1024 → s.queueOf q = none → exec (.doorbell q v) s = .next (s.logFault 4 0x54 none q 0 0 (0x1_0000 + 8 * q))) ∧
    (∀ x, q < 1024 → s.queueOf q = some x → ∃ t y, exec (.doorbell q v) s = .next t ∧ t.queueOf q = some y ∧ t.die = s.die ∧
      y.wptr = v % 2 ^ 32 ∧ y.rptr = x.rptr ∧ y.levels = x.levels ∧
      (x.state = .idle ∨ x.state = .waiting → (s.part x.part).state ≠ .resetting → y.busy = true → y.state = .running) ∧
      ((x.state ≠ .idle ∧ x.state ≠ .waiting) ∨ (s.part x.part).state = .resetting ∨ y.busy = false → y.state = x.state))) ∧
  ∀ (s : State) (a n : Nat) (data : Option Nat),
    let pa := s.host.aperture * 2 ^ 36 + a
    let replies (t : State) (l : List Nat) : State := { t with host := { t.host with replies := t.host.replies ++ [l] } }
    (0x60_0000_0000 < pa + n → exec (.hostAccess a n data) s = .next (replies (s.logFault 4 0x0A none 0x7FF 0 0 pa) [2])) ∧
    (pa + n ≤ 0x60_0000_0000 → s.die.poisonIn pa n = none →
      (exec (.hostAccess a n none) s = .next (replies (s.dieRead pa n).2 [0, s.peek pa n])) ∧
      ∀ v, ∃ t, exec (.hostAccess a n (some v)) s = .next t ∧ MemTakes s t pa n v ∧ t.host = s.host) ∧
    (pa + n ≤ 0x60_0000_0000 → ∀ v t w ws, s.dieWrite (dieBytes pa (natBytes n v)) = (t, w :: ws) →
      exec (.hostAccess a n (some v)) s = .next (replies (t.logFault 4 0x13 none 0x7FF 0 0 pa) [3])) ∧
    (pa + n ≤ 0x60_0000_0000 → (s.die.poisonIn pa n).isSome = true →
      exec (.hostAccess a n none) s = .next (replies ((s.dieRead pa n).2.logFault 4 0x12 none 0x7FF 0 0 pa) [1, s.peek pa n]))

/-- The packet LAUNCH (R410, R412, R413, R424): at the first time it enters its launch in the table with its parts; a single record
that may be handed over is counted and is ready or waits in its partition, records that form a gang are submitted, and a record that
may not be handed over rejects every part; every record is read once, at its home slices; a record address that cannot be used stops the queue; a drain holds the queue; the packet
completes when what it waits for has come.
(It rests on choices of the model: notes/assumptions/80, 124.) -/
def Obligations.LaunchPacket : Prop :=
  ∀ (s : State) (q : Nat) (x : Queue) (p : Packet), NextPacket s q x p → p.kind = 0x01 →
    let recs := (List.range (p.arg % 16 + 1)).map fun i => p.word (2 + i)
    let id := s.host.launchNext
    let gang : Bool := 1 < recs.length || p.word 1 ≠ 0
    let st := (s.part x.part).state
    (st = .draining ∨ st = .drained → (∀ k, x.progress ≠ .launch k) →
      exec (.launch q) s = .next (s.setQueue q { x with state := .held, began := none })) ∧
    (∀ k, x.progress = .launch k →
      let ended := ∀ l, s.host.launches.find? (fun l => l.ident = k) = some l →
        l.ended = true ∨ (l.wait = false ∧ ∀ y ∈ l.parts, y.handed = true ∨ y.outcome.isSome = true)
      (¬ ended → exec (.launch q) s = .next s) ∧
      (ended → exec (.launch q) s = .next ({ s with host := { s.host with
        launches := s.host.launches.filter fun l => !(l.ident = k && l.ended) } }.finishPacket q x p))) ∧
    (st ≠ .draining → st ≠ .drained → (∀ k, x.progress ≠ .launch k) → ∀ c, recs.findSome? (fun r => s.recordFault x.part r) = some c →
      exec (.launch q) s = .next (s.packetFault q x p.pos c)) ∧
    (st ≠ .draining → st ≠ .drained → (∀ k, x.progress ≠ .launch k) → recs.findSome? (fun r => s.recordFault x.part r) = none →
      let l : Launch1 := { ident := id, queue := q, packet := x.addrWord p.pos, part := x.part, report := p.word 0, wait := bit p.arg 4, gang, parts := recs.map fun r => { record := r, handed := false, outcome := none } }
      let s1 := s.setHost { s.host with launchNext := id + 1, launches := s.host.launches ++ [l] }
      let s2 := (recs.foldl (fun s va => s.visit x.part va 32) s1).setQueue q { x with progress := .launch id }
      let read (va : Nat) := s.readRecord x.part va
      let refused (va : Nat) := s2.recordRefused x.part va gang (read va)
      let s3 := s2.setPstat x.part { s2.pstat x.part with launches := (s2.pstat x.part).launches + 1 }
      (∀ c, recs.findSome? refused = some c →
        exec (.launch q) s = .next (recs.foldl (fun s r => s.launchEnd (some id) r 3 c 0) s3)) ∧
      (recs.findSome? refused = none → gang = true →
        let fabric : Option Fabric := if p.word 1 = 0 then none
          else some { ident := bits (p.word 1) 47 0, modules := bits (p.word 1) 63 54 + 1, ready := [], told := none, failed := none }
        exec (.launch q) s = .next { s2 with die := { s2.die with gangs := s2.die.gangs ++ [{ queue := q, launch := id, sent := none, start := none, fabric, parts := recs.map fun r => { part := x.part, record := r, ready := (read r).map fun y => s2.readyOf x.part r y none (some id), cluster := 0, core := none, phase := .idle, kept := none } }] } }) ∧
      (∀ va r, recs = [va] → gang = false → refused va = none → read va = some r →
        exec (.launch q) s = .next ((s3.handOver x.part va r none none (some id) none none).markHanded id 0)))

/-- HEARTBEAT, MITTEN_TAKEOVER, MITTENBEAT, CROWN_RETURN and MIRROR_UPDATE (R418 to R420, R427): each agent's count rises by one
where a beat is due; the Mitten takes over where the Crown has not beaten for 2 ms, every window gone; the Crown that returns runs,
and the queues the Mitten held go on; an update of the mirror leaves SEQ two higher with the header, the beats, NLOG and the fault
log in place, and writes the mirror alone. Where that is not so nothing happens.
(It rests on choices of the model: notes/assumptions/7, 37, 76.) -/
def Obligations.CrownEvents : Prop :=
  ∀ (s : State),
    let h := s.host
    let due := h.lastBeat + 900000 ≤ s.now
    let serves := h.crown = 1 ∧ h.mitten = false
    let noWindow (t : State) := ∀ p ∈ t.host.queues, p.2.windows = [] ∧ ∀ l ∈ p.2.levels, l.window = none
    (serves → due → ∃ t, exec .heartbeat s = .next t ∧ t.host.heartbeat = (h.heartbeat + 1) % 2 ^ 64 ∧ t.host.lastBeat = s.now ∧
      t.die = s.die ∧ t.cores = s.cores ∧ (bit h.mirrorBase 0 = true →
        t.host.mem.load (h.mirrorBase / 4096 * 4096 + 0x010) 8 = natBytes 8 ((h.heartbeat + 1) % 2 ^ 64))) ∧
    (¬ serves ∨ ¬ due → exec .heartbeat s = .next s) ∧
    (h.mitten = true → due → ∃ t, exec .mittenbeat s = .next t ∧ t.host.mittenbeat = (h.mittenbeat + 1) % 2 ^ 64 ∧
      t.host.lastBeat = s.now ∧ t.die = s.die ∧ t.cores = s.cores ∧ (bit h.mirrorBase 0 = true →
        t.host.mem.load (h.mirrorBase / 4096 * 4096 + 0x018) 8 = natBytes 8 ((h.mittenbeat + 1) % 2 ^ 64))) ∧
    (h.mitten = false ∨ ¬ due → exec .mittenbeat s = .next s) ∧
    (serves → h.lastBeat + 2000000 ≤ s.now → ∃ t, exec .mittenTakeover s = .next t ∧ t.host.mitten = true ∧ t.host.lastBeat = s.now ∧
      noWindow t ∧ t.die = s.die ∧ t.cores = s.cores ∧ t.retr = s.retr) ∧
    (¬ serves ∨ s.now < h.lastBeat + 2000000 → exec .mittenTakeover s = .next s) ∧
    (let gone := h.crown = 2 ∨ (h.crown = 1 ∧ h.mitten = true) ∨ (h.crown = 0 ∧ h.ladder = 3)
     (gone → ∃ t, exec .crownReturn s = .next t ∧ t.host.crown = 1 ∧ t.host.mitten = false ∧ t.host.bootStage = 0xFF ∧
       t.host.lastBeat = s.now ∧ noWindow t ∧ (∀ p ∈ t.host.queues, p.2.state ≠ .mitten) ∧ t.die = s.die ∧ t.cores = s.cores) ∧
     (¬ gone → exec .crownReturn s = .next s)) ∧
    (bit h.mirrorBase 0 = true → serves → ∃ t, exec .mirrorUpdate s = .next t ∧ t.host.mirrorSeq = (h.mirrorSeq + 2) % 2 ^ 64 ∧
      t.die = s.die ∧ t.cores = s.cores ∧
      (let b := h.mirrorBase / 4096 * 4096
       t.host.mem.load b 4 = natBytes 4 0x524D3743 ∧ t.host.mem.load (b + 8) 8 = natBytes 8 ((h.mirrorSeq + 2) % 2 ^ 64) ∧
       (∀ p < 8, t.host.mem.load (b + 0x200 + 64 * p) 1 = natBytes 1 (s.part p).state.code) ∧
       (∀ q < 1024, t.host.mem.load (b + 0x1000 + 16 * q) 16 = s.mirrorQueue q) ∧
       t.host.mem.load (b + 0x010) 16 = natBytes 8 h.heartbeat ++ natBytes 8 h.mittenbeat ∧
       t.host.mem.load (b + 0x5000) 64 = natBytes 8 h.nlog ++ natBytes 56 0 ∧
       (∀ a < b, t.host.mem.read a = h.mem.read a) ∧
       ((∀ e ∈ h.log, e.1 < 254 ∧ e.2.length = 32) → (h.log.map (·.1)).Nodup →
         (∀ e ∈ h.log, t.host.mem.load (b + 0x5040 + 32 * e.1) 32 = e.2) ∧
         ∀ a, b + 0x7000 ≤ a → t.host.mem.read a = h.mem.read a))) ∧
    (bit h.mirrorBase 0 = false ∨ ¬ serves → exec .mirrorUpdate s = .next s)

namespace Sys2Proof.Claims

/-- The controllers' copies of nodes and headers stand in LPDDR-6 again, from what flash keeps of the indexes that are not being
destroyed, and no other byte of it changes (R373, R374, R439). -/
def CopiesRemade (s t : State) : Prop :=
  let copies := s.retr.persist.indexes.flatMap fun p => p.2.areaBytes
  (copies.Pairwise (fun c d => c.1 + c.2.length ≤ d.1 ∨ d.1 + d.2.length ≤ c.1) → ∀ c ∈ copies,
    c.1 + c.2.length ≤ 0x60_0000_0000 → s.die.poisonIn c.1 c.2.length = none → t.die.mem.load c.1 c.2.length = c.2) ∧
  ∀ a, (∀ c ∈ copies, a < c.1 ∨ c.1 + c.2.length ≤ a) → t.die.mem.read a = s.die.mem.read a

end Sys2Proof.Claims

/-- GAUNTLET_EXPIRY, RESET_TIMEOUT, PARTITION_DRAINED, FUNCTION_LEVEL_RESET, PERST, POWER_GOOD, THROTTLE and POWER_LOSS, with
COOLANT_FLOW_FAILS and HW_ERROR (R380, R421 to R425, R429, R437, R439): a queue whose packet outlives its Gauntlet puts its
partition in reset; one that takes 10 ms fails; a draining partition with nothing left is drained; what each reset of the ladder
clears and keeps; what starts the Crown, with the controllers' copies made again in LPDDR-6; how the die's temperature slows the clock or resets the module.
(It rests on choices of the model: notes/assumptions/62, 64, 65, 66, 67, 74, 123.) -/
def Obligations.ResetEvents : Prop :=
  (∀ (s : State) (q : Nat),
    (1024 ≤ q → exec (.gauntletExpiry q) s = .refused .noSuchPlace) ∧
    (q < 1024 → s.queueOf q = none → exec (.gauntletExpiry q) s = .next s) ∧
    (∀ x, q < 1024 → s.queueOf q = some x →
      let late := (x.state = .running ∨ x.state = .waiting ∨ x.state = .mitten) ∧ x.gauntlet ≠ 0 ∧
        ∃ t, x.began = some t ∧ t + 1000 * x.gauntlet ≤ s.now
      (late → (s.part x.part).state.resettable = true → x.part < 8 → ∃ t, exec (.gauntletExpiry q) s = .next t ∧
        (t.part x.part).state = .resetting ∧ (t.pstat x.part).resetAt = some s.now) ∧
      (¬ late → exec (.gauntletExpiry q) s = .next s))) ∧
  (∀ (s : State) (p : Nat),
    let st := (s.part p).state
    let late := st = .resetting ∧ ∃ t, (s.pstat p).resetAt = some t ∧ t + 10000000 ≤ s.now
    (8 ≤ p → exec (.resetTimeout p) s = .refused .noSuchPlace ∧ exec (.partitionDrained p) s = .refused .noSuchPlace) ∧
    (p < 8 → late → ∃ t, exec (.resetTimeout p) s = .next t ∧ (t.part p).state = .failed ∧ (t.pstat p).tbase = s.now ∧
      t.cores = s.cores ∧ ∀ r < 8, r ≠ p → t.part r = s.part r) ∧
    (p < 8 → ¬ late → exec (.resetTimeout p) s = .next s) ∧
    (p < 8 → s.isDrained p = true → ∃ t, exec (.partitionDrained p) s = .next t ∧ (t.part p).state = .drained ∧
      (t.pstat p).tbase = s.now ∧ t.cores = s.cores ∧ ∀ r < 8, r ≠ p → t.part r = s.part r) ∧
    (p < 8 → s.isDrained p = false → exec (.partitionDrained p) s = .next s)) ∧
  ∀ (s : State),
    let h := s.host
    let idle := (∀ q ∈ h.queues, q.2.working = false) ∨ bit h.mirrorBase 0 = false
    let cleared (t : State) (ladder : Nat) := t.cores = State.reset.cores ∧ t.die = State.reset.die ∧ (idle → t.host.mem = h.mem) ∧
      t.host.msix = h.msix ∧ t.host.fuses = h.fuses ∧ t.host.stored = h.stored ∧ t.host.images = h.images ∧ t.host.queues = [] ∧ t.host.crown = 0 ∧
      t.host.ladder = ladder ∧ t.host.nlog = 0 ∧ t.retr.cmds = []
    (∃ t, exec .functionLevelReset s = .next t ∧ t.cores = State.reset.cores ∧ t.die.mem = s.die.mem ∧ (idle → t.host.mem = h.mem) ∧
      t.host.queues = [] ∧ t.host.windows = [] ∧ t.host.mirrorBase = 0 ∧ t.host.mgmtBase = 0 ∧ t.host.crown = 0 ∧ t.host.ladder = 3 ∧
      t.retr.cmds = [] ∧ (∀ p < 8, (t.part p).state = .unconfigured) ∧ t.retr.indexes.map (·.1) = s.retr.indexes.map (·.1)) ∧
    (∃ t, exec .perst s = .next t ∧ cleared t 4) ∧
    (∃ t, exec .powerLoss s = .next t ∧ cleared t 0) ∧
    (∃ t, exec .coolantFlowFails s = .next t ∧ t.cores = State.reset.cores ∧ t.die = State.reset.die ∧ t.host.ladder = 4 ∧
      t.host.crown = 0 ∧ t.retr.cmds = []) ∧
    (h.crown = 0 → h.ladder ≠ 3 → ∃ t, exec .powerGood s = .next t ∧ t.host.crown = 1 ∧ t.host.mitten = false ∧ t.host.bootStage = 0xFF ∧
      t.host.lastBeat = s.now ∧ t.cores = s.cores ∧ CopiesRemade s t ∧
      ∀ l < 16, vget Link.reset t.host.links l = (let k := vget Link.reset h.links l
        if k.state = .down then { k with state := .training } else k)) ∧
    (h.crown ≠ 0 ∨ h.ladder = 3 → exec .powerGood s = .next s) ∧
    (∀ c : Int, c < 105 →
      exec (.throttle c) s = .next { s with host := { h with tempDie := 8 * c, throttle := min 7 ((c - 95).toNat / 2) } }) ∧
    (∀ c : Int, 105 ≤ c → ∃ t, exec (.throttle c) s = .next t ∧ t.cores = State.reset.cores ∧ t.die = State.reset.die ∧ t.host.ladder = 4) ∧
    ∀ scope < 5, ∀ ident, exec (.hwError scope ident) s = .next (s.logFault scope 0x55 none 0x7FF 0 ident 0)

namespace Sys2Proof.Claims

/-- A management command posts its entry with a status and result words, having left `u` (R431). -/
def Posts (i : Instr) (s : State) (status : Nat) (results : List (Nat × Nat)) (u : State) : Prop :=
  exec i s = .next (MgmtRes.post { status, results, state := u })

/-- A management command that is turned away posts its status and does nothing else. -/
def TurnedAway (i : Instr) (s : State) (status : Nat) : Prop := Posts i s status [] s

/-- The statuses of R431. -/
def mOk : Nat := 1
def mArgument : Nat := 2
def mState : Nat := 3
def mSpace : Nat := 4
def mAuth : Nat := 5
def mMedia : Nat := 6

end Sys2Proof.Claims

/-- The management commands of partitions, regions, queues and windows, and how an entry is posted (R351, R406, R409, R424, R431):
what each does where its operands and the state allow it, and the status with which it is turned away else.
(It rests on choices of the model: notes/assumptions/62, 70, 79, 128.) -/
def Obligations.PartitionCommands : Prop :=
  (∀ (s : State) (p : Mgmt),
    let x := s.part p.w1
    let plain := p.w1 < 8 ∧ zeroFrom p 3 = true
    let becomes (i : Instr) (st : PartState) : Prop := ∃ u, Posts i s mOk [] u ∧ (u.part p.w1).state = st ∧ (u.pstat p.w1).tbase = s.now ∧
      ∀ r < 8, r ≠ p.w1 → u.part r = s.part r
    -- PARTSET
    (∀ d, plain → descriptorOf (s.host.mem.load p.w2 128) = some d →
      (∀ q < 8, q ≠ p.w1 → (s.part q).clusters &&& d.clusters = 0) →
      (x.state = .unconfigured → ∃ u, Posts (.partset p) s mOk [] u ∧ u.part p.w1 = { d with state := .active } ∧ (u.pstat p.w1).tbase = s.now) ∧
      (x.state = .drained → ∃ u, Posts (.partset p) s mOk [] u ∧ u.part p.w1 = { d with state := .drained })) ∧
    (plain → x.state ≠ .unconfigured → x.state ≠ .drained → TurnedAway (.partset p) s mState) ∧
    (plain → x.state = .unconfigured ∨ x.state = .drained → descriptorOf (s.host.mem.load p.w2 128) = none →
      TurnedAway (.partset p) s mArgument) ∧
    (∀ i ∈ [Instr.partset p, .partcmdDrain p, .partcmdResume p, .partcmdReset p, .partcmdRelease p], ¬ plain → TurnedAway i s mArgument) ∧
    -- PARTCMD
    (plain → x.state = .active → becomes (.partcmdDrain p) .draining ∧ TurnedAway (.partcmdResume p) s mOk) ∧
    (plain → x.state = .draining ∨ x.state = .drained → TurnedAway (.partcmdDrain p) s mOk ∧ becomes (.partcmdResume p) .active) ∧
    (plain → x.state.resettable = true → Posts (.partcmdReset p) s mOk [] (s.beginReset p.w1 []) ∧
      ((s.beginReset p.w1 []).part p.w1).state = .resetting) ∧
    (plain → x.state.resettable = false →
      ∀ i ∈ [Instr.partcmdDrain p, .partcmdResume p, .partcmdReset p, .partcmdRelease p], TurnedAway i s mState) ∧
    (plain → x.state = .drained → becomes (.partcmdRelease p) .unconfigured) ∧
    (plain → x.state = .active ∨ x.state = .draining → TurnedAway (.partcmdRelease p) s mState) ∧
    -- RGNROOT
    (let fits := p.w1 < 8 ∧ zeroFrom p 4 = true ∧ p.w2 < 2 ^ 48 ∧ p.w2 % 256 = 0
     let serves := x.state = .active ∨ x.state = .draining ∨ x.state = .drained
     (¬ fits → TurnedAway (.rgnroot p) s mArgument) ∧ (fits → ¬ serves → TurnedAway (.rgnroot p) s mState) ∧
     (fits → serves → s.vaLook p.w1 p.w2 .write = none → TurnedAway (.rgnroot p) s mArgument) ∧
     (∀ pa, fits → serves → s.vaLook p.w1 p.w2 .write = some pa →
       let v := (s.walked p.w1 p.w2 .write).noteRead pa 256
       let entry := ((List.range (min (s.part p.w1).rgncnt 0xFFFF)).find? fun i => !s.rgnLive p.w1 i).map fun i =>
         (s.part p.w1).rgntab + 8 * i
       let suits := (∀ f ∈ rcbSoftware, rcbRange f (s.peek (pa + f.1) f.2) = true) ∧ ∀ e, entry = some e → e + 8 ≤ 0x60_0000_0000
       (¬ suits → Posts (.rgnroot p) s mArgument [] v) ∧
       (suits → (∀ i u, v.regionNew p.w1 p.w2 0xFFFF = (some i, u) → Posts (.rgnroot p) s mOk [(3, i)] u) ∧
         ∀ u, v.regionNew p.w1 p.w2 0xFFFF = (none, u) → Posts (.rgnroot p) s mSpace [] v)))) ∧
  (∀ (s : State) (p : Mgmt),
    let hostOk (i : Instr) (h : Host1) : Prop := Posts i s mOk [] { s with host := h }
    -- QCREATE, QDESTROY, QSTART, QABORT
    (let fits := p.w1 < 1024 ∧ p.w2 < 8 ∧ wordAligned p.w3 4096 = true ∧ (∃ k, 12 ≤ k ∧ k ≤ 24 ∧ p.w4 = 2 ^ k) ∧ p.w5 < 2 ^ 32 ∧
       p.w6 < 2 ∧ p.w7 = 0
     (fits → s.queueOf p.w1 = none → ∃ u y, Posts (.qcreate p) s mOk [] u ∧ u.queueOf p.w1 = some y ∧ y.part = p.w2 ∧
       y.base = bits p.w3 47 0 ∧ y.host = bit p.w3 63 ∧ y.size = p.w4 ∧ y.gauntlet = p.w5 ∧ y.mapped = decide (p.w6 = 1) ∧ y.state = .idle ∧
       y.rptr = 0 ∧ y.wptr = 0) ∧
     (fits → (s.queueOf p.w1).isSome = true → TurnedAway (.qcreate p) s mState) ∧
     (1024 ≤ p.w1 ∨ 8 ≤ p.w2 ∨ p.w7 ≠ 0 → TurnedAway (.qcreate p) s mArgument)) ∧
    (∀ i ∈ [Instr.qdestroy p, .qstart p, .qabort p], 1024 ≤ p.w1 → TurnedAway i s mArgument) ∧
    (zeroFrom p 2 = false → TurnedAway (.qdestroy p) s mArgument ∧ TurnedAway (.qabort p) s mArgument) ∧
    (p.w1 < 1024 → s.queueOf p.w1 = none → (zeroFrom p 3 = true → TurnedAway (.qstart p) s mState) ∧
      (zeroFrom p 2 = true → TurnedAway (.qdestroy p) s mState ∧ TurnedAway (.qabort p) s mState)) ∧
    (∀ x, p.w1 < 1024 → s.queueOf p.w1 = some x →
      (zeroFrom p 2 = true → x.working = true → TurnedAway (.qdestroy p) s mState) ∧
      (zeroFrom p 2 = true → x.working = false → ∃ u, Posts (.qdestroy p) s mOk [] u ∧ u.queueOf p.w1 = none ∧ ∀ q, q ≠ p.w1 → u.queueOf q = s.queueOf q) ∧
      (let keep := p.w2 = 0xFFFF_FFFF_FFFF_FFFF
       let stopped := (x.state = .stopped ∨ x.state = .faulted) ∧ (s.part x.part).state ≠ .resetting
       (zeroFrom p 3 = true → keep ∨ (p.w2 < 2 ^ 32 ∧ p.w2 % 8 = 0) → stopped → ∃ u y, Posts (.qstart p) s mOk [] u ∧
         u.queueOf p.w1 = some y ∧ y.rptr = (if keep then x.rptr else p.w2) ∧ y.windows = [] ∧ y.progress = .none ∧
         y.state = (if y.busy then .running else .idle)) ∧
       (zeroFrom p 3 = true → keep ∨ (p.w2 < 2 ^ 32 ∧ p.w2 % 8 = 0) → ¬ stopped → TurnedAway (.qstart p) s mState)) ∧
      (zeroFrom p 2 = true → Posts (.qabort p) s mOk [] (s.abandonQueue p.w1 x 0x52 false) ∧
        ∃ y, (s.abandonQueue p.w1 x 0x52 false).queueOf p.w1 = some y ∧ y.state = .stopped ∧ y.progress = .none)) ∧
    -- WINSET, WINCLR
    (let fits := p.w1 < 1024 ∧ p.w2 < 8 ∧ p.w3 % 4096 = 0 ∧ p.w4 % 4096 = 0 ∧ 4096 ≤ p.w4 ∧ p.w4 ≤ 2 ^ 30 ∧ p.w5 % 8 = 0 ∧
       (p.w5 + 8 ≤ p.w3 ∨ p.w3 + p.w4 ≤ p.w5) ∧ zeroFrom p 6 = true
     let win : Window := { part := p.w2, base := p.w3, len := p.w4, verAddr := p.w5, version := s.hostNat p.w5 8 }
     (fits → hostOk (.winset p) { s.host with windows := tset s.host.windows p.w1 win }) ∧
     (¬ fits → TurnedAway (.winset p) s mArgument)) ∧
    (let fits := p.w1 < 1024 ∧ zeroFrom p 2 = true
     let there := (∃ x ∈ s.host.windows, x.1 = p.w1) ∧ s.publishing p.w1 = false
     (fits → there → s.winBusy p.w1 = true → exec (.winclr p) s = .next s) ∧
     (fits → there → s.winBusy p.w1 = false → hostOk (.winclr p) { s.host with windows := s.host.windows.filter fun x => x.1 ≠ p.w1 }) ∧
     (fits → ¬ there → TurnedAway (.winclr p) s mState) ∧ (¬ fits → TurnedAway (.winclr p) s mArgument))) ∧
  -- how an entry is posted
  ∀ (s : State) (status : Nat) (results : List (Nat × Nat)),
    let t := MgmtRes.post { status, results, state := s }
    let h := s.host
    (h.mgmtAccepted = h.mgmtDone → t = s) ∧
    (h.mgmtAccepted ≠ h.mgmtDone → t.host.mgmtDone = (h.mgmtDone + 1) % 2 ^ 64 ∧ t.host.msix = h.msix ++ [1024] ∧ t.die = s.die ∧
      t.cores = s.cores ∧ t.host.mem.read (h.mgmtBase + 64 * (h.mgmtDone % 64) + 1) = BitVec.ofNat 8 status)

/-- The management commands of indexes, objects, firmware and keys (R365, R367, R381, R386, R391, R431, R437, R438): what each
does, the generation or report it answers, and the status with which it is turned away else.
(It rests on choices of the model: notes/assumptions/68, 70, 105, 116.) -/
def Obligations.IndexCommands : Prop :=
  ∀ (s : State) (p : Mgmt),
    let h := p.w1
    let idxOk (i : Instr) (y : Index) (rs : List (Nat × Nat)) : Prop := ∃ u, Posts i s mOk rs u ∧ u.idx h = some y ∧ u.die = s.die ∧
      u.host = s.host ∧ ∀ k, k ≠ h → u.idx k = s.idx k
    -- IDXCREATE
    (let y := mgmtIndex p
     let fits := h < 1024 ∧ y.valid = true ∧ bits p.w3 31 8 = 0 ∧ bit p.w7 63 = false
     (¬ fits → TurnedAway (.idxcreate p) s mArgument) ∧
     (fits → (s.idx h).isSome = true → TurnedAway (.idxcreate p) s mState) ∧
     (fits → s.idx h = none → s.flashPages < s.flashTaken h + y.logPages + y.budget → TurnedAway (.idxcreate p) s mSpace) ∧
     (fits → s.idx h = none → s.flashTaken h + y.logPages + y.budget ≤ s.flashPages → idxOk (.idxcreate p) y [] ∧ y.gen = 0 ∧ y.log = [])) ∧
    -- IDXRESIZE, IDXCLEAR, OBJWRITE, OBJDROP
    (∀ ok, ∀ row ∈ [(Instr.idxresize p, 4), (.idxclear p, 2), (.objwrite ⟨p, ok⟩, 5), (.objdrop p, 5)],
      (1024 ≤ h ∨ zeroFrom p row.2 = false → TurnedAway row.1 s mArgument) ∧
      (h < 1024 → zeroFrom p row.2 = true → s.idx h = none → TurnedAway row.1 s mState)) ∧
    (∀ x, h < 1024 → s.idx h = some x →
      (zeroFrom p 4 = true → s.flashTaken h + p.w2 + p.w3 ≤ s.flashPages → idxOk (.idxresize p) { x with resize := some (p.w2, p.w3) } []) ∧
      (zeroFrom p 4 = true → s.flashPages < s.flashTaken h + p.w2 + p.w3 → TurnedAway (.idxresize p) s mSpace) ∧
      (zeroFrom p 2 = true → ∃ y, idxOk (.idxclear p) y [] ∧ y = { x with counters := y.counters } ∧ ∀ k < 13, vget 0 y.counters k = 0) ∧
      (zeroFrom p 5 = true → p.w3 < 65536 → p.w2 ≠ 0xFFFF_FFFF_FFFF_FFFF →
        (∃ fs, idxOk (.objwrite ⟨p, true⟩) { x with gen := x.gen + 1, objects := x.objects ++
            [{ id := p.w2, block := p.w3, gen := x.gen + 1, contents := some (s.host.mem.load p.w4 65536), fpns := fs }] } [(4, x.gen + 1)] ∧
          ∀ f ∈ fs, ∀ j z, s.idx j = some z → f ∉ z.fpns) ∧
        TurnedAway (.objwrite ⟨p, false⟩) s mMedia ∧
        idxOk (.objdrop p) { x with gen := x.gen + 1, objects := x.objects ++
          [{ id := p.w2, block := p.w3, gen := x.gen + 1, contents := none, fpns := [] }] } [(4, x.gen + 1)]) ∧
      (zeroFrom p 5 = true → 65536 ≤ p.w3 ∨ p.w2 = 0xFFFF_FFFF_FFFF_FFFF →
        (∀ ok, TurnedAway (.objwrite ⟨p, ok⟩) s mArgument) ∧ TurnedAway (.objdrop p) s mArgument)) ∧
    -- IDXDESTROY
    (let busy := ∃ c ∈ s.retr.cmds, c.accepted = true ∧ c.handle = h
     (1024 ≤ h ∨ zeroFrom p 2 = false → TurnedAway (.idxdestroy p) s mArgument) ∧
     (h < 1024 → zeroFrom p 2 = true → s.idx h = none → TurnedAway (.idxdestroy p) s mState) ∧
     (∀ x, h < 1024 → zeroFrom p 2 = true → s.idx h = some x →
       (busy → ∃ u, exec (.idxdestroy p) s = .next u ∧ u.idx h = some { x with dying := true } ∧ u.host = s.host) ∧
       (¬ busy → ∃ u, Posts (.idxdestroy p) s mOk [] u ∧ u.idx h = none ∧ ∀ k, k ≠ h → u.idx k = s.idx k))) ∧
    -- ATTEST, FWLOAD, KEYREVOKE
    (let f := s.host.fuses
     let image := s.host.mem.load p.w1 p.w2
     let agent := Config.imageAgent image
     let accepted := f.minSvn ≤ Config.imageVersion image ∧ ∃ i < 4, vget [] f.keys i ≠ [] ∧ f.revoked.getLsbD i = false ∧
       Config.imageSigned (vget [] f.keys i) image = true
     let may := ∃ i < 4, i ≠ p.w1 ∧ vget [] f.keys i ≠ [] ∧ f.revoked.getLsbD i = false ∧
       Config.requestSigned (vget [] f.keys i) p.w1 (s.host.mem.load p.w2 8192) = true
     (zeroFrom p 3 = true → ∃ u r sig, Posts (.attest p) s mOk [] u ∧ u.die = s.die ∧
       u.host.mem = s.host.mem.store p.w2 (r ++ sig ++ Config.certificate) ∧ r.take 32 = s.host.mem.load p.w1 32 ∧ sig.length = 7856) ∧
     (∀ ok, ∀ i ∈ [Instr.attest p, .fwload ⟨p, ok⟩, .keyrevoke p], zeroFrom p 3 = false → TurnedAway i s mArgument) ∧
     (zeroFrom p 3 = true → accepted → TurnedAway (.fwload ⟨p, false⟩) s mMedia) ∧
     (zeroFrom p 3 = true → accepted → Posts (.fwload ⟨p, true⟩) s mOk [] { s with host := { s.host with
       stored := { agent, svn := Config.imageVersion image, bytes := image } :: s.host.stored.filter fun y => y.agent ≠ agent } }) ∧
     (zeroFrom p 3 = true → ¬ accepted → ∀ ok, TurnedAway (.fwload ⟨p, ok⟩) s mAuth) ∧
     (zeroFrom p 3 = true → 4 ≤ p.w1 → TurnedAway (.keyrevoke p) s mArgument) ∧
     (zeroFrom p 3 = true → p.w1 < 4 → may → Posts (.keyrevoke p) s mOk [] { s with host := { s.host with
       fuses := { f with revoked := f.revoked ||| BitVec.twoPow 4 p.w1 } } }) ∧
     (zeroFrom p 3 = true → p.w1 < 4 → ¬ may → TurnedAway (.keyrevoke p) s mAuth))

/-- LSGO, LSGO_LOAD, RUN_ENTRY and LINK_EVENT (R413, R433 to R436): a store to LSGO starts the schedule of a block that keeps the
rules, its entries read at the start, stops at once with RECORD-INVALID in DONE at one that does not, and is refused while a schedule
runs; one to an address that starts none leaves the register as it is; a load answers BUSY, REFUSED and the partition, and clears
REFUSED; the next entry, at its time and on a link that is up, sends, receives or accumulates, DONE
counting it, and an error stops the schedule with its cause; a link changes as it is told. A link above 15 refuses.
(It rests on choices of the model: notes/assumptions/60, 101.) -/
def Obligations.LinkSchedules : Prop :=
  (∀ (s : State) (part pa : Nat),
    let h := s.host
    let n := s.peek (pa + 8) 8
    (8 ≤ part → exec (.lsgo part pa) s = .refused .noSuchPlace) ∧
    (part < 8 → h.sched.isSome = true → exec (.lsgo part pa) s = .next { s with host := { h with lsgoRefused := true } }) ∧
    (part < 8 → h.sched = none → 0x60_0000_0000 ≤ pa ∨ pa % 32 ≠ 0 →
      exec (.lsgo part pa) s = .next s) ∧
    (part < 8 → h.sched = none → pa < 0x60_0000_0000 → pa % 32 = 0 →
      (1 ≤ n → n ≤ 4096 → s.peek (pa + 24) 8 = 0 → pa + 32 + 32 * n ≤ 0x60_0000_0000 → ∃ t, exec (.lsgo part pa) s = .next t ∧
        (let sc : LinkSched := { pa, t0 := s.peek pa 8, n, next := 0, block := s.die.mem.load (pa + 32) (32 * n) }
         t.host = { h with lsgoRefused := false, lsgoPart := part, sched := some sc }) ∧
        t.die.mem = s.die.mem) ∧
      (1 ≤ n → n ≤ 4096 → s.peek (pa + 24) 8 = 0 → 0x60_0000_0000 < pa + 32 + 32 * n → s.die.poisonIn (pa + 16) 8 = none →
        ∃ t, exec (.lsgo part pa) s = .next t ∧ t.host.sched = none ∧ MemTakes s t (pa + 16) 8 (2 ^ 63 + 0x0A * 2 ^ 40)) ∧
      (n < 1 ∨ 4096 < n ∨ s.peek (pa + 24) 8 ≠ 0 → s.die.poisonIn (pa + 16) 8 = none → ∃ t, exec (.lsgo part pa) s = .next t ∧
        t.host.sched = none ∧ MemTakes s t (pa + 16) 8 (2 ^ 63 + 0x18 * 2 ^ 40))) ∧
    exec .lsgoLoad s = .next { s with host := { h with lsgoRefused := false, replies := h.replies ++
      [[h.lsgoPart * 256 + (if h.lsgoRefused then 2 else 0) + (if h.sched.isSome then 1 else 0)]] } }) ∧
  (∀ (s : State) (l : Nat),
    (16 ≤ l → exec (.runEntry l) s = .refused .noSuchPlace) ∧
    (l < 16 → s.host.sched = none → exec (.runEntry l) s = .next s) ∧
    (∀ sc, l < 16 → s.host.sched = some sc →
      let e := LinkEntry.ofBytes ((sc.block.drop (32 * sc.next)).take 32)
      let k := s.linkOf l
      let due := e.link = l ∧ sc.t0 + e.t ≤ s.now
      let fine := e.ok = true ∧ e.inMemory = true ∧ k.state = .up
      let goesOn (t : State) : Prop := t.host.sched = if sc.next + 1 = sc.n then none else some { sc with next := sc.next + 1 }
      let fails (cause : Nat) : Prop := ∃ t, exec (.runEntry l) s = .next t ∧ t.host.sched = none ∧
        (s.die.poisonIn (sc.pa + 16) 8 = none → MemTakes s t (sc.pa + 16) 8 (2 ^ 63 + cause * 2 ^ 40 + sc.next))
      (¬ due → exec (.runEntry l) s = .next s) ∧
      (due → e.ok = false → fails 0x18) ∧
      (due → e.ok = true → e.inMemory = false → fails 0x0A) ∧
      (due → e.ok = true → e.inMemory = true → k.state = .training → exec (.runEntry l) s = .next s) ∧
      (due → e.ok = true → e.inMemory = true → k.state = .down ∨ k.state = .failed → fails 0x53) ∧
      (due → fine → e.op = 0 → ∃ t, exec (.runEntry l) s = .next t ∧ goesOn t ∧ (t.linkOf l).rx = k.rx ∧ (t.linkOf l).tx = k.tx ++
        [{ nfmt := e.nfmt, elems := unpackElems (fmtWidth e.nfmt) e.count (s.die.mem.load e.buf ((fmtWidth e.nfmt * e.count + 7) / 8)) }]) ∧
      (due → fine → e.op ≠ 0 → k.rx = [] → exec (.runEntry l) s = .next s) ∧
      (∀ m rest, due → fine → e.op ≠ 0 → k.rx = m :: rest → m.nfmt ≠ e.nfmt ∨ m.elems.length ≠ e.count → fails 0x53) ∧
      (∀ m rest, due → fine → e.op = 1 → k.rx = m :: rest → m.nfmt = e.nfmt → m.elems.length = e.count →
        ∃ t, exec (.runEntry l) s = .next t ∧ goesOn t ∧ (t.linkOf l).rx = rest ∧ (t.linkOf l).tx = k.tx) ∧
      (∀ m rest, due → fine → e.op = 2 → e.req = false → k.rx = m :: rest → m.nfmt = e.nfmt → m.elems.length = e.count →
        ∃ t, exec (.runEntry l) s = .next t ∧ goesOn t ∧ (t.linkOf l).rx = rest ∧ (t.linkOf l).tx = k.tx) ∧
      (∀ m rest, due → fine → e.op = 2 → e.req = true → k.rx = m :: rest → m.nfmt = e.nfmt → m.elems.length = e.count →
        ∃ t, exec (.runEntry l) s = .next t ∧ (goesOn t ∨ t.host.sched = none) ∧ (t.linkOf l).rx = rest ∧ (t.linkOf l).tx = k.tx))) ∧
  (∀ (s : State) (l peer nfmt : Nat) (elems : List Nat), l < 16 →
    let k := s.linkOf l
    let gives (e : LinkChange) (y : Link) : Prop := exec (.linkEvent l e) s =
      .next { s with host := { s.host with links := vset s.host.links l y } }
    gives (.train peer) { k with state := .training, peer } ∧ gives (.up peer) { k with state := .up, peer } ∧
    gives .retry { k with retries := (k.retries + 1) % 2 ^ 32 } ∧ gives .down { k with state := .down } ∧
    gives .fail { k with state := .failed } ∧ gives (.receive nfmt elems) { k with rx := k.rx ++ [{ nfmt, elems }] } ∧
    (∀ part desc n, exec (.linkEvent l (.accepted part desc n)) s = .next (s.proxyAccepted part desc n)) ∧
    ∀ ident,
      (∀ m, exec (.linkEvent l (.gangReady ident m)) s = .next (s.gangMessage ident fun f => { f with ready := m :: f.ready.filter (· ≠ m) })) ∧
      (∀ t, exec (.linkEvent l (.gangStart ident t)) s = .next (s.gangMessage ident fun f => { f with told := some t })) ∧
      ∀ r, exec (.linkEvent l (.gangFail ident r)) s = .next (s.gangMessage ident fun f => { f with failed := some r })) ∧
  (∀ (s : State) (l : Nat) (e : LinkChange), 16 ≤ l → exec (.linkEvent l e) s = .refused .noSuchPlace) ∧
  ∀ (s : State) (part desc n pa : Nat), s.proxyPlace part desc = some pa → s.die.poisonIn (pa + 0x28) 8 = none →
    let x := s.proxyOf part desc
    let k := min n x.sent.length
    let t := s.proxyAccepted part desc n
    MemTakes s t (pa + 0x28) 8 ((s.peek (pa + 0x28) 8 + k) % 2 ^ 64) ∧ (t.proxyOf x.part x.desc).sent = x.sent.drop k

namespace Sys2Proof.Claims

/-- No token bit. -/
def noTok : Tok := ⟨false, false, false, false⟩

/-- The fields of a word that holds none but these: an absent destination and absent sources, every other field zero. -/
def fields (len : Len) (tag : Tag) : Ins :=
  { len, tag, tok := noTok, pred := 0, lat := 0, dst := .absent, sa := .absent, sb := .absent, sc := .absent, fmt := 0, mod := 0, imm := 0 }

end Sys2Proof.Claims

/-- Words that the spec spells out byte by byte decode to the instructions it gives for them (02, 04, 06, 07, 09, 10, 11, 12, 14,
15, 16 and 18). -/
def Obligations.SpecWordsDecode : Prop :=
  let word (n v : Nat) (i : Instr) : Prop := decode (leBytes n v) = .ok i
  word 8 0x0040_0027_3000_1425 (.addi { fields .b8 .L with tok := ⟨false, false, false, true⟩, dst := .x 3, sa := .x 3, imm := 0x40 }) ∧
  word 4 0x04EE (.modex (fields .b4 .A)) ∧ word 4 0x04FE (.modei (fields .b4 .A)) ∧
  word 12 0xE004_000E_00FF_FFFF_0200_2603 (.loop { fields .b12 .A with imm := 0x0004_000E }) ∧
  word 12 0xE000_0005_00FF_FF59_0200_2483 (.bt { fields .b12 .A with sa := .b 1, imm := 5 }) ∧
  word 12 0xFFFF_FFFC_00FF_FF59_0200_2503 (.bf { fields .b12 .A with sa := .b 1, imm := 0xFFFF_FFFC }) ∧
  word 12 0x6000_0000_5D23_2221_4864_8183 (.vfma { fields .b12 .V with pred := 2, lat := 3, dst := .v 4, sa := .v 1, sb := .v 2, sc := .v 3, fmt := 0x1D, mod := 1 }) ∧
  word 12 0x4000_0000_0F32_4140_6560_C003 (.tmma { fields .b12 .M with lat := 11, dst := .z 2, sa := .p 0, sb := .p 1, sc := .z 2, fmt := 0x0F }) ∧
  word 12 0x6000_0007_00FF_FFFF_0200_2903 (.brk { fields .b12 .V with imm := 7 }) ∧
  word 12 0x4000_0000_00FF_3632_6460_C103 (.tfadd { fields .b12 .M with lat := 3, dst := .z 2, sa := .z 2, sb := .z 6 }) ∧
  word 12 0x6000_0000_1D8A_2612_0328_9B03 (.vscatadd { fields .b12 .V with pred := 4, lat := 9, sa := .x 2, sb := .v 6, sc := .cb 2, fmt := 0x1D }) ∧
  word 12 0x0000_0000_00FF_1415_02A1_0083 (.spawnj { fields .b12 .S with lat := 5, sa := .x 5, sb := .x 4 }) ∧
  word 12 0x6000_0000_14FF_2114_0222_9883 (.vst { fields .b12 .V with pred := 1, lat := 1, sa := .x 4, sb := .v 1, fmt := 0x14 }) ∧
  word 12 0x0000_0000_00FF_1312_32A1_2003 (.srch { fields .b12 .S with lat := 5, dst := .x 9, sa := .x 2, sb := .x 3 }) ∧
  word 12 0x0000_0000_00FF_1D1C_02A1_2183 (.kvf { fields .b12 .S with lat := 5, sa := .x 12, sb := .x 13 })

/-- Every well-formed instruction of code is stored in bytes of its length that decode to it, with every operand at every value its
encoding admits, whatever follows (R49, R52 to R63); whatever some bytes decode to is well-formed; the internal word of a decoded
instruction names its opcode. -/
def Obligations.EncodeDecodeRoundTrip : Prop :=
  (∀ (i : Instr) (opc : Nat) (w : Ins), i.code? = some (opc, w) → i.wellFormed = true →
    ∃ bs, encode i = some bs ∧ bs.length = w.len.bytes ∧ ∀ rest, decode (bs ++ rest) = .ok i) ∧
  ∀ (bs : List Byte) (i : Instr), decode bs = .ok i → i.wellFormed = true ∧ ∃ opc w, i.code? = some (opc, w) ∧ opcodeOf i.word = opc

/-- A step runs the decoded instruction (R11, R12, R48, R49, R64): when it is a core's step, in the turn of a stream that may pass
an instruction, and the bytes at the stream's address decode to an instruction of its own tag, to one tagged A or to an ERET, the
step is that instruction's meaning; another stream's is passed by; bytes that decode to none raise the decoder's cause. An event of
the agenda is its meaning. An instruction placed where the next step fetches it is what that step runs.
(It rests on choices of the model: notes/assumptions/7, 16.) -/
def Obligations.StepRunsDecoded : Prop :=
  (∀ (s : State) (rest : List Move) (n k : Nat) (bs : List Byte) (s1 : State), s.agenda = .core n :: rest → n < 128 → k < 5 →
    let s0 : State := { s with agenda := rest, focus := n }
    s0.ctx.moves = true → s0.ctx.unknownDevice = none → s0.here.turn = k + 1 → s0.ctx.holdsStream k = false →
    s0.fetch (s0.ctx.stream k).pc = (.bytes bs, s1) →
    (∀ i opc w, decode bs = .ok i → i.code? = some (opc, w) → (s1.ctx.stream k).straddles w.len.bytes = false →
      (w.tag = .A ∨ tagStream w.tag = k ∨ isEret bs = true → s1.ctx.awaits k = false ∨ guardOp i = true → step s = exec i s1) ∧
      (w.tag ≠ .A → tagStream w.tag ≠ k → isEret bs = false → step s = .next (s1.skipOver k w.len.bytes))) ∧
    (∀ r tag len, decodeHead bs = .ok (tag, len) → (s1.ctx.stream k).straddles len.bytes = false → tag = .A ∨ tagStream tag = k →
      decode bs = .error r → step s = .next (s1.raise k (rawWord len bs) { cause := r.cause } none))) ∧
  (∀ (s : State) (rest : List Move) (i : Instr), s.agenda = .event i :: rest → step s = exec i { s with agenda := rest }) ∧
  (∀ (s : State), s.agenda = [] → s.autoMove = none → step s = coreStep s.focus s) ∧
  (∀ (s : State) (o : Host.Outcome State Fault Refusal), s.agenda = [] → s.autoMove = some o → step s = o) ∧
  ∀ (s : State) (nbits w : Nat) (i : Instr), decodeTableWord nbits w = some i →
    step (s.withFetchWord nbits w) = exec i { s.withFetchWord nbits w with agenda := [], focus := 0 }

/-- What reset leaves in the model: by the spec (R14, R17, R149, R177, R351, R406, R409, R418, R429, R439) no partition is configured,
no queue, window or index is there, the Crown has not booted, no core holds a task, and every mask register but k0 is 0, which is all
ones; by the model's own choice every memory lists nothing (notes/assumptions/2), the mirror and the management ring are off
(notes/assumptions/3), and the token queues, events and flights of a context that holds no task are empty (notes/assumptions/1).
(It rests on choices of the model: notes/assumptions/1, 2, 3.) -/
def Obligations.ResetState : Prop :=
  let s := State.reset
  s.memWf = true ∧ s.die.mem = [] ∧ s.host.mem = [] ∧ s.agenda = [] ∧
  (∀ p < 8, (s.part p).state = .unconfigured) ∧ s.host.queues = [] ∧ s.host.windows = [] ∧ s.retr.indexes = [] ∧ s.retr.cmds = [] ∧
  s.host.crown = 0 ∧ s.host.mitten = false ∧ s.host.mirrorOn = false ∧ s.host.mgmtAccepted = 0 ∧ s.host.mgmtDone = 0 ∧
  ∀ n < 128, ∀ j < 2,
    let c := s.ctxAt n j
    c.task = none ∧ c.flights = [] ∧ c.faults = [] ∧ c.handler = false ∧ c.guards = [] ∧ c.outcomes = [] ∧
    (∀ q < 6, vget [1] (c.tokens.map fun l => l.map fun (t : Token) => t.id) q = []) ∧ (∀ e < 32, vget 1 c.events e = 0) ∧
    vget 0 c.k 0 = BitVec.allOnes 64 ∧ (∀ m, 1 ≤ m → m < 8 → vget 1 c.k m = 0)

/-- Every step keeps every memory in canonical form: LPDDR-6, the host's memory and every scratchpad list rising addresses, and no
byte that an unlisted address would read as; so equal memories are equal data in every state a run reaches. -/
def Obligations.StepKeepsMemories : Prop :=
  ∀ (s t : State), s.memWf = true → step s = .next t → t.memWf = true

/-- Nothing that could be executed is turned away (R9, R41): whatever an instruction of code finds, it answers a next state, and so
does every event or command that names places that exist; one that names a core, cluster, stream, queue, handle or link that is not
there is refused, and none else. A step faults only at an access to a device register that the spec does not describe (R335).
(It rests on choices of the model: notes/assumptions/27, 35.) -/
def Obligations.EveryInstructionAnswers : Prop :=
  (∀ (i : Instr) (s : State), (i.code?.isSome = true ∨ i.placed = true) → ∃ t, exec i s = .next t) ∧
  (∀ (i : Instr) (s : State), i.code? = none → i.placed = false → exec i s = .refused .noSuchPlace) ∧
  ∀ (s : State) (f : Fault), step s = .fault f → ∃ n pa, n < 128 ∧ (s.runCtx n).unknownDevice = some pa ∧ f = .deviceUnspecified pa

/-- The scalar instructions of one result, PCADD among them (R111 to R113, R116): each that may issue completes, whatever its operands,
with the result the tables give.
(It rests on choices of the model: notes/assumptions/25.) -/
def Obligations.ScalarAndPcaddResults : Prop :=
  -- The scalar instructions of R113 and the immediate forms of R116, but PCADD: each that may issue completes, whatever its
  -- operands, with the result the tables give.
  (∀ row ∈ scalarTable, ∀ (s : State) (w : Ins), s.mayIssue w = true →
     GivesResult (row.1 w) w s (row.2 w (s.opA w) (s.opB w) (s.opC w))) ∧
  -- PCADD (R116): the address of the PCADD plus 4·i, taken to 48 bits.
  (∀ (s : State) (w : Ins), s.mayIssue w = true →
     GivesResult (.pcadd w) w s
       (BitVec.ofInt 64 (((s.ctx.stream (s.streamOf w)).pc + 4 * w.imm.toInt) % 2 ^ 48)))

/-- What an issue enters in flight, and the cycle in which it lands (R19, R21, R23, R25, R125).
(It rests on choices of the model: notes/assumptions/10.) -/
def Obligations.IssueAndLanding : Prop :=
  -- What an issue enters, for an instruction with no token bit: each effect in flight under one issue number, landing after its
  -- latency, in interlocked mode no earlier than an earlier write of the same destination; a mark where there is no effect; and
  -- the stream past the instruction, by sequence or round its loop (R19, R21, R23, R25, R125).
  (∀ (s s1 : State) (i : Instr) (w : Ins) (effs : List Effect) (payload : Word) (lat : Nat),
     w.tok = ⟨false, false, false, false⟩ →
     ∃ u popped, s.issued s1 i w effs payload lat = profileHook u (s.streamOf w) popped ∧
       (u.ctx.flights.map fun f => (f.seq, f.stream, f.issued, f.land, f.eff)) =
         (s1.ctx.flights.map fun f => (f.seq, f.stream, f.issued, f.land, f.eff)) ++
         ((if effs = [] then [Effect.mark] else effs).map fun e =>
           (s1.ctx.seqNext, s.streamOf w, s1.ctx.cycle, s1.ctx.landCycle e lat, e)) ∧
       u.ctx.seqNext = s1.ctx.seqNext + 1 ∧
       (u.ctx.stream (s.streamOf w)).pc =
         (bodyEnd (((s1.ctx.stream (s.streamOf w)).pc + w.len.bytes) % 2 ^ 48) (s1.ctx.stream (s.streamOf w)).loops).1 ∧
       (u.ctx.stream (s.streamOf w)).qCount = (s1.ctx.stream (s.streamOf w)).qCount + (if w.dst = .q then 1 else 0) ∧
       u.here.turn = s.streamOf w + 2 ∧ IssueKeeps w (s.streamOf w) s1 u) ∧
  -- The landing cycle of a result: its issue cycle and its latency in exposed mode; in interlocked mode no earlier than that,
  -- nor than the landing of an earlier write of the same destination (R19, R21, R23).
  (∀ (c : Ctx) (e : Effect) (lat : Nat),
     (c.exposed = true → c.landCycle e lat = c.cycle + lat) ∧
     (c.exposed = false → c.cycle + lat ≤ c.landCycle e lat ∧
       ∀ f ∈ c.flights, f.eff.shares e = true → f.land ≤ c.landCycle e lat))

/-- BR, and BT, BF and JR in stream S (R29, R30, R50, R124): where each goes, what S records, and what each raises.
(It rests on choices of the model: notes/assumptions/25.) -/
def Obligations.BranchesAndOutcomes : Prop :=
  -- BR (R124): every stream that may pass it goes to the BR's address plus 4·i; a target that is no multiple of 4 traps instead
  -- (R50). Nothing else of the machine changes.
  (∀ (s : State) (w : Ins), MayPass s w →
     let target := branchTarget s w (s.streamOf w)
     (target % 4 = 0 → Passes (.br w) w s fun u => WentTo s u w true target ∧ IssueKeeps w (s.streamOf w) s u) ∧
     (target % 4 ≠ 0 → exec (.br w) s = .next (s.raise (s.streamOf w) (Instr.br w).word
       { cause := 0x07, addr := some target } (some Redo.blank)))) ∧
  -- BT, BF and JR in stream S (R29, R30, R124): with fewer than 64 outcomes outstanding and nothing it reads in flight, S
  -- resolves the instance, records the outcome and goes where it says; a target of JR past 48 bits raises FETCH-FAULT, a taken
  -- target that is no multiple of 4 MISALIGNED-TARGET.
  (∀ row ∈ instanceTable, ∀ (s : State) (w : Ins), MayPass s w → s.streamOf w = 0 → s.ctx.outcomes.length < 64 →
     s.ctx.blocked 0 (row.2.2.2 s w) = false →
     let taken := row.2.1 s w
     let target := row.2.2.1 s w
     (target < 2 ^ 48 → (taken = true → target % 4 = 0) → Resolves (row.1 w) w s taken target) ∧
     (target < 2 ^ 48 → taken = true → target % 4 ≠ 0 → exec (row.1 w) s = .next (s.raise 0 (row.1 w).word
       { cause := 0x07, addr := some target } (some Redo.blank))) ∧
     (2 ^ 48 ≤ target → exec (row.1 w) s = .next (s.raise 0 (row.1 w).word { cause := 0x06, addr := some target } none)))

/-- BT, BF and JR in the other streams, which follow the outcomes S recorded, and LOOP (R28, R29, R125).
(It rests on choices of the model: notes/assumptions/25.) -/
def Obligations.StreamsAndLoops : Prop :=
  -- BT, BF and JR in the other streams (R29): each takes the outcome that S recorded for its next instance, and waits without
  -- one.
  (∀ mk ∈ [Instr.bt, Instr.bf, Instr.jr], ∀ (s : State) (w : Ins), MayPass s w → s.streamOf w ≠ 0 →
     (s.ctx.outcomeFor (s.streamOf w) = none → exec (mk w) s = .next (s.passTurn (s.streamOf w))) ∧
     (∀ o, s.ctx.outcomeFor (s.streamOf w) = some o → s.streamOf w < 5 → Passes (mk w) w s fun u =>
       WentTo s u w o.taken o.target ∧
       (u.ctx.stream (s.streamOf w)).brCount = ((s.ctx.stream (s.streamOf w)).brCount + 1) % 2 ^ 32 ∧
       u.die = s.die ∧ u.host = s.host ∧ u.ctx.b = s.ctx.b ∧ (∀ k, (u.ctx.stream k).x = (s.ctx.stream k).x))) ∧
  -- LOOP (R28, R125): with a legal body end and fewer than eight entries, a trip count of zero sends the stream to the end by
  -- sequence, any other pushes the entry and enters the body; eight entries raise LOOP-DEPTH, a bad body end ILLEGAL-ENCODING.
  (∀ (s : State) (w : Ins), MayPass s w →
     let st := s.streamOf w
     let t := s.ctx.stream st
     let trips := bits w.imm.toNat 31 16
     let stop := t.pc + 4 * bits w.imm.toNat 15 0
     let legal := bits w.imm.toNat 15 0 ≠ 0 ∧ t.pc + w.len.bytes < stop ∧ ∀ top ∈ t.loops.head?, stop ≤ top.stop
     let after := (t.pc + w.len.bytes) % 2 ^ 48
     (legal → t.loops.length < 8 → trips ≠ 0 → Passes (.loop w) w s fun u =>
       (u.ctx.stream st).loops = { trips, stop := stop % 2 ^ 48, start := after } :: t.loops ∧
       (u.ctx.stream st).pc = after ∧ (u.ctx.stream st).pos = t.pos + 1 ∧ IssueKeeps w st s u) ∧
     (legal → t.loops.length < 8 → trips = 0 → Passes (.loop w) w s fun u =>
       (u.ctx.stream st).pc = (bodyEnd (stop % 2 ^ 48) t.loops).1 ∧
       (u.ctx.stream st).loops = (bodyEnd (stop % 2 ^ 48) t.loops).2.1 ∧
       (u.ctx.stream st).pos = t.pos + 1 ∧ IssueKeeps w st s u) ∧
     (legal → 8 ≤ t.loops.length →
       exec (.loop w) s = .next (s.raise st (Instr.loop w).word { cause := 0x04 } (some Redo.blank))) ∧
     (¬ legal → exec (.loop w) s = .next (s.raise st (Instr.loop w).word { cause := 0x02 } none)))

/-- MFSR and MTSR over every system register, and the landing of each write (R27, R106, R144, R146, R147, R215, R216).
(It rests on choices of the model: notes/assumptions/73, 78.) -/
def Obligations.SystemRegisters : Prop :=
  -- MFSR (R144): every register that the mode lets it read gives its value at the bound; a number not listed raises
  -- ILLEGAL-OPERAND, one that only handler mode reaches raises PRIVILEGE in task mode.
  (∀ (s : State) (w : Ins), s.mayIssue w [.sys w.imm.toNat] = true →
     let completes (v : Word) : Prop :=
       exec (.mfsr w) s = .next (s.issued s (.mfsr w) w (s.ctx.result (s.streamOf w) w.dst v) v)
     (∀ row ∈ sysTable, w.imm.toNat = row.1 → (row.1 ∈ handlerRegs → s.ctx.handler = true) → completes (row.2 s)) ∧
     (0x040 ≤ w.imm.toNat → w.imm.toNat ≤ 0x043 → s.ctx.handler = true → ∃ v, completes v) ∧
     (w.imm.toNat ∈ handlerRegs → s.ctx.handler = false →
       exec (.mfsr w) s = .next (s.raise (s.streamOf w) (Instr.mfsr w).word { cause := 0x0D } none)) ∧
     (w.imm.toNat ∉ listedRegs → Traps (.mfsr w) w s { cause := 0x03 })) ∧
  -- MTSR (R27, R144, R147, R216): in the mode that may write the register, a value it admits is in flight for it; another
  -- value, or a register that is read-only in the mode or not listed, raises ILLEGAL-OPERAND and changes nothing; PRIVILEGE as
  -- for MFSR.
  (∀ (s : State) (w : Ins), s.mayIssue w = true →
     let n := w.imm.toNat
     let v := s.opA w
     let writable := n ∈ [0x000, 0x001, 0x002, 0x003] ∨ (s.ctx.handler = true ∧ n ∈ [0x012, 0x013, 0x020, 0x021])
     let admits := (n = 0x000 → 16 ≤ bits v.toNat 12 0 ∧ bits v.toNat 12 0 ≤ 4096) ∧ (n = 0x020 → v.toNat % 4 = 0) ∧
       (n = 0x003 → bit v.toNat 35 = false ∧ bits v.toNat 34 27 ≠ 255)
     (writable → admits → exec (.mtsr w) s = .next (s.issued s (.mtsr w) w [.reg (.sys n) v] 0)) ∧
     (n ∈ handlerRegs → s.ctx.handler = false →
       exec (.mtsr w) s = .next (s.raise (s.streamOf w) (Instr.mtsr w).word { cause := 0x0D } none)) ∧
     ((n ∈ handlerRegs → s.ctx.handler = true) → ¬ (writable ∧ admits) → Traps (.mtsr w) w s { cause := 0x03 })) ∧
  -- What the landing of an MTSR leaves in each register it may write, reserved bits discarded (R27, R106, R146, R147, R215,
  -- R216).
  (∀ (c : Ctx) (v : Word),
     (c.writeSys 0x000 v).slip = v.toNat % 2 ^ 13 ∧ (c.writeSys 0x001 v).vcvtpol.toNat = v.toNat % 2 ^ 8 ∧
     (c.writeSys 0x002 v).factctl.toNat = v.toNat % 2 + 256 * (v.toNat / 256 % 4) ∧
     (c.writeSys 0x003 v).ftol.toNat = v.toNat % 2 ^ 36 ∧ (c.writeSys 0x012 v).timecmp = v ∧
     (c.writeSys 0x013 v).timerEn = v.getLsbD 0 ∧ (c.writeSys 0x020 v).tvec.toNat = v.toNat % 2 ^ 48 ∧
     (c.writeSys 0x021 v).hfail = v.getLsbD 1 ∧ (c.writeSys 0x021 v).hcause = c.hcause ∧
     (c.writeSys 0x021 v).handler = c.handler ∧
     (∀ n ∈ [0x010, 0x011, 0x022, 0x023, 0x030, 0x040, 0x041, 0x042, 0x043], c.writeSys n v = c))

namespace Sys2Proof.Claims

/-- The byte that a core sees at a place of LPDDR-6: that of its copy of the line, else memory's (R170, R346). -/
def newest (s : State) (core a : Nat) : Byte :=
  match (s.core core).lineOf (a / 128) with
  | some l => l.data.getD (a % 128) 0
  | none => s.die.mem.read a

/-- The cells of a store to normal memory: whole bytes of LPDDR-6, none twice, of words that are not poisoned, each line of virtual
addresses at one physical line, which is the one its blocks hold it as (R168); and the lines of the cache are of distinct addresses and
128 bytes. -/
def PlainCells (s : State) (cs : List StoreCell) : Prop :=
  (cs.map (·.pa)).Nodup ∧ ((s.core s.focus).lines.map (·.pline)).Nodup ∧ (∀ l ∈ (s.core s.focus).lines, l.data.length = 128) ∧
  (∀ c ∈ cs, ∀ d ∈ cs, c.va / 128 = d.va / 128 → c.pa / 128 = d.pa / 128) ∧
  ∀ c ∈ cs, c.pa < 0x60_0000_0000 ∧ c.mask = 0xFF ∧ c.va % 128 = c.pa % 128 ∧ c.pa / 32 * 32 ∉ s.die.poison ∧
    ∀ t ∈ (s.core s.focus).blocks, t.asn = s.asn → t.first ≤ c.va / 128 → c.va / 128 < t.first + t.count →
      t.plines.getD (c.va / 128 - t.first) (c.pa / 128) = c.pa / 128

/-- The running context after a store of a stream, issued under a number, is performed: nothing but bank requests and the stores in
flight of the stream's earlier issues changes, and these no longer write a bit that this has written (R119, R172, R173). -/
def StorePrevails (s u : State) (f : Flight) (spad : Bool) (cs : List StoreCell) : Prop :=
  u.ctx = { s.ctx with wants := u.ctx.wants, flights := u.ctx.flights, saved := u.ctx.saved } ∧
  u.ctx.allFlights.map (·.seq) = s.ctx.allFlights.map (·.seq) ∧
  ((∀ g ∈ s.ctx.allFlights, g.stream = f.stream → f.seq ≤ g.seq) → u.ctx = { s.ctx with wants := u.ctx.wants }) ∧
  ∀ g ∈ u.ctx.allFlights, g.stream = f.stream → g.seq < f.seq → ∀ old, g.eff = .store spad old →
    ∀ x ∈ old, ∀ c ∈ cs, x.pa = c.pa → x.mask &&& c.mask = 0

end Sys2Proof.Claims

/-- The landing of a store (R117, R119, R170, R172, R335, R346): its bytes reach the scratchpad, the core's copy of their line (from
where a write-back or an eviction takes them to LPDDR-6) or the host's memory, and no other byte changes; and from its issue on a load of
its own stream sees it.
(It rests on choices of the model: notes/assumptions/11, 12, 125.) -/
def Obligations.StoresAreSeen : Prop :=
  -- A store to the scratchpad: each of its cells takes its bits, every other byte of every scratchpad, all of LPDDR-6 and the
  -- host's memory read as before.
  (∀ (s : State) (f : Flight) (cs : List StoreCell), f.eff = .store true cs → (cs.map (·.pa)).Nodup →
     let u := s.performStore f
     (∀ c ∈ cs, u.here.spad.read c.pa = (s.here.spad.read c.pa &&& ~~~c.mask) ||| (c.val &&& c.mask)) ∧
     (∀ a, a ∉ cs.map (·.pa) → u.here.spad.read a = s.here.spad.read a) ∧
     (∀ n, n % 128 ≠ s.focus % 128 → (u.core n).spad = (s.core n).spad) ∧ u.die = s.die ∧ u.host = s.host ∧
     StorePrevails s u f true cs) ∧
  -- A store to normal memory: the core sees each of its bytes, and LPDDR-6 holds what the core does not hold newer; a place that is
  -- none of its own keeps its byte in memory where the core held nothing newer, and else as the core sees it.
  (∀ (s : State) (f : Flight) (cs : List StoreCell), f.eff = .store false cs → PlainCells s cs →
     let u := s.performStore f
     (∀ c ∈ cs, newest u s.focus c.pa = c.val ∧ (dirtyAt u s.focus c.pa = true ∨ u.die.mem.read c.pa = c.val)) ∧
     (∀ a, a ∉ cs.map (·.pa) → dirtyAt s s.focus a = false → u.die.mem.read a = s.die.mem.read a) ∧
     (∀ a, a ∉ cs.map (·.pa) → dirtyAt s s.focus a = true → a / 32 * 32 ∉ s.die.poison →
       newest u s.focus a = newest s s.focus a ∧ (dirtyAt u s.focus a = true ∨ u.die.mem.read a = newest s s.focus a)) ∧
     u.host = s.host ∧ (u.core s.focus).spad = (s.core s.focus).spad ∧
     ∀ n, n % 128 ≠ s.focus % 128 → u.core n = s.core n) ∧
  -- A store to host windows: the host's memory takes each byte at its place of the window, and nothing else of it changes.
  (∀ (s : State) (f : Flight) (cs : List StoreCell), f.eff = .store false cs →
     (∀ c ∈ cs, 0x3E00_0000_0000 ≤ c.pa ∧ c.pa < 0x3F00_0000_0000 ∧ c.mask = 0xFF ∧ ∃ a, InWindow s c.pa 1 a) →
     (∀ c ∈ cs, ∀ d ∈ cs, ∀ a, InWindow s c.pa 1 a → InWindow s d.pa 1 a → c = d) →
     let u := s.performStore f
     (∀ c ∈ cs, ∀ a, InWindow s c.pa 1 a → u.host.mem.read a = c.val) ∧
     (∀ a, (∀ c ∈ cs, ¬ InWindow s c.pa 1 a) → u.host.mem.read a = s.host.mem.read a) ∧
     u.host = { s.host with mem := u.host.mem } ∧ u.die = s.die ∧ (∀ n, n % 128 ≠ s.focus % 128 → u.core n = s.core n) ∧
     StorePrevails s u f false cs) ∧
  -- The stores to host windows that the stream issued earlier come before it (R335).
  (∀ (s : State) (st seq : Nat), ∀ g ∈ (s.forceHost st seq).ctx.allFlights, g.stream = st → g.seq < seq → g.eff.toHost = true →
     g.done = true) ∧
  -- A stream's later load sees its own store from the store's issue on (R119, R172): the bytes of the store issued last are
  -- those laid over the memory read, at every place it covers, and other places keep what the earlier stores give.
  (∀ (c : Ctx) (f : Flight) (fs : List Flight) (st : Nat) (spad : Bool) (cs : List StoreCell) (ps : List Nat) (bs : List Byte),
     c.flights = fs ++ [f] → f.stream = st → f.done = false → f.eff = .store spad cs → (cs.map (·.pa)).Nodup →
     bs.length = ps.length → ∀ i, i < ps.length →
       let before := ({ c with flights := fs }.overlay st spad ps bs).getD i 0
       (∀ x ∈ cs, x.pa = ps.getD i 0 →
         (c.overlay st spad ps bs).getD i 0 = (before &&& ~~~x.mask) ||| (x.val &&& x.mask)) ∧
       (ps.getD i 0 ∉ cs.map (·.pa) → (c.overlay st spad ps bs).getD i 0 = before))

/-- The packets but LAUNCH, WINDOW_FETCH, and the comparisons of WAITMEM and PRED (R409 to R416, R420).
(It rests on choices of the model: notes/assumptions/77.) -/
def Obligations.PacketKinds : Prop :=
  -- The packets NOP, IB, LOOP, PRED, WAITMEM, WRITEMEM, SIGNAL, TIMESTAMP and FETCHFENCE, and WINDOW_FETCH (R409 to R416,
  -- R420): a packet of its type that is next does what it says and completes, waits, or stops its queue; where another is next,
  -- or none, nothing happens; the Mitten holds a queue at a packet it does not perform.
  ((∀ (s : State) (q : Nat) (x : Queue) (p : Packet), NextPacket s q x p →
     let done (t : State) (y : Queue) : Host.Outcome State Fault Refusal := .next (t.finishPacket q y p)
     let stops (t : State) (cause : Nat) : Host.Outcome State Fault Refusal := .next (t.packetFault q x p.pos cause)
     let w := p.word 0
     let holds (m : Nat) : Bool := funcHolds (bits p.arg 2 0) m (p.word 1) (p.word 2)
     (p.kind = 0x00 → exec (.nopPacket q) s = done s x) ∧
     (p.kind = 0x09 → exec (.fetchfence q) s = done s x.dropWindows) ∧
     (p.kind = 0x02 → x.depth < 2 → ∃ y, exec (.ib q) s = .next (s.setQueue q y) ∧ y.levels = { kind := .ib, host := bit w 63, start := bits w 47 0, stop := bits w 47 0 + p.word 1, pos := bits w 47 0, passes := 1, window := none } ::
         (x.setTop { x.top with pos := x.after p.pos 24 }).levels ∧ y.began = some s.now) ∧
     (p.kind = 0x02 → 2 ≤ x.depth → exec (.ib q) s = stops s 0x54) ∧
     (p.kind = 0x04 →
       let body := bits w 63 32
       let n := bits w 31 0
       let start := x.after p.pos 16
       (x.top.kind = .loop → exec (.loopPacket q) s = stops s 0x54) ∧
       (x.top.kind ≠ .loop → 16 + body ≤ x.dist p.pos x.limit → n = 0 → exec (.loopPacket q) s = .next (s.finishAt q x (x.after start body))) ∧
       (x.top.kind ≠ .loop → 16 + body ≤ x.dist p.pos x.limit → n ≠ 0 → ∃ y, exec (.loopPacket q) s = .next (s.setQueue q y) ∧ y.levels = { kind := .loop, host := x.holder.host, start, stop := x.after start body, pos := start, passes := n, window := none } ::
           (x.setTop { x.top with pos := x.after start body }).levels ∧ y.began = some s.now) ∧
       (x.top.kind = .ring → x.dist p.pos x.limit < 16 + body →
         exec (.loopPacket q) s = .next (s.setQueue q { x with state := .waiting }))) ∧
     (p.kind = 0x03 → x.skip = 0 →
       (∀ m s1, s.pktRead x.part w 8 = (.ok m, s1) →
         (holds m = true → exec (.pktPred q) s = done s1 x) ∧
         (holds m = false → ∀ pos y s2, s1.skipRun { x with skip := bits p.arg 15 8 } (x.after p.pos 32) (bits p.arg 15 8) = (.past pos, y, s2) →
           exec (.pktPred q) s = .next (s2.finishAt q y pos))) ∧
       (∀ c s1, s.pktRead x.part w 8 = (.error c, s1) → exec (.pktPred q) s = stops s1 c)) ∧
     (∀ i, (i = Instr.waitmem q ∧ x.progress = .none) ∨ (i = Instr.waitmemPoll q ∧ ∃ t, x.progress = .waitmem t) → p.kind = 0x05 →
       (∀ m s1, s.pktRead x.part w 8 = (.ok m, s1) →
         exec i s = if holds m then done s1 x else .next (s1.setQueue q { x with progress := .waitmem s.now })) ∧
       (∀ c s1, s.pktRead x.part w 8 = (.error c, s1) → exec i s = stops s1 c)) ∧
     (p.kind = 0x06 →
       let n := if bit p.arg 0 then 8 else 4
       (hostAddr w → exec (.writemem q) s = done (s.hostPut (bits w 47 0) n (p.word 1)) x) ∧
       (∀ s1, s.pktWrite x.part w n (p.word 1) = (none, s1) → exec (.writemem q) s = done s1 x) ∧
       (∀ c s1, s.pktWrite x.part w n (p.word 1) = (some c, s1) → exec (.writemem q) s = stops s1 c)) ∧
     (p.kind = 0x07 →
       let sent (t : State) : State := { t with host := { t.host with msix := t.host.msix ++ [bits p.arg 9 0] } }
       (bit p.arg 10 = false → exec (.signal q) s = done (sent s) x) ∧
       (bit p.arg 10 = true → ∀ s1, s.pktWrite x.part w 8 (p.word 1) = (none, s1) → exec (.signal q) s = done (sent s1) x) ∧
       (bit p.arg 10 = true → ∀ c s1, s.pktWrite x.part w 8 (p.word 1) = (some c, s1) → exec (.signal q) s = stops s1 c)) ∧
     (p.kind = 0x08 →
       (∀ t s1, x.began = some t → s.pktWrite x.part w 8 t = (none, s1) → exec (.timestamp q) s = done s1 x) ∧
       (∀ t c s1, x.began = some t → s.pktWrite x.part w 8 t = (some c, s1) → exec (.timestamp q) s = stops s1 c)) ∧
     (∀ k i, PacketEvent q k i → k ≠ p.kind → exec i s = .next s) ∧ exec (.windowFetch q) s = .next s) ∧
   (∀ (s : State) (q : Nat) (x : Queue), q < 1024 → s.queueOf q = some x →
     (s.queueNext x = .none → (∀ k i, PacketEvent q k i → exec i s = .next s) ∧ exec (.windowFetch q) s = .next s) ∧
     (∀ p, s.queueNext x = .packet p → s.host.mitten = true → mittenPacket p = false → ∀ i, PacketEvent q p.kind i →
       exec i s = .next (s.setQueue q { x with state := .mitten })) ∧
     (s.queueNext x = .fetch → (x.dist x.rptr x.wptr ≤ x.size ∨ x.top.kind ≠ .ring) → x.packet = none →
       (∀ w s1, s.fetchAt x x.top.pos = (.window w, s1) → exec (.windowFetch q) s = .next (s1.setQueue q (x.setWindow w))) ∧
       (∀ s1, s.fetchAt x x.top.pos = (.wait, s1) → exec (.windowFetch q) s = .next (s1.setQueue q { x with state := .waiting })) ∧
       (∀ c s1, s.fetchAt x x.top.pos = (.stop c, s1) → exec (.windowFetch q) s = .next (s1.packetFault q x x.top.pos c))) ∧
     (s.queueNext x = .fetch → x.packet.isSome = true → exec (.windowFetch q) s = .next (s.packetFault q x x.top.pos 0x54))) ∧
   (∀ (s : State) (q : Nat), 1024 ≤ q →
     (∀ k i, PacketEvent q k i → exec i s = .refused .noSuchPlace) ∧ exec (.windowFetch q) s = .refused .noSuchPlace) ∧
   -- what completing a packet of the ring leaves, and what stopping at one leaves
   (∀ (s : State) (q : Nat) (x : Queue) (p : Packet) (l : Level), x.levels = [l] → l.kind = .ring → ∃ y,
     (s.finishPacket q x p).queueOf q = some y ∧ y.rptr = (p.pos + 8 * p.len) % 2 ^ 32 ∧ y.completed = (x.completed + 1) % 2 ^ 32 ∧
     y.progress = .none ∧ y.state = (if y.rptr = x.wptr % 2 ^ 32 then .idle else .running)) ∧
   ∀ (s : State) (q : Nat) (x : Queue) (pos cause : Nat), s.queueOf q = some x → ∃ y,
     (s.packetFault q x pos cause).queueOf q = some y ∧ y.state = .faulted ∧ y.rptr = x.rptr ∧ y.lastCause = cause ∧
     (s.packetFault q x pos cause).host.nlog = s.host.nlog + 1) ∧
  -- The comparisons of WAITMEM and PRED (R411), of the masked 64-bit words.
  (∀ (m v k : BitVec 64),
     let a := m &&& k
     let b := v &&& k
     ∀ row ∈ [(0, decide (a = b)), (1, decide (a ≠ b)), (2, a.ult b), (3, b.ule a), (4, a.slt b), (5, b.sle a)],
       funcHolds row.1 m.toNat v.toNat k.toNat = row.2)

/-- PLACEMENT, CONTEXT_RESTORE, RECORD_MOVE, BALANCE_EPOCH, PREEMPT and CONTEXT_SAVE (R14, R84, R280, R282, R307, R309, R311 to
R313).
(It rests on choices of the model: notes/assumptions/14, 48, 49, 50.) -/
def Obligations.TaskPlacement : Prop :=
  -- PLACEMENT and CONTEXT_RESTORE (R14, R84, R282, R309, R311): the first record of a core's list that can be placed leaves it
  -- (its code object read once) and its task stands in an empty context with all five streams at the entry point, FRAME in x0, the record in x1, and the
  -- slip window and mode of its header; one that cannot run is rejected; a saved context whose area stands as it was saved goes
  -- on as it was on a core whose caches are cold, its scratchpad base alone chosen anew and its scratchpad read from the area,
  -- and one whose area does not is faulted. Nothing happens where there is no such record.
  (∀ (s : State) (n : Nat), n < 128 →
     let s0 := seenAt s n
     -- the code objects of the list's records, each read once and kept with its record (R84, R349)
     let s1 := if s0.mayPlace n then s0.readList n (s.core n).ready else s0
     (let bare (k : Core) := k.ready.map fun r => { r with kept := none }
      bare (s1.core n) = bare (s.core n) ∧ s1.die.mem = s.die.mem ∧ s1.host = s.host ∧ ∀ j < 2, s1.ctxAt n j = s.ctxAt n j) ∧
     (s0.mayPlace n = false → exec (.placement n) s = .next s) ∧
     (s1.nextPlaced n = none → AtCore (.placement n) s s1) ∧
     (∀ r j slot h recs, s1.nextPlaced n = some (r, .place j slot h recs) → j < 2 →
       ∃ u t, exec (.placement n) s = .next u ∧ (u.core n).ready = (s1.core n).ready.erase r ∧
         (let d := u.ctxAt n j
          d.task = some t ∧ t.record = r.record ∧ t.part = r.part ∧ t.region = r.region ∧ t.succ = r.succ ∧ t.launch = r.launch ∧
          t.slot = slot ∧ t.ctxs = h.ctx ∧ t.gated = false ∧
          d.slip = h.slip ∧ d.exposed = bit h.flags 0 ∧ d.spadGrant = h.grant ∧ d.plyGrant = h.plies ∧ d.handler = false ∧
          d.flights = [] ∧ d.guards = [] ∧
          ∀ k < 5, (d.stream k).pc = r.code + h.textOff + h.entry ∧ (d.stream k).status = .run ∧ (d.stream k).loops = [] ∧
            vget 0 (d.stream k).x 0 = BitVec.ofNat 64 r.frame ∧ vget 0 (d.stream k).x 1 = BitVec.ofNat 64 r.record)) ∧
     (∀ r reason, s1.nextPlaced n = some (r, .reject reason) → AtCore (.placement n) s
       (((s1.unlist n r).visitPath r.part (s1.rgnPath r.part r.region)).settle
         [.ended { r.ending .rejected 0x1D reason 0x1D with cluster := some (n / 8) }])) ∧
     (s0.savedFor n = none → exec (.contextRestore n) s = .next s) ∧
     (∀ m r slot x t, s0.savedFor n = some (m, r) → s0.restorable n r = some slot → r.saved = some x → x.ctx.task = some t →
       let same := (savedView x).all fun y => (s0.areaGet t.part (x.base + y.1) y.2.1).1 = fitBytes y.2.1 y.2.2
       ∃ (u : State) (base : Nat), u.focus = n ∧ (u.core m).ready = (s.core m).ready.erase r ∧
         u.ctxAt n slot =
           { x.ctx with spbase := base, flights := x.ctx.flights.map (Flight.rebase base), seq := x.ctx.seq.rebase base } ∧
         AtCore (.contextRestore n) s (if same then
             let g := u.areaGet t.part (x.base + areaSpad) x.ctx.spadGrant
             let cold := g.2.coldCaches
             -- a restore beside a running context asks the banks for the rows of the grant (R152, R282)
             let asked := if (s.runCtx n).task = none then cold else cold.askSave n [(0, x.ctx.spadGrant)]
             (asked.spadPut n base g.1).reenter n slot
           else
             let e := u.endContext n slot .faulted 0x1A 0 0x1A
             e.1.settle e.2))) ∧
  -- RECORD_MOVE and BALANCE_EPOCH (R307, R312): the oldest record of the highest priority in a cluster's queues goes to the
  -- list of its core with the fewest unplaced records; an epoch's end counts, moves no record that is pinned or saved, and
  -- touches no other cluster. A cluster above 15 refuses.
  ((∀ (s : State) (k : Nat), k < 16 →
     (∀ r n, (s.cluster k).oldest = some r → s.emptiest k = some n → ∃ u, exec (.recordMove k) s = .next u ∧
       (u.core n).ready = insertReady r (s.core n).ready ∧ r ∈ (u.core n).ready ∧
       ∀ p < 16, vget [] (u.cluster k).queues p = (vget [] (s.cluster k).queues p).erase r) ∧
     ((s.cluster k).oldest = none ∨ s.emptiest k = none → exec (.recordMove k) s = .next s) ∧
     ∃ u, exec (.balanceEpoch k) s = .next u ∧ (u.cluster k).epoch = (s.cluster k).epoch + 1 ∧
       (u.cluster k).queues = (s.cluster k).queues ∧
       ∀ n < 128, (n / 8 ≠ k → (u.core n).ready = (s.core n).ready) ∧
         ∀ r ∈ (s.core n).ready, r.pin = true ∨ r.saved.isSome = true → r ∈ (u.core n).ready) ∧
   ∀ (s : State) (k : Nat), 16 ≤ k → exec (.recordMove k) s = .refused .noSuchPlace ∧ exec (.balanceEpoch k) s = .refused .noSuchPlace) ∧
  -- PREEMPT and CONTEXT_SAVE (R280, R313): the running task is asked to stop where the head of the core's list has a priority
  -- PREEMPT above its own; once it stops, its bytes are written back, and its context with all it holds goes into the list under its
  -- record, with nothing done to it but the end of the request and the counts of bank conflicts, and leaves the core. Nothing happens where that is not so.
  (∀ (s : State) (n : Nat), n < 128 →
     let s0 := seenAt s n
     let c := s0.ctx
     let k := s.core n
     let wants (t : Task) (r : Ready) := t.margin ≠ 0 ∧ t.saveBase ≠ 0 ∧ t.prio + t.margin ≤ r.prio ∧ t.preempt = false
     let stops := k.turn = 0 ∧ c.moves = true ∧ c.faults = [] ∧ (∃ t, c.task = some t ∧ t.preempt = true) ∧ c.lockS = none ∧
       c.lockL = none ∧ c.handler = false
     (∀ t r, c.task = some t → k.ready.head? = some r → wants t r →
       AtCore (.preempt n) s (s0.setCtx { c with task := some { t with preempt := true, yields := false } })) ∧
     ((∀ t r, c.task = some t → k.ready.head? = some r → ¬ wants t r) → exec (.preempt n) s = .next s) ∧
     (stops → ∀ s1 t, (s0.writeBackAll n).ctx.faults = [] → (s0.writeBackAll n).capture = (true, s1) → s1.ctx.task = some t →
       ∃ u r x, exec (.contextSave n) s = .next u ∧ (u.core n).slot s1.here.running = Ctx.reset ∧
         (u.core n).ready = insertSaved r t.yields s1.here.ready ∧ r.record = t.record ∧ r.part = t.part ∧ r.region = t.region ∧
         r.prio = t.prio ∧ r.launch = t.launch ∧ r.succ = t.succ ∧ r.saved = some x ∧ x.base = t.saveArea ∧
         x.ctx = { s1.ctx with task := some { t with preempt := false, yields := false }, wants := [], faults := x.ctx.faults
                               conflicts := x.ctx.conflicts, overflow := x.ctx.overflow }) ∧
     (¬ stops → exec (.contextSave n) s = .next s))

/-- The debug commands (R147, R283, R285, R286): control of a context, and what each reads, writes and patches.
(It rests on choices of the model: notes/assumptions/51, 53, 54.) -/
def Obligations.DebugCommands : Prop :=
  -- The debug commands ARM, DISARM, HALT, RESUME, STEP and CLRPROF (R283, R286): what each sets in a context that holds a task,
  -- where the link of its cluster is free; in one that holds none they do nothing; over a link that is not free they are sent
  -- in order; a core or slot that is not there refuses.
  ((∀ (s : State) (n slot cycle triggers count : Nat),
     let c := s.ctxAt n slot
     let all : List Instr := [.arm n slot cycle triggers, .disarm n slot, .halt n slot, .resume n slot, .dbgStep n slot count, .clrprof n slot]
     -- a command that sets the debug controls, and one after which the context goes on: acquires that the stop withdrew wait again
     let sets (i : Instr) (f : DebugCtl → DebugCtl) : Prop := exec i s = .next (s.setCtxAt n slot { c with dbg := f c.dbg })
     let goesOn (i : Instr) (f : DebugCtl → DebugCtl) : Prop :=
       exec i s = .next ((s.setCtxAt n slot { c with dbg := f c.dbg }).reenter n slot)
     (DebugAt s n slot →
       sets (.arm n slot cycle triggers)
         (fun d => { d with cycle := if bit triggers 0 then some cycle else d.cycle, brk := d.brk || bit triggers 1 }) ∧
       sets (.disarm n slot) (fun d => { d with cycle := none, brk := false }) ∧
       sets (.halt n slot) (fun d => { d with halt := true }) ∧
       goesOn (.resume n slot) (fun d => { d with stopped := false, halt := false }) ∧
       (1 ≤ count → count < 2 ^ 32 → goesOn (.dbgStep n slot count)
         (fun d => { d with stopped := false, halt := false, step := some (c.cycle + count) })) ∧
       (count = 0 ∨ 2 ^ 32 ≤ count → c.dbg.stopped = true → exec (.dbgStep n slot count) s = .next s) ∧
       exec (.clrprof n slot) s = .next (s.setCtxAt n slot
         (if c.moves then { c with profClear := true } else { c with conflicts := [], overflow := [] }))) ∧
     (n < 128 → slot < 2 → c.task = none → s.linkFree (n / 8) = true → ∀ i ∈ all, exec i s = .next s) ∧
     (n < 128 → slot < 2 → ∀ i ∈ all, LinkHeld s (n / 8) i) ∧
     (128 ≤ n ∨ 2 ≤ slot → ∀ i ∈ all, exec i s = .refused .noSuchPlace)) ∧
   ∀ (s : State) (n : Nat), n < 128 →
     let s0 := seenAt s n
     let c := s0.ctx
     let due := (s.core n).turn = 0 ∧ c.moves = true ∧ c.faults = [] ∧ (c.dbg.halt = true ∨ ∃ t, (c.dbg.cycle = some t ∨ c.dbg.step = some t) ∧ t ≤ c.cycle)
     let later (d : Ctx) (x : Option Nat) : Option Nat := x.filter fun t => d.cycle < t
     (due → ∀ s1, s0.capture = (true, s1) → AtCore (.debugStop n) s
       (s1.setCtx { s1.ctx with dbg := { s1.ctx.dbg with
         cycle := later s1.ctx s1.ctx.dbg.cycle, step := later s1.ctx s1.ctx.dbg.step, halt := false, stopped := true } })) ∧
     (¬ due → exec (.debugStop n) s = .next s)) ∧
  -- READ, WRITE and PATCH (R283, R288): a stopped context answers and takes a scalar, a lane, a tag, a mask or a scratchpad
  -- byte, k0 and the reserved tags excepted; of one that is not stopped nothing is read or written; a patch of aligned bytes
  -- within a line writes them and leaves no captured copy of the line, or of the line before it.
  ((∀ (s : State) (n slot st r j v : Nat), n < 128 → slot < 2 → st < 5 → r < 16 → j < 64 →
     let c := s.ctxAt n slot
     (c.dbg.stopped = true → s.linkFree (n / 8) = true →
       (let reads (i : DebugItem) (l : List Nat) := exec (.dbgRead n slot i) s =
           .next { s with host := { s.host with replies := s.host.replies ++ [l] } }
        reads (.scalar st r) [(vget 0 (c.stream st).x r).toNat] ∧ reads (.lane r j) [(vget 0 (c.vreg r).lanes j).toNat] ∧
        reads (.vtag r) [(c.vreg r).tag.toNat] ∧ (r < 8 → reads (.mask r) [(vget 0 c.k r).toNat]) ∧
        (j < c.spadGrant → ∃ d, exec (.dbgRead n slot (.spad j)) s = .next ((s.setRunCtx n { s.runCtx n with wants := d }).setHost
          { s.host with replies := s.host.replies ++ [[((s.core n).spad.load (c.spbase + j) 1).headD 0 |>.toNat]] }))) ∧
       (let writes (i : DebugItem) (d : Ctx) := exec (.dbgWrite n slot i [v]) s = .next (s.setCtxAt n slot d)
        (∃ d, writes (.scalar st r) d ∧ vget 0 (d.stream st).x r = BitVec.ofNat 64 v ∧
          (∀ q < 16, q ≠ r → vget 0 (d.stream st).x q = vget 0 (c.stream st).x q) ∧ ∀ p < 5, p ≠ st → d.stream p = c.stream p) ∧
        (∃ d, writes (.lane r j) d ∧ vget 0 (d.vreg r).lanes j = BitVec.ofNat 32 v ∧ (d.vreg r).tag = (c.vreg r).tag ∧
          (∀ q < 64, q ≠ j → vget 0 (d.vreg r).lanes q = vget 0 (c.vreg r).lanes q) ∧ d = { c with v := d.v }) ∧
        (v ≤ 0x20 → v ≠ 0x1F → writes (.vtag r) { c with v := vset c.v r { c.vreg r with tag := BitVec.ofNat 6 v } }) ∧
        (0 < r → r < 8 → writes (.mask r) { c with k := vset c.k r (BitVec.ofNat 64 v) }) ∧
        exec (.dbgWrite n slot (.mask 0) [v]) s = .next s ∧
        (0x20 < v ∨ v = 0x1F → exec (.dbgWrite n slot (.vtag r) [v]) s = .next s))) ∧
     (c.dbg.stopped = false → s.linkFree (n / 8) = true → ∀ item vs,
       exec (.dbgRead n slot item) s = .next s ∧ exec (.dbgWrite n slot item vs) s = .next s) ∧
     ∀ item vs, LinkHeld s (n / 8) (.dbgRead n slot item) ∧ LinkHeld s (n / 8) (.dbgWrite n slot item vs)) ∧
   (∀ (s : State) (n slot : Nat) (item : DebugItem) (vs : List Nat), 128 ≤ n ∨ 2 ≤ slot →
     exec (.dbgRead n slot item) s = .refused .noSuchPlace ∧ exec (.dbgWrite n slot item vs) s = .refused .noSuchPlace) ∧
   ∀ (s : State) (part addr : Nat) (bs : List Byte), part < 8 →
     let fits := addr % 4 = 0 ∧ bs.length ≤ 128 ∧ addr % 128 + bs.length ≤ 128
     (fits → (∀ k < 16, s.linkFree k = true) → ∀ pa, s.codePlace part addr = some pa → s.die.poisonIn pa bs.length = none →
       ∃ t, exec (.patch part addr bs) s = .next t ∧ t.die.mem.load pa bs.length = bs ∧
         (∀ x, x < pa ∨ pa + bs.length ≤ x → t.die.mem.read x = s.die.mem.read x) ∧
         ∀ m < 128, ∀ x ∈ (t.core m).icache, x.pline ≠ pa / 128 ∧ x.pline + 1 ≠ pa / 128) ∧
     (¬ fits ∨ s.codePlace part addr = none → exec (.patch part addr bs) s = .next s))

/-- BIND, ACQ.X, ACQ.S and REL (R131 to R134).
(It rests on choices of the model: notes/assumptions/10, 11, 22, 28, 106.) -/
def Obligations.Guards : Prop :=
  -- BIND (R132), of a guard the context holds exclusively: the region of the same base, else the first empty one, takes base
  -- and length (all zeros where c is 0); SYNC-STATE where no region is free, or where the guard is not held exclusively.
  (∀ (s : State) (w : Ins) (pa : Nat) (s1 : State), s.mayIssue w = true → GuardAt s w pa s1 → s1.die.poisonIn pa 64 = none →
     let b := (s.opB w).toNat % 2 ^ 48
     let c := (s.opC w).toNat
     let base (i : Nat) := s1.peek (pa + 16 + 16 * i) 8
     let len (i : Nat) := s1.peek (pa + 24 + 16 * i) 8
     let same (i : Nat) := base i = b ∧ len i ≠ 0
     let held := ∃ h, s1.ctx.holdsGuard pa = some h ∧ h.excl = true
     let takes (i : Nat) := ∃ u, Enters (.bind w) w s u [] 0 ∧
       u.die.mem.load (pa + 16 + 16 * i) 16 = natBytes 8 (if c = 0 then 0 else b) ++ natBytes 8 c ∧
       ∀ x, x < pa + 16 + 16 * i ∨ pa + 32 + 16 * i ≤ x → u.die.mem.read x = s1.die.mem.read x
     (held → ∀ i < 3, same i → (∀ j < i, ¬ same j) → takes i) ∧
     (held → (∀ j < 3, ¬ same j) → ∀ i < 3, len i = 0 → (∀ j < i, len j ≠ 0) → takes i) ∧
     (held → (∀ j < 3, ¬ same j ∧ len j ≠ 0) → ∃ u, TrapsIn (.bind w) w s u { cause := 0x11 } ∧ u.die.mem = s1.die.mem) ∧
     (¬ held → TrapsIn (.bind w) w s s1 { cause := 0x11 })) ∧
  -- ACQ.X, ACQ.S and REL (R131, R133, R134): an acquire of a guard the context does not hold, by a context that holds fewer
  -- than four, joins the order of the guard's home slice and is in flight; a release of a held guard performs the context's
  -- stores at die scope, leaves STATE as R134 says and gives the guard up; one of a guard whose acquire is in flight waits for
  -- the grant; SYNC-STATE else.
  (∀ (s : State) (w : Ins) (pa : Nat) (s1 : State), s.mayIssue w = true → GuardAt s w pa s1 →
     let c := s1.ctx
     let holds := c.holdsGuard pa ≠ none ∨ c.granted pa = true
     (∀ row ∈ [(Instr.acqX, true), (Instr.acqS, false)],
       (4 ≤ s.ctx.heldCount → Traps (row.1 w) w s { cause := 0x11 }) ∧
       (s.ctx.heldCount < 4 → ¬ holds → Enters (row.1 w) w s
         { s1 with die := { s1.die with guardReqs := s1.die.guardReqs ++
             [{ guard := pa, core := s1.focus, slot := s1.here.running, seq := c.seqNext, excl := row.2 }] } }
         [.command (.acquire (s.opA w).toNat pa row.2 (c.target (s.streamOf w) w.dst))] 0) ∧
       (s.ctx.heldCount < 4 → holds → TrapsIn (row.1 w) w s s1 { cause := 0x11 })) ∧
     (∀ h, c.holdsGuard pa = some h → s1.forceDie.die.poisonIn pa 8 = none → ∃ u, Enters (.rel w) w s u [] 0 ∧
       MemTakes s1.forceDie u pa 8 (guardReleased (s1.forceDie.peek pa 8) h.excl) ∧
       u.ctx.guards = c.guards.filter (fun g => g.pa ≠ pa) ∧ StoresDone u ∧ WrittenBack u) ∧
     (c.holdsGuard pa = none → c.releasing pa < c.acquiring pa → Enters (.rel w) w s s1 [.command (.release pa)] 0) ∧
     (c.holdsGuard pa = none → c.acquiring pa ≤ c.releasing pa → TrapsIn (.rel w) w s s1 { cause := 0x11 }))

/-- The frame of the issue of the scalar loads and stores, the address checks (R117, R121, R122), and the causes of a virtual access
that does not translate (R336 to R338) or reads poison (R120).
(It rests on choices of the model: notes/assumptions/27.) -/
def Obligations.ScalarAccess : Prop :=
  -- The frame of the issue of the scalar loads and stores: nothing is stored yet, and no register changes yet.
  (∀ mk ∈ loadTable.map (·.1) ++ storeTable.map (·.1) ++ [Instr.ldlk, Instr.stul], ∀ (s t : State) (w : Ins),
     exec (mk w) s = .next t →
     (∃ u popped, t = profileHook u (s.streamOf w) popped ∧ AccessKeeps w (s.streamOf w) s u) ∨ Freezes s t) ∧
  -- The address checks of R117, R121 and R122: a misaligned scalar access, lock, atomic or LDBLK raises MISALIGNED-ACCESS, and
  -- an aligned scratchpad access past the grant or 2 MiB raises DATA-FAULT at its first byte outside.
  (∀ (s : State) (w : Ins), s.mayIssue w = true →
     let ea := addrOf s w
     (∀ row ∈ loadTable.map (fun r => (r.1, r.2.1)) ++ storeTable ++ [(Instr.ldlk, 8), (Instr.stul, 8)], ea % row.2 ≠ 0 →
       Traps (row.1 w) w s { cause := 0x0C, addr := some ea }) ∧
     (∀ row ∈ atomicTable, ea % (if w.mod.getLsbD 0 then 4 else 8) ≠ 0 → Traps (row.1 w) w s { cause := 0x0C, addr := some ea }) ∧
     (w.imm.toNat ≠ 0 → w.imm.toNat ≤ 64 → (s.opA w).toNat % 128 ≠ 0 →
       Traps (.ldblk w) w s { cause := 0x0C, addr := some (s.opA w).toNat }) ∧
     (∀ row ∈ loadTable.map (fun r => (r.1, r.2.1)) ++ storeTable, w.mod = 1 → ea % row.2 = 0 →
       min s.ctx.spadGrant 0x20_0000 < ea + row.2 →
       Traps (row.1 w) w s { cause := 0x0A, addr := some (max ea (min s.ctx.spadGrant 0x20_0000)) })) ∧
  -- A virtual access that does not translate raises the cause of its translation at ea, which with no TLB that holds ea is that of
  -- the tables: DATA-FAULT, PROTECTION, TABLE-INVALID or TABLE-POISONED; nothing in memory changes (R117, R338).
  (∀ (s : State) (w : Ins), s.mayIssue w = true → w.mod ≠ 1 →
     let ea := addrOf s w
     ∀ p ∈ loadTable.map (fun r => ((r.1, r.2.1), Acc.read)) ++ storeTable.map (fun r => (r, Acc.write)), ea % p.1.2 = 0 →
       (∀ c s1, s.translate s.focus s.asn ea p.2 = (.error c, s1) → TrapsIn (p.1.1 w) w s s1 { cause := c, addr := some ea }) ∧
       (TlbMiss s s.focus s.asn ea → ∀ c, Unmapped s s.asn ea p.2 c →
         ∃ s1, TrapsIn (p.1.1 w) w s s1 { cause := c, addr := some ea } ∧ s1.die.mem = s.die.mem ∧ s1.host = s.host)) ∧
  -- A load of normal memory in a poisoned word, with no byte of it that the core holds newer, raises POISONED-READ with its
  -- physical address (R120, R331).
  (∀ row ∈ loadTable, ∀ (s : State) (w : Ins), s.mayIssue w = true → w.mod ≠ 1 →
     let n := row.2.1
     let ea := addrOf s w
     ea % n = 0 → ∀ ph s1, s.translate s.focus s.asn ea .read = (.ok ph, s1) → ph.attr = 0 → ph.pa % n = 0 →
       (s1.core s1.focus).linePlace s1.asn (ea / 128) (ph.pa / 128) = ph.pa / 128 → (∀ x ∈ s1.die.poison, x % 32 = 0) →
       ph.pa / 32 * 32 ∈ s1.die.poison → (∀ i < n, dirtyAt s1 s1.focus (ph.pa + i) = false) →
       TrapsIn (row.1 w) w s s1 { cause := 0x12, addr := some ph.pa })

/-- FLASH_READ, TRAVERSAL_STEP, BATCH_RELEASE, APPEND_COMMIT, DARNING_PASS, DARN_SWITCH and VERSION_RECLAIM (R367, R369, R372,
R377, R378, R380, R383 to R385).
(It rests on choices of the model: notes/assumptions/4, 30, 34, 105.) -/
def Obligations.RetrievalEvents : Prop :=
  -- FLASH_READ, TRAVERSAL_STEP and BATCH_RELEASE (R369, R377, R378, R384, R385): a read that decodes goes where it is wanted;
  -- one that does not is queued again a level higher, and after the last level is a media failure; a decoded page is scanned
  -- once; a batch that is due asks for its pocket's first page for all its queries; a query keeps its best candidates in order,
  -- at most k of them.
  ((∀ (s : State) (k : Nat), k < 16 →
     let t := s.retr
     let mine (r : FlashRead) : Bool := pageCtl r.fpn = k
     (∀ r, t.reads.find? mine = some r →
       ((∃ p g, r.kind = .page p g) ∨ (∃ p, r.kind = .log p) → exec (.flashRead k true) s =
         .next { s with retr := { t with reads := t.reads.erase r, decoded := t.decoded ++ [r] } }) ∧
       (r.kind = .object → exec (.flashRead k true) s = .next { s with retr := { t with reads := t.reads.erase r } }) ∧
       (∀ p, r.kind = .prefetch p → exec (.flashRead k true) s =
         .next { s with retr := { t with reads := t.reads.erase r, buffered := t.buffered ++ [(r.handle, r.fpn)] } }) ∧
       (∀ x d, r.kind = .darn → s.idx r.handle = some x → x.pass = some d → ∃ u y, exec (.flashRead k true) s = .next u ∧
         u.idx r.handle = some y ∧ y = { x with pass := some { d with reads := d.reads - 1 } } ∧ u.retr.reads = t.reads.erase r) ∧
       (r.level < 7 → ∃ u, exec (.flashRead k false) s = .next u ∧ u.retr.reads = t.reads.erase r ++ [{ r with level := r.level + 1 }] ∧
         u.retr.cmds = t.cmds) ∧
       (7 ≤ r.level → ∃ u, exec (.flashRead k false) s = .next u ∧ u.host.mediaFails = s.host.mediaFails + 1 ∧
         u.host.retiredBlocks = s.host.retiredBlocks + 1 ∧
         (r.kind = .object → ∀ c ∈ t.cmds, OneUid s c → r.cmds = [c.uid] → HasStatus u c.uid 7))) ∧
     (t.reads.find? mine = none → ∀ ok, exec (.flashRead k ok) s = .next s) ∧
     (∀ r, t.decoded.find? mine = some r →
       exec (.traversalStep k) s = .next ((s.setRetr { t with decoded := t.decoded.erase r }).scanPage r)) ∧
     (t.decoded.find? mine = none → exec (.traversalStep k) s = .next s) ∧
     (∀ b p g gs, t.batches.find? (s.batchDue k) = some b → s.batchPocket b = some p → p.pages = g :: gs →
       t.buffered.contains (b.handle, g.fpn) = false → ∃ u r, exec (.batchRelease k) s = .next u ∧
         u.retr.batches = t.batches.erase b ∧ u.retr.reads = t.reads ++ [r] ∧ r.cmds = b.cmds ∧ r.fpn = g.fpn ∧ r.level = 0 ∧
         r.kind = .page p.number 0) ∧
     (t.batches.find? (s.batchDue k) = none → exec (.batchRelease k) s = .next s)) ∧
   (∀ (s : State) (k : Nat) (ok : Bool), 16 ≤ k → ∀ i ∈ [Instr.flashRead k ok, .traversalStep k, .batchRelease k],
     exec i s = .refused .noSuchPlace) ∧
   ∀ (best : List Candidate) (k : Nat) (c : Candidate), best.Pairwise (fun a b => a.before b = true) →
     ((∃ b ∈ best, b.id = c.id) → offer best k c = best) ∧
     ((∀ b ∈ best, b.id ≠ c.id) → (offer best k c).Pairwise (fun a b => a.before b = true) ∧
       (offer best k c).length = min k (best.length + 1) ∧ ∀ b ∈ offer best k c, b = c ∨ b ∈ best)) ∧
  -- APPEND_COMMIT, DARNING_PASS, DARN_SWITCH and VERSION_RECLAIM (R367, R372, R380, R383): the accepted append of lowest HPOS
  -- takes the next generation; a pass starts with a cut at the generation and a read of every page of the latest version's
  -- pockets that hold a vector no longer visible at the cut, and of the hem log's entries not in it; its switch makes its version the latest at the next generation, in flash
  -- pages that no index held, and ends it; a version no query uses is dropped with the log it holds. Where that is not so, or
  -- the handle names no index, nothing happens; a handle above 1,023 refuses.
  ((∀ (s : State) (h : Nat) (x : Index), h < 1024 → s.idx h = some x →
     (∀ e, x.log.find? (fun e => e.gen.isNone) = some e → ∃ t y, exec (.appendCommit h) s = .next t ∧ t.idx h = some y ∧
       y = { x with gen := x.gen + 1, counters := y.counters, log := x.log.map fun f =>
         if f.hpos = e.hpos then { f with gen := some (x.gen + 1) } else f } ∧
       vget 0 y.counters 9 = (vget 0 x.counters 9 + 1) % 2 ^ 64) ∧
     (x.log.find? (fun e => e.gen.isNone) = none → exec (.appendCommit h) s = .next s) ∧
     (let asked := x.asked ≠ [] ∨ (x.paused = false ∧ x.threshold ≠ 0 ∧ x.threshold < x.unabsorbed)
      let pages := ((x.latest.pockets.filter fun p => p.pages.any fun g => g.members.any fun m => x.visibleAt m.id m.gen x.gen = false).flatMap
        fun p => p.pages.map (·.fpn)) ++ (x.logsFor x.gen x.latest.cut).map (·.2)
      (x.pass = none → asked → ∃ t, exec (.darningPass h) s = .next t ∧
        t.idx h = some { x with pass := some { cut := x.gen, reads := pages.length, cmds := x.asked }, asked := [] } ∧
        (t.retr.reads.map (·.fpn)) = (s.retr.reads.map (·.fpn)) ++ pages) ∧
      (x.pass.isSome = true ∨ ¬ asked → exec (.darningPass h) s = .next s)) ∧
     (∀ p, x.pass = some p → p.reads = 0 → x.versions.length < 8 → ∃ t y, exec (.darnSwitch h) s = .next t ∧ t.idx h = some y ∧
       y.gen = x.gen + 1 ∧ y.pass = none ∧ y.log = x.log ∧ (∃ fs area, y.versions = x.versions ++ [(x.build p.cut (x.gen + 1)).place x fs area] ∧
         ∀ f ∈ fs, ∀ j z, s.idx j = some z → f ∉ z.fpns) ∧
       y.latest.fromGen = x.gen + 1 ∧ y.latest.cut = p.cut) ∧
     (x.pass = none ∨ (∃ p, x.pass = some p ∧ p.reads ≠ 0) ∨ 8 ≤ x.versions.length → exec (.darnSwitch h) s = .next s) ∧
     (∃ t y, exec (.versionReclaim h) s = .next t ∧ t.idx h = some y ∧ y.gen = x.gen ∧
       y.versions = x.versions.filter (fun v => v.fromGen = x.latest.fromGen || s.versionUsed h x v) ∧
       (∀ e ∈ x.log, e.gen = none → e ∈ y.log) ∧ ∀ e ∈ y.log, e ∈ x.log)) ∧
   (∀ (s : State) (h : Nat), h < 1024 → s.idx h = none →
     ∀ i ∈ [Instr.appendCommit h, .darningPass h, .darnSwitch h, .versionReclaim h], exec i s = .next s) ∧
   ∀ (s : State) (h : Nat), 1024 ≤ h →
     ∀ i ∈ [Instr.appendCommit h, .darningPass h, .darnSwitch h, .versionReclaim h], exec i s = .refused .noSuchPlace)
end

