-- ==== Sys2Proof/Laws/State.lean ====
section
/-! SUPPORT. What each update of the state leaves at each place, one lemma per place and update. -/

namespace Sys2Proof.Machine

/-! One core -/

@[simp] theorem State.setCore_die (s : State) (n : Nat) (c : Core) : (s.setCore n c).die = s.die := rfl
@[simp] theorem State.setCore_host (s : State) (n : Nat) (c : Core) : (s.setCore n c).host = s.host := rfl
@[simp] theorem State.setCore_retr (s : State) (n : Nat) (c : Core) : (s.setCore n c).retr = s.retr := rfl
@[simp] theorem State.setCore_time (s : State) (n : Nat) (c : Core) : (s.setCore n c).time = s.time := rfl
@[simp] theorem State.setCore_agenda (s : State) (n : Nat) (c : Core) : (s.setCore n c).agenda = s.agenda := rfl
@[simp] theorem State.setCore_focus (s : State) (n : Nat) (c : Core) : (s.setCore n c).focus = s.focus := rfl
@[simp] theorem State.setCore_freeCount (s : State) (n : Nat) (c : Core) : (s.setCore n c).freeCount = s.freeCount := rfl
@[simp] theorem State.core_setCore (s : State) (n : Nat) (c : Core) : (s.setCore n c).core n = c := by
  simp [State.core, State.setCore]

theorem State.core_setCore_ne (s : State) {m n : Nat} (c : Core) (h : m % 128 ≠ n % 128) :
    (s.setCore n c).core m = s.core m := by
  simp only [State.core, State.setCore]
  exact Vector.getElem_set_ne _ _ (Ne.symm h)

@[simp] theorem State.setHere_die (s : State) (c : Core) : (s.setHere c).die = s.die := rfl
@[simp] theorem State.setHere_host (s : State) (c : Core) : (s.setHere c).host = s.host := rfl
@[simp] theorem State.setHere_retr (s : State) (c : Core) : (s.setHere c).retr = s.retr := rfl
@[simp] theorem State.setHere_time (s : State) (c : Core) : (s.setHere c).time = s.time := rfl
@[simp] theorem State.setHere_agenda (s : State) (c : Core) : (s.setHere c).agenda = s.agenda := rfl
@[simp] theorem State.setHere_focus (s : State) (c : Core) : (s.setHere c).focus = s.focus := rfl
@[simp] theorem State.setHere_freeCount (s : State) (c : Core) : (s.setHere c).freeCount = s.freeCount := rfl
@[simp] theorem State.here_setHere (s : State) (c : Core) : (s.setHere c).here = c := by
  simp [State.here, State.setHere]

/-! One context of a core -/

@[simp] theorem Core.setSlot_running (c : Core) (i : Nat) (x : Ctx) : (c.setSlot i x).running = c.running := rfl
@[simp] theorem Core.setSlot_turn (c : Core) (i : Nat) (x : Ctx) : (c.setSlot i x).turn = c.turn := rfl
@[simp] theorem Core.setSlot_spad (c : Core) (i : Nat) (x : Ctx) : (c.setSlot i x).spad = c.spad := rfl
@[simp] theorem Core.setSlot_spOwner (c : Core) (i : Nat) (x : Ctx) : (c.setSlot i x).spOwner = c.spOwner := rfl
@[simp] theorem Core.setSlot_locks (c : Core) (i : Nat) (x : Ctx) : (c.setSlot i x).locks = c.locks := rfl
@[simp] theorem Core.setSlot_blocks (c : Core) (i : Nat) (x : Ctx) : (c.setSlot i x).blocks = c.blocks := rfl
@[simp] theorem Core.setSlot_lines (c : Core) (i : Nat) (x : Ctx) : (c.setSlot i x).lines = c.lines := rfl
@[simp] theorem Core.setSlot_ageNext (c : Core) (i : Nat) (x : Ctx) : (c.setSlot i x).ageNext = c.ageNext := rfl
@[simp] theorem Core.setSlot_icache (c : Core) (i : Nat) (x : Ctx) : (c.setSlot i x).icache = c.icache := rfl
@[simp] theorem Core.setSlot_tlb (c : Core) (i : Nat) (x : Ctx) : (c.setSlot i x).tlb = c.tlb := rfl
@[simp] theorem Core.setSlot_ready (c : Core) (i : Nat) (x : Ctx) : (c.setSlot i x).ready = c.ready := rfl
@[simp] theorem Core.slot_setSlot (c : Core) (i : Nat) (x : Ctx) : (c.setSlot i x).slot i = x := by
  simp [Core.slot, Core.setSlot]

theorem Core.slot_setSlot_ne (c : Core) {i j : Nat} (x : Ctx) (h : i % 2 ≠ j % 2) : (c.setSlot j x).slot i = c.slot i := by
  simp only [Core.slot, Core.setSlot]
  exact Vector.getElem_set_ne _ _ (Ne.symm h)

@[simp] theorem State.setCtxAt_die (s : State) (n i : Nat) (c : Ctx) : (s.setCtxAt n i c).die = s.die := rfl
@[simp] theorem State.setCtxAt_host (s : State) (n i : Nat) (c : Ctx) : (s.setCtxAt n i c).host = s.host := rfl
@[simp] theorem State.setCtxAt_retr (s : State) (n i : Nat) (c : Ctx) : (s.setCtxAt n i c).retr = s.retr := rfl
@[simp] theorem State.setCtxAt_time (s : State) (n i : Nat) (c : Ctx) : (s.setCtxAt n i c).time = s.time := rfl
@[simp] theorem State.setCtxAt_agenda (s : State) (n i : Nat) (c : Ctx) : (s.setCtxAt n i c).agenda = s.agenda := rfl
@[simp] theorem State.setCtxAt_focus (s : State) (n i : Nat) (c : Ctx) : (s.setCtxAt n i c).focus = s.focus := rfl
@[simp] theorem State.setCtxAt_freeCount (s : State) (n i : Nat) (c : Ctx) : (s.setCtxAt n i c).freeCount = s.freeCount := rfl
@[simp] theorem State.ctxAt_setCtxAt (s : State) (n i : Nat) (c : Ctx) : (s.setCtxAt n i c).ctxAt n i = c := by
  simp [State.ctxAt, State.setCtxAt]

@[simp] theorem State.setCtx_die (s : State) (c : Ctx) : (s.setCtx c).die = s.die := rfl
@[simp] theorem State.setCtx_host (s : State) (c : Ctx) : (s.setCtx c).host = s.host := rfl
@[simp] theorem State.setCtx_retr (s : State) (c : Ctx) : (s.setCtx c).retr = s.retr := rfl
@[simp] theorem State.setCtx_time (s : State) (c : Ctx) : (s.setCtx c).time = s.time := rfl
@[simp] theorem State.setCtx_agenda (s : State) (c : Ctx) : (s.setCtx c).agenda = s.agenda := rfl
@[simp] theorem State.setCtx_focus (s : State) (c : Ctx) : (s.setCtx c).focus = s.focus := rfl
@[simp] theorem State.setCtx_freeCount (s : State) (c : Ctx) : (s.setCtx c).freeCount = s.freeCount := rfl
@[simp] theorem State.ctx_setCtx (s : State) (c : Ctx) : (s.setCtx c).ctx = c := by
  simp [State.ctx, State.setCtx, State.runCtx, State.setRunCtx, State.ctxAt, State.setCtxAt, State.setCore_focus]

/-! One stream of a context -/

@[simp] theorem Ctx.setStream_task (c : Ctx) (i : Nat) (t : Stream) : (c.setStream i t).task = c.task := rfl
@[simp] theorem Ctx.setStream_b (c : Ctx) (i : Nat) (t : Stream) : (c.setStream i t).b = c.b := rfl
@[simp] theorem Ctx.setStream_outcomes (c : Ctx) (i : Nat) (t : Stream) : (c.setStream i t).outcomes = c.outcomes := rfl
@[simp] theorem Ctx.setStream_tokens (c : Ctx) (i : Nat) (t : Stream) : (c.setStream i t).tokens = c.tokens := rfl
@[simp] theorem Ctx.setStream_tokenNext (c : Ctx) (i : Nat) (t : Stream) : (c.setStream i t).tokenNext = c.tokenNext := rfl
@[simp] theorem Ctx.setStream_events (c : Ctx) (i : Nat) (t : Stream) : (c.setStream i t).events = c.events := rfl
@[simp] theorem Ctx.setStream_slip (c : Ctx) (i : Nat) (t : Stream) : (c.setStream i t).slip = c.slip := rfl
@[simp] theorem Ctx.setStream_exposed (c : Ctx) (i : Nat) (t : Stream) : (c.setStream i t).exposed = c.exposed := rfl
@[simp] theorem Ctx.setStream_handler (c : Ctx) (i : Nat) (t : Stream) : (c.setStream i t).handler = c.handler := rfl
@[simp] theorem Ctx.setStream_flights (c : Ctx) (i : Nat) (t : Stream) : (c.setStream i t).flights = c.flights := rfl
@[simp] theorem Ctx.setStream_seqNext (c : Ctx) (i : Nat) (t : Stream) : (c.setStream i t).seqNext = c.seqNext := rfl
@[simp] theorem Ctx.setStream_v (c : Ctx) (i : Nat) (t : Stream) : (c.setStream i t).v = c.v := rfl
@[simp] theorem Ctx.setStream_k (c : Ctx) (i : Nat) (t : Stream) : (c.setStream i t).k = c.k := rfl
@[simp] theorem Ctx.setStream_cb (c : Ctx) (i : Nat) (t : Stream) : (c.setStream i t).cb = c.cb := rfl
@[simp] theorem Ctx.setStream_rowpred (c : Ctx) (i : Nat) (t : Stream) : (c.setStream i t).rowpred = c.rowpred := rfl
@[simp] theorem Ctx.setStream_z (c : Ctx) (i : Nat) (t : Stream) : (c.setStream i t).z = c.z := rfl
@[simp] theorem Ctx.setStream_nests (c : Ctx) (i : Nat) (t : Stream) : (c.setStream i t).nests = c.nests := rfl
@[simp] theorem Ctx.setStream_ports (c : Ctx) (i : Nat) (t : Stream) : (c.setStream i t).ports = c.ports := rfl
@[simp] theorem Ctx.setStream_rings (c : Ctx) (i : Nat) (t : Stream) : (c.setStream i t).rings = c.rings := rfl
@[simp] theorem Ctx.setStream_seq (c : Ctx) (i : Nat) (t : Stream) : (c.setStream i t).seq = c.seq := rfl
@[simp] theorem Ctx.setStream_staging (c : Ctx) (i : Nat) (t : Stream) : (c.setStream i t).staging = c.staging := rfl
@[simp] theorem Ctx.setStream_guards (c : Ctx) (i : Nat) (t : Stream) : (c.setStream i t).guards = c.guards := rfl
@[simp] theorem Ctx.setStream_lockS (c : Ctx) (i : Nat) (t : Stream) : (c.setStream i t).lockS = c.lockS := rfl
@[simp] theorem Ctx.setStream_lockL (c : Ctx) (i : Nat) (t : Stream) : (c.setStream i t).lockL = c.lockL := rfl
@[simp] theorem Ctx.setStream_vcvtpol (c : Ctx) (i : Nat) (t : Stream) : (c.setStream i t).vcvtpol = c.vcvtpol := rfl
@[simp] theorem Ctx.setStream_factctl (c : Ctx) (i : Nat) (t : Stream) : (c.setStream i t).factctl = c.factctl := rfl
@[simp] theorem Ctx.setStream_ftol (c : Ctx) (i : Nat) (t : Stream) : (c.setStream i t).ftol = c.ftol := rfl
@[simp] theorem Ctx.setStream_cycle (c : Ctx) (i : Nat) (t : Stream) : (c.setStream i t).cycle = c.cycle := rfl
@[simp] theorem Ctx.setStream_timecmp (c : Ctx) (i : Nat) (t : Stream) : (c.setStream i t).timecmp = c.timecmp := rfl
@[simp] theorem Ctx.setStream_timerEn (c : Ctx) (i : Nat) (t : Stream) : (c.setStream i t).timerEn = c.timerEn := rfl
@[simp] theorem Ctx.setStream_tvec (c : Ctx) (i : Nat) (t : Stream) : (c.setStream i t).tvec = c.tvec := rfl
@[simp] theorem Ctx.setStream_hcause (c : Ctx) (i : Nat) (t : Stream) : (c.setStream i t).hcause = c.hcause := rfl
@[simp] theorem Ctx.setStream_hfail (c : Ctx) (i : Nat) (t : Stream) : (c.setStream i t).hfail = c.hfail := rfl
@[simp] theorem Ctx.setStream_frameAddr (c : Ctx) (i : Nat) (t : Stream) : (c.setStream i t).frameAddr = c.frameAddr := rfl
@[simp] theorem Ctx.setStream_spbase (c : Ctx) (i : Nat) (t : Stream) : (c.setStream i t).spbase = c.spbase := rfl
@[simp] theorem Ctx.setStream_spadGrant (c : Ctx) (i : Nat) (t : Stream) : (c.setStream i t).spadGrant = c.spadGrant := rfl
@[simp] theorem Ctx.setStream_plyGrant (c : Ctx) (i : Nat) (t : Stream) : (c.setStream i t).plyGrant = c.plyGrant := rfl
@[simp] theorem Ctx.setStream_retrNext (c : Ctx) (i : Nat) (t : Stream) : (c.setStream i t).retrNext = c.retrNext := rfl
@[simp] theorem Ctx.setStream_freeze (c : Ctx) (i : Nat) (t : Stream) : (c.setStream i t).freeze = c.freeze := rfl
@[simp] theorem Ctx.setStream_wants (c : Ctx) (i : Nat) (t : Stream) : (c.setStream i t).wants = c.wants := rfl
@[simp] theorem Ctx.setStream_conflicts (c : Ctx) (i : Nat) (t : Stream) : (c.setStream i t).conflicts = c.conflicts := rfl
@[simp] theorem Ctx.setStream_overflow (c : Ctx) (i : Nat) (t : Stream) : (c.setStream i t).overflow = c.overflow := rfl
@[simp] theorem Ctx.setStream_profNext (c : Ctx) (i : Nat) (t : Stream) : (c.setStream i t).profNext = c.profNext := rfl
@[simp] theorem Ctx.setStream_profDrops (c : Ctx) (i : Nat) (t : Stream) : (c.setStream i t).profDrops = c.profDrops := rfl
@[simp] theorem Ctx.setStream_profBusy (c : Ctx) (i : Nat) (t : Stream) : (c.setStream i t).profBusy = c.profBusy := rfl
@[simp] theorem Ctx.setStream_profClear (c : Ctx) (i : Nat) (t : Stream) : (c.setStream i t).profClear = c.profClear := rfl
@[simp] theorem Ctx.setStream_array (c : Ctx) (i : Nat) (t : Stream) : (c.setStream i t).array = c.array := rfl
@[simp] theorem Ctx.setStream_arrayFree (c : Ctx) (i : Nat) (t : Stream) : (c.setStream i t).arrayFree = c.arrayFree := rfl
@[simp] theorem Ctx.setStream_dbg (c : Ctx) (i : Nat) (t : Stream) : (c.setStream i t).dbg = c.dbg := rfl
@[simp] theorem Ctx.setStream_faults (c : Ctx) (i : Nat) (t : Stream) : (c.setStream i t).faults = c.faults := rfl
@[simp] theorem Ctx.setStream_saved (c : Ctx) (i : Nat) (t : Stream) : (c.setStream i t).saved = c.saved := rfl
@[simp] theorem Ctx.stream_setStream (c : Ctx) (i : Nat) (t : Stream) : (c.setStream i t).stream i = t := by
  simp [Ctx.stream, Ctx.setStream]

theorem Ctx.stream_setStream_ne (c : Ctx) {i j : Nat} (t : Stream) (h : i % 5 ≠ j % 5) :
    (c.setStream j t).stream i = c.stream i := by
  simp only [Ctx.stream, Ctx.setStream]
  exact Vector.getElem_set_ne _ _ (Ne.symm h)

/-! The host side, the retrieval system and the die -/

@[simp] theorem State.setHost_cores (s : State) (h : Host1) : (s.setHost h).cores = s.cores := rfl
@[simp] theorem State.setHost_die (s : State) (h : Host1) : (s.setHost h).die = s.die := rfl
@[simp] theorem State.setHost_retr (s : State) (h : Host1) : (s.setHost h).retr = s.retr := rfl
@[simp] theorem State.setHost_time (s : State) (h : Host1) : (s.setHost h).time = s.time := rfl
@[simp] theorem State.setHost_agenda (s : State) (h : Host1) : (s.setHost h).agenda = s.agenda := rfl
@[simp] theorem State.setHost_focus (s : State) (h : Host1) : (s.setHost h).focus = s.focus := rfl
@[simp] theorem State.setHost_freeCount (s : State) (h : Host1) : (s.setHost h).freeCount = s.freeCount := rfl
@[simp] theorem State.setHost_host (s : State) (h : Host1) : (s.setHost h).host = h := rfl
@[simp] theorem State.setQueue_cores (s : State) (q : Nat) (x : Queue) : (s.setQueue q x).cores = s.cores := rfl
@[simp] theorem State.setQueue_die (s : State) (q : Nat) (x : Queue) : (s.setQueue q x).die = s.die := rfl
@[simp] theorem State.setQueue_retr (s : State) (q : Nat) (x : Queue) : (s.setQueue q x).retr = s.retr := rfl
@[simp] theorem State.setQueue_time (s : State) (q : Nat) (x : Queue) : (s.setQueue q x).time = s.time := rfl
@[simp] theorem State.setQueue_agenda (s : State) (q : Nat) (x : Queue) : (s.setQueue q x).agenda = s.agenda := rfl
@[simp] theorem State.setQueue_focus (s : State) (q : Nat) (x : Queue) : (s.setQueue q x).focus = s.focus := rfl
@[simp] theorem State.setQueue_freeCount (s : State) (q : Nat) (x : Queue) : (s.setQueue q x).freeCount = s.freeCount := rfl
@[simp] theorem State.setPstat_cores (s : State) (p : Nat) (x : PStat) : (s.setPstat p x).cores = s.cores := rfl
@[simp] theorem State.setPstat_die (s : State) (p : Nat) (x : PStat) : (s.setPstat p x).die = s.die := rfl
@[simp] theorem State.setPstat_retr (s : State) (p : Nat) (x : PStat) : (s.setPstat p x).retr = s.retr := rfl
@[simp] theorem State.setPstat_time (s : State) (p : Nat) (x : PStat) : (s.setPstat p x).time = s.time := rfl
@[simp] theorem State.setPstat_agenda (s : State) (p : Nat) (x : PStat) : (s.setPstat p x).agenda = s.agenda := rfl
@[simp] theorem State.setPstat_focus (s : State) (p : Nat) (x : PStat) : (s.setPstat p x).focus = s.focus := rfl
@[simp] theorem State.setPstat_freeCount (s : State) (p : Nat) (x : PStat) : (s.setPstat p x).freeCount = s.freeCount := rfl
@[simp] theorem State.setRetr_cores (s : State) (r : Retr) : (s.setRetr r).cores = s.cores := rfl
@[simp] theorem State.setRetr_die (s : State) (r : Retr) : (s.setRetr r).die = s.die := rfl
@[simp] theorem State.setRetr_host (s : State) (r : Retr) : (s.setRetr r).host = s.host := rfl
@[simp] theorem State.setRetr_time (s : State) (r : Retr) : (s.setRetr r).time = s.time := rfl
@[simp] theorem State.setRetr_agenda (s : State) (r : Retr) : (s.setRetr r).agenda = s.agenda := rfl
@[simp] theorem State.setRetr_focus (s : State) (r : Retr) : (s.setRetr r).focus = s.focus := rfl
@[simp] theorem State.setRetr_freeCount (s : State) (r : Retr) : (s.setRetr r).freeCount = s.freeCount := rfl
@[simp] theorem State.setRetr_retr (s : State) (r : Retr) : (s.setRetr r).retr = r := rfl
@[simp] theorem State.setIdx_cores (s : State) (h : Nat) (x : Index) : (s.setIdx h x).cores = s.cores := rfl
@[simp] theorem State.setIdx_die (s : State) (h : Nat) (x : Index) : (s.setIdx h x).die = s.die := rfl
@[simp] theorem State.setIdx_host (s : State) (h : Nat) (x : Index) : (s.setIdx h x).host = s.host := rfl
@[simp] theorem State.setIdx_time (s : State) (h : Nat) (x : Index) : (s.setIdx h x).time = s.time := rfl
@[simp] theorem State.setIdx_agenda (s : State) (h : Nat) (x : Index) : (s.setIdx h x).agenda = s.agenda := rfl
@[simp] theorem State.setIdx_focus (s : State) (h : Nat) (x : Index) : (s.setIdx h x).focus = s.focus := rfl
@[simp] theorem State.setIdx_freeCount (s : State) (h : Nat) (x : Index) : (s.setIdx h x).freeCount = s.freeCount := rfl
@[simp] theorem State.setPart_cores (s : State) (p : Nat) (x : Partition) : (s.setPart p x).cores = s.cores := rfl
@[simp] theorem State.setPart_host (s : State) (p : Nat) (x : Partition) : (s.setPart p x).host = s.host := rfl
@[simp] theorem State.setPart_retr (s : State) (p : Nat) (x : Partition) : (s.setPart p x).retr = s.retr := rfl
@[simp] theorem State.setPart_time (s : State) (p : Nat) (x : Partition) : (s.setPart p x).time = s.time := rfl
@[simp] theorem State.setPart_agenda (s : State) (p : Nat) (x : Partition) : (s.setPart p x).agenda = s.agenda := rfl
@[simp] theorem State.setPart_focus (s : State) (p : Nat) (x : Partition) : (s.setPart p x).focus = s.focus := rfl
@[simp] theorem State.setPart_freeCount (s : State) (p : Nat) (x : Partition) : (s.setPart p x).freeCount = s.freeCount := rfl
@[simp] theorem State.setCluster_cores (s : State) (k : Nat) (x : Cluster) : (s.setCluster k x).cores = s.cores := rfl
@[simp] theorem State.setCluster_host (s : State) (k : Nat) (x : Cluster) : (s.setCluster k x).host = s.host := rfl
@[simp] theorem State.setCluster_retr (s : State) (k : Nat) (x : Cluster) : (s.setCluster k x).retr = s.retr := rfl
@[simp] theorem State.setCluster_time (s : State) (k : Nat) (x : Cluster) : (s.setCluster k x).time = s.time := rfl
@[simp] theorem State.setCluster_agenda (s : State) (k : Nat) (x : Cluster) : (s.setCluster k x).agenda = s.agenda := rfl
@[simp] theorem State.setCluster_focus (s : State) (k : Nat) (x : Cluster) : (s.setCluster k x).focus = s.focus := rfl
@[simp] theorem State.setCluster_freeCount (s : State) (k : Nat) (x : Cluster) : (s.setCluster k x).freeCount = s.freeCount := rfl
@[simp] theorem State.setProxy_cores (s : State) (x : Proxy) : (s.setProxy x).cores = s.cores := rfl
@[simp] theorem State.setProxy_host (s : State) (x : Proxy) : (s.setProxy x).host = s.host := rfl
@[simp] theorem State.setProxy_retr (s : State) (x : Proxy) : (s.setProxy x).retr = s.retr := rfl
@[simp] theorem State.setProxy_time (s : State) (x : Proxy) : (s.setProxy x).time = s.time := rfl
@[simp] theorem State.setProxy_agenda (s : State) (x : Proxy) : (s.setProxy x).agenda = s.agenda := rfl
@[simp] theorem State.setProxy_focus (s : State) (x : Proxy) : (s.setProxy x).focus = s.focus := rfl
@[simp] theorem State.setProxy_freeCount (s : State) (x : Proxy) : (s.setProxy x).freeCount = s.freeCount := rfl
@[simp] theorem State.setPart_die_mem (s : State) (p : Nat) (x : Partition) : (s.setPart p x).die.mem = s.die.mem := rfl
@[simp] theorem State.setPart_die_poison (s : State) (p : Nat) (x : Partition) : (s.setPart p x).die.poison = s.die.poison := rfl
@[simp] theorem State.setPart_die_llc (s : State) (p : Nat) (x : Partition) : (s.setPart p x).die.llc = s.die.llc := rfl
@[simp] theorem State.setPart_die_counters (s : State) (p : Nat) (x : Partition) : (s.setPart p x).die.counters = s.die.counters := rfl
@[simp] theorem State.setPart_die_regions (s : State) (p : Nat) (x : Partition) : (s.setPart p x).die.regions = s.die.regions := rfl
@[simp] theorem State.setCluster_die_mem (s : State) (k : Nat) (x : Cluster) : (s.setCluster k x).die.mem = s.die.mem := rfl
@[simp] theorem State.setCluster_die_poison (s : State) (k : Nat) (x : Cluster) : (s.setCluster k x).die.poison = s.die.poison := rfl
@[simp] theorem State.setCluster_die_llc (s : State) (k : Nat) (x : Cluster) : (s.setCluster k x).die.llc = s.die.llc := rfl
@[simp] theorem State.setCluster_die_counters (s : State) (k : Nat) (x : Cluster) : (s.setCluster k x).die.counters = s.die.counters := rfl
@[simp] theorem State.setCluster_die_regions (s : State) (k : Nat) (x : Cluster) : (s.setCluster k x).die.regions = s.die.regions := rfl
@[simp] theorem State.setProxy_die_mem (s : State) (x : Proxy) : (s.setProxy x).die.mem = s.die.mem := rfl
@[simp] theorem State.setProxy_die_poison (s : State) (x : Proxy) : (s.setProxy x).die.poison = s.die.poison := rfl
@[simp] theorem State.setProxy_die_llc (s : State) (x : Proxy) : (s.setProxy x).die.llc = s.die.llc := rfl
@[simp] theorem State.setProxy_die_counters (s : State) (x : Proxy) : (s.setProxy x).die.counters = s.die.counters := rfl
@[simp] theorem State.setProxy_die_regions (s : State) (x : Proxy) : (s.setProxy x).die.regions = s.die.regions := rfl

/-! Links, gangs, and what an access leaves of its context -/

@[simp] theorem State.cluster_setCluster (s : State) {k : Nat} (x : Cluster) (hk : k < 16) : (s.setCluster k x).cluster k = x := by
  simp [State.cluster, State.setCluster, vget, vset, hk]

theorem State.cluster_setCluster_ne (s : State) {k m : Nat} (x : Cluster) (h : m ≠ k) : (s.setCluster k x).cluster m = s.cluster m := by
  simp [State.cluster, State.setCluster, vget, vset, Ne.symm h]

@[simp] theorem State.setCluster_die_clears (s : State) (k : Nat) (x : Cluster) : (s.setCluster k x).die.clears = s.die.clears := rfl
@[simp] theorem State.setCluster_die_ovfNow (s : State) (k : Nat) (x : Cluster) : (s.setCluster k x).die.ovfNow = s.die.ovfNow := rfl
@[simp] theorem State.setCluster_die_gangs (s : State) (k : Nat) (x : Cluster) : (s.setCluster k x).die.gangs = s.die.gangs := rfl
@[simp] theorem State.setCluster_die_guardReqs (s : State) (k : Nat) (x : Cluster) : (s.setCluster k x).die.guardReqs = s.die.guardReqs := rfl
@[simp] theorem State.setCluster_die_proxies (s : State) (k : Nat) (x : Cluster) : (s.setCluster k x).die.proxies = s.die.proxies := rfl
@[simp] theorem State.setCluster_die_tlbQueue (s : State) (k : Nat) (x : Cluster) : (s.setCluster k x).die.tlbQueue = s.die.tlbQueue := rfl
@[simp] theorem State.setGang_cores (s : State) (g : Gang) : (s.setGang g).cores = s.cores := rfl
@[simp] theorem State.setGang_host (s : State) (g : Gang) : (s.setGang g).host = s.host := rfl
@[simp] theorem State.setGang_retr (s : State) (g : Gang) : (s.setGang g).retr = s.retr := rfl
@[simp] theorem State.setGang_time (s : State) (g : Gang) : (s.setGang g).time = s.time := rfl
@[simp] theorem State.setGang_agenda (s : State) (g : Gang) : (s.setGang g).agenda = s.agenda := rfl
@[simp] theorem State.setGang_focus (s : State) (g : Gang) : (s.setGang g).focus = s.focus := rfl
@[simp] theorem State.setGang_freeCount (s : State) (g : Gang) : (s.setGang g).freeCount = s.freeCount := rfl
@[simp] theorem State.setGang_die_mem (s : State) (g : Gang) : (s.setGang g).die.mem = s.die.mem := rfl
@[simp] theorem State.setGang_die_poison (s : State) (g : Gang) : (s.setGang g).die.poison = s.die.poison := rfl
@[simp] theorem State.setGang_die_clusters (s : State) (g : Gang) : (s.setGang g).die.clusters = s.die.clusters := rfl
@[simp] theorem State.setGang_die_regions (s : State) (g : Gang) : (s.setGang g).die.regions = s.die.regions := rfl
@[simp] theorem State.setGang_die_guardReqs (s : State) (g : Gang) : (s.setGang g).die.guardReqs = s.die.guardReqs := rfl
@[simp] theorem State.setGang_die_proxies (s : State) (g : Gang) : (s.setGang g).die.proxies = s.die.proxies := rfl
@[simp] theorem State.dropGang_cores (s : State) (n : Nat) : (s.dropGang n).cores = s.cores := rfl
@[simp] theorem State.dropGang_host (s : State) (n : Nat) : (s.dropGang n).host = s.host := rfl
@[simp] theorem State.dropGang_retr (s : State) (n : Nat) : (s.dropGang n).retr = s.retr := rfl
@[simp] theorem State.dropGang_time (s : State) (n : Nat) : (s.dropGang n).time = s.time := rfl
@[simp] theorem State.dropGang_agenda (s : State) (n : Nat) : (s.dropGang n).agenda = s.agenda := rfl
@[simp] theorem State.dropGang_focus (s : State) (n : Nat) : (s.dropGang n).focus = s.focus := rfl
@[simp] theorem State.dropGang_freeCount (s : State) (n : Nat) : (s.dropGang n).freeCount = s.freeCount := rfl
@[simp] theorem State.dropGang_die_mem (s : State) (n : Nat) : (s.dropGang n).die.mem = s.die.mem := rfl
@[simp] theorem State.dropGang_die_poison (s : State) (n : Nat) : (s.dropGang n).die.poison = s.die.poison := rfl
@[simp] theorem State.dropGang_die_clusters (s : State) (n : Nat) : (s.dropGang n).die.clusters = s.die.clusters := rfl
@[simp] theorem State.dropGang_die_regions (s : State) (n : Nat) : (s.dropGang n).die.regions = s.die.regions := rfl
@[simp] theorem State.dropGang_die_guardReqs (s : State) (n : Nat) : (s.dropGang n).die.guardReqs = s.die.guardReqs := rfl
@[simp] theorem State.dropGang_die_proxies (s : State) (n : Nat) : (s.dropGang n).die.proxies = s.die.proxies := rfl
@[simp] theorem Ctx.prevail_task (c : Ctx) (st seq : Nat) (spad : Bool) (cs : List StoreCell) : (c.prevail st seq spad cs).task = c.task := rfl
@[simp] theorem Ctx.prevail_streams (c : Ctx) (st seq : Nat) (spad : Bool) (cs : List StoreCell) : (c.prevail st seq spad cs).streams = c.streams := rfl
@[simp] theorem Ctx.prevail_b (c : Ctx) (st seq : Nat) (spad : Bool) (cs : List StoreCell) : (c.prevail st seq spad cs).b = c.b := rfl
@[simp] theorem Ctx.prevail_outcomes (c : Ctx) (st seq : Nat) (spad : Bool) (cs : List StoreCell) : (c.prevail st seq spad cs).outcomes = c.outcomes := rfl
@[simp] theorem Ctx.prevail_tokens (c : Ctx) (st seq : Nat) (spad : Bool) (cs : List StoreCell) : (c.prevail st seq spad cs).tokens = c.tokens := rfl
@[simp] theorem Ctx.prevail_events (c : Ctx) (st seq : Nat) (spad : Bool) (cs : List StoreCell) : (c.prevail st seq spad cs).events = c.events := rfl
@[simp] theorem Ctx.prevail_exposed (c : Ctx) (st seq : Nat) (spad : Bool) (cs : List StoreCell) : (c.prevail st seq spad cs).exposed = c.exposed := rfl
@[simp] theorem Ctx.prevail_handler (c : Ctx) (st seq : Nat) (spad : Bool) (cs : List StoreCell) : (c.prevail st seq spad cs).handler = c.handler := rfl
@[simp] theorem Ctx.prevail_v (c : Ctx) (st seq : Nat) (spad : Bool) (cs : List StoreCell) : (c.prevail st seq spad cs).v = c.v := rfl
@[simp] theorem Ctx.prevail_k (c : Ctx) (st seq : Nat) (spad : Bool) (cs : List StoreCell) : (c.prevail st seq spad cs).k = c.k := rfl
@[simp] theorem Ctx.prevail_cb (c : Ctx) (st seq : Nat) (spad : Bool) (cs : List StoreCell) : (c.prevail st seq spad cs).cb = c.cb := rfl
@[simp] theorem Ctx.prevail_z (c : Ctx) (st seq : Nat) (spad : Bool) (cs : List StoreCell) : (c.prevail st seq spad cs).z = c.z := rfl
@[simp] theorem Ctx.prevail_nests (c : Ctx) (st seq : Nat) (spad : Bool) (cs : List StoreCell) : (c.prevail st seq spad cs).nests = c.nests := rfl
@[simp] theorem Ctx.prevail_ports (c : Ctx) (st seq : Nat) (spad : Bool) (cs : List StoreCell) : (c.prevail st seq spad cs).ports = c.ports := rfl
@[simp] theorem Ctx.prevail_rings (c : Ctx) (st seq : Nat) (spad : Bool) (cs : List StoreCell) : (c.prevail st seq spad cs).rings = c.rings := rfl
@[simp] theorem Ctx.prevail_seq (c : Ctx) (st seq : Nat) (spad : Bool) (cs : List StoreCell) : (c.prevail st seq spad cs).seq = c.seq := rfl
@[simp] theorem Ctx.prevail_guards (c : Ctx) (st seq : Nat) (spad : Bool) (cs : List StoreCell) : (c.prevail st seq spad cs).guards = c.guards := rfl
@[simp] theorem Ctx.prevail_lockS (c : Ctx) (st seq : Nat) (spad : Bool) (cs : List StoreCell) : (c.prevail st seq spad cs).lockS = c.lockS := rfl
@[simp] theorem Ctx.prevail_lockL (c : Ctx) (st seq : Nat) (spad : Bool) (cs : List StoreCell) : (c.prevail st seq spad cs).lockL = c.lockL := rfl
@[simp] theorem Ctx.prevail_cycle (c : Ctx) (st seq : Nat) (spad : Bool) (cs : List StoreCell) : (c.prevail st seq spad cs).cycle = c.cycle := rfl
@[simp] theorem Ctx.prevail_spbase (c : Ctx) (st seq : Nat) (spad : Bool) (cs : List StoreCell) : (c.prevail st seq spad cs).spbase = c.spbase := rfl
@[simp] theorem Ctx.prevail_spadGrant (c : Ctx) (st seq : Nat) (spad : Bool) (cs : List StoreCell) : (c.prevail st seq spad cs).spadGrant = c.spadGrant := rfl
@[simp] theorem Ctx.prevail_faults (c : Ctx) (st seq : Nat) (spad : Bool) (cs : List StoreCell) : (c.prevail st seq spad cs).faults = c.faults := rfl
@[simp] theorem Ctx.prevail_wants (c : Ctx) (st seq : Nat) (spad : Bool) (cs : List StoreCell) : (c.prevail st seq spad cs).wants = c.wants := rfl
@[simp] theorem Ctx.prevail_conflicts (c : Ctx) (st seq : Nat) (spad : Bool) (cs : List StoreCell) : (c.prevail st seq spad cs).conflicts = c.conflicts := rfl
@[simp] theorem Ctx.askBanks_task (c : Ctx) (req : Nat) (spans : List (Nat × Nat)) : (c.askBanks req spans).task = c.task := rfl
@[simp] theorem Ctx.askBanks_streams (c : Ctx) (req : Nat) (spans : List (Nat × Nat)) : (c.askBanks req spans).streams = c.streams := rfl
@[simp] theorem Ctx.askBanks_b (c : Ctx) (req : Nat) (spans : List (Nat × Nat)) : (c.askBanks req spans).b = c.b := rfl
@[simp] theorem Ctx.askBanks_outcomes (c : Ctx) (req : Nat) (spans : List (Nat × Nat)) : (c.askBanks req spans).outcomes = c.outcomes := rfl
@[simp] theorem Ctx.askBanks_tokens (c : Ctx) (req : Nat) (spans : List (Nat × Nat)) : (c.askBanks req spans).tokens = c.tokens := rfl
@[simp] theorem Ctx.askBanks_events (c : Ctx) (req : Nat) (spans : List (Nat × Nat)) : (c.askBanks req spans).events = c.events := rfl
@[simp] theorem Ctx.askBanks_exposed (c : Ctx) (req : Nat) (spans : List (Nat × Nat)) : (c.askBanks req spans).exposed = c.exposed := rfl
@[simp] theorem Ctx.askBanks_handler (c : Ctx) (req : Nat) (spans : List (Nat × Nat)) : (c.askBanks req spans).handler = c.handler := rfl
@[simp] theorem Ctx.askBanks_v (c : Ctx) (req : Nat) (spans : List (Nat × Nat)) : (c.askBanks req spans).v = c.v := rfl
@[simp] theorem Ctx.askBanks_k (c : Ctx) (req : Nat) (spans : List (Nat × Nat)) : (c.askBanks req spans).k = c.k := rfl
@[simp] theorem Ctx.askBanks_cb (c : Ctx) (req : Nat) (spans : List (Nat × Nat)) : (c.askBanks req spans).cb = c.cb := rfl
@[simp] theorem Ctx.askBanks_z (c : Ctx) (req : Nat) (spans : List (Nat × Nat)) : (c.askBanks req spans).z = c.z := rfl
@[simp] theorem Ctx.askBanks_nests (c : Ctx) (req : Nat) (spans : List (Nat × Nat)) : (c.askBanks req spans).nests = c.nests := rfl
@[simp] theorem Ctx.askBanks_ports (c : Ctx) (req : Nat) (spans : List (Nat × Nat)) : (c.askBanks req spans).ports = c.ports := rfl
@[simp] theorem Ctx.askBanks_rings (c : Ctx) (req : Nat) (spans : List (Nat × Nat)) : (c.askBanks req spans).rings = c.rings := rfl
@[simp] theorem Ctx.askBanks_seq (c : Ctx) (req : Nat) (spans : List (Nat × Nat)) : (c.askBanks req spans).seq = c.seq := rfl
@[simp] theorem Ctx.askBanks_guards (c : Ctx) (req : Nat) (spans : List (Nat × Nat)) : (c.askBanks req spans).guards = c.guards := rfl
@[simp] theorem Ctx.askBanks_lockS (c : Ctx) (req : Nat) (spans : List (Nat × Nat)) : (c.askBanks req spans).lockS = c.lockS := rfl
@[simp] theorem Ctx.askBanks_lockL (c : Ctx) (req : Nat) (spans : List (Nat × Nat)) : (c.askBanks req spans).lockL = c.lockL := rfl
@[simp] theorem Ctx.askBanks_cycle (c : Ctx) (req : Nat) (spans : List (Nat × Nat)) : (c.askBanks req spans).cycle = c.cycle := rfl
@[simp] theorem Ctx.askBanks_spbase (c : Ctx) (req : Nat) (spans : List (Nat × Nat)) : (c.askBanks req spans).spbase = c.spbase := rfl
@[simp] theorem Ctx.askBanks_spadGrant (c : Ctx) (req : Nat) (spans : List (Nat × Nat)) : (c.askBanks req spans).spadGrant = c.spadGrant := rfl
@[simp] theorem Ctx.askBanks_faults (c : Ctx) (req : Nat) (spans : List (Nat × Nat)) : (c.askBanks req spans).faults = c.faults := rfl
@[simp] theorem Ctx.askBanks_flights (c : Ctx) (req : Nat) (spans : List (Nat × Nat)) : (c.askBanks req spans).flights = c.flights := rfl
@[simp] theorem Ctx.askBanks_saved (c : Ctx) (req : Nat) (spans : List (Nat × Nat)) : (c.askBanks req spans).saved = c.saved := rfl
@[simp] theorem Ctx.askBanks_conflicts (c : Ctx) (req : Nat) (spans : List (Nat × Nat)) : (c.askBanks req spans).conflicts = c.conflicts := rfl
@[simp] theorem Ctx.resolve_task (c : Ctx) (seq : Nat) (dst : Option Target) (v : Word) : (c.resolve seq dst v).task = c.task := rfl
@[simp] theorem Ctx.resolve_streams (c : Ctx) (seq : Nat) (dst : Option Target) (v : Word) : (c.resolve seq dst v).streams = c.streams := rfl
@[simp] theorem Ctx.resolve_b (c : Ctx) (seq : Nat) (dst : Option Target) (v : Word) : (c.resolve seq dst v).b = c.b := rfl
@[simp] theorem Ctx.resolve_outcomes (c : Ctx) (seq : Nat) (dst : Option Target) (v : Word) : (c.resolve seq dst v).outcomes = c.outcomes := rfl
@[simp] theorem Ctx.resolve_tokens (c : Ctx) (seq : Nat) (dst : Option Target) (v : Word) : (c.resolve seq dst v).tokens = c.tokens := rfl
@[simp] theorem Ctx.resolve_events (c : Ctx) (seq : Nat) (dst : Option Target) (v : Word) : (c.resolve seq dst v).events = c.events := rfl
@[simp] theorem Ctx.resolve_exposed (c : Ctx) (seq : Nat) (dst : Option Target) (v : Word) : (c.resolve seq dst v).exposed = c.exposed := rfl
@[simp] theorem Ctx.resolve_handler (c : Ctx) (seq : Nat) (dst : Option Target) (v : Word) : (c.resolve seq dst v).handler = c.handler := rfl
@[simp] theorem Ctx.resolve_v (c : Ctx) (seq : Nat) (dst : Option Target) (v : Word) : (c.resolve seq dst v).v = c.v := rfl
@[simp] theorem Ctx.resolve_k (c : Ctx) (seq : Nat) (dst : Option Target) (v : Word) : (c.resolve seq dst v).k = c.k := rfl
@[simp] theorem Ctx.resolve_cb (c : Ctx) (seq : Nat) (dst : Option Target) (v : Word) : (c.resolve seq dst v).cb = c.cb := rfl
@[simp] theorem Ctx.resolve_z (c : Ctx) (seq : Nat) (dst : Option Target) (v : Word) : (c.resolve seq dst v).z = c.z := rfl
@[simp] theorem Ctx.resolve_nests (c : Ctx) (seq : Nat) (dst : Option Target) (v : Word) : (c.resolve seq dst v).nests = c.nests := rfl
@[simp] theorem Ctx.resolve_ports (c : Ctx) (seq : Nat) (dst : Option Target) (v : Word) : (c.resolve seq dst v).ports = c.ports := rfl
@[simp] theorem Ctx.resolve_rings (c : Ctx) (seq : Nat) (dst : Option Target) (v : Word) : (c.resolve seq dst v).rings = c.rings := rfl
@[simp] theorem Ctx.resolve_seq (c : Ctx) (seq : Nat) (dst : Option Target) (v : Word) : (c.resolve seq dst v).seq = c.seq := rfl
@[simp] theorem Ctx.resolve_guards (c : Ctx) (seq : Nat) (dst : Option Target) (v : Word) : (c.resolve seq dst v).guards = c.guards := rfl
@[simp] theorem Ctx.resolve_lockS (c : Ctx) (seq : Nat) (dst : Option Target) (v : Word) : (c.resolve seq dst v).lockS = c.lockS := rfl
@[simp] theorem Ctx.resolve_lockL (c : Ctx) (seq : Nat) (dst : Option Target) (v : Word) : (c.resolve seq dst v).lockL = c.lockL := rfl
@[simp] theorem Ctx.resolve_cycle (c : Ctx) (seq : Nat) (dst : Option Target) (v : Word) : (c.resolve seq dst v).cycle = c.cycle := rfl
@[simp] theorem Ctx.resolve_spbase (c : Ctx) (seq : Nat) (dst : Option Target) (v : Word) : (c.resolve seq dst v).spbase = c.spbase := rfl
@[simp] theorem Ctx.resolve_spadGrant (c : Ctx) (seq : Nat) (dst : Option Target) (v : Word) : (c.resolve seq dst v).spadGrant = c.spadGrant := rfl
@[simp] theorem Ctx.resolve_faults (c : Ctx) (seq : Nat) (dst : Option Target) (v : Word) : (c.resolve seq dst v).faults = c.faults := rfl
@[simp] theorem Ctx.resolve_saved (c : Ctx) (seq : Nat) (dst : Option Target) (v : Word) : (c.resolve seq dst v).saved = c.saved := rfl
@[simp] theorem Ctx.resolve_wants (c : Ctx) (seq : Nat) (dst : Option Target) (v : Word) : (c.resolve seq dst v).wants = c.wants := rfl
@[simp] theorem Ctx.resolve_conflicts (c : Ctx) (seq : Nat) (dst : Option Target) (v : Word) : (c.resolve seq dst v).conflicts = c.conflicts := rfl

/-- A command sent takes one permit and stands last on the link (R353). -/
theorem State.sendLink_cluster (s : State) {k : Nat} (hk : k < 16) (i : Instr) (h : (s.cluster k).permits ≠ 0) :
    (s.sendLink k i).cluster k = { s.cluster k with permits := (s.cluster k).permits - 1, link := (s.cluster k).link ++ [i] } := by
  simp [State.sendLink, h, hk]

/-- A reply taken returns its permit (R353). -/
theorem State.takeReply_cluster (s : State) {k : Nat} (hk : k < 16) (i : Instr) (l : List Instr) (h : (s.cluster k).back = i :: l) :
    (s.takeReply k).cluster k = { s.cluster k with back := l, replies := (s.cluster k).replies + 1 } := by
  simp [State.takeReply, h, hk]

/-- A cell keeps its place and its value; only its mask can shrink (R119). -/
theorem StoreCell.under_pa (x : StoreCell) (later : List StoreCell) : (x.under later).pa = x.pa := by
  unfold StoreCell.under
  induction later generalizing x with
  | nil => rfl
  | cons y ys ih => simp only [List.foldl_cons]; rw [ih]; split <;> rfl

theorem StoreCell.under_val (x : StoreCell) (later : List StoreCell) : (x.under later).val = x.val := by
  unfold StoreCell.under
  induction later generalizing x with
  | nil => rfl
  | cons y ys ih => simp only [List.foldl_cons]; rw [ih]; split <;> rfl

end Sys2Proof.Machine
end

