-- ==== Sys2Proof/Laws/Issue.lean ====
section
/-! SUPPORT. What the shared issue of an instruction of code can do: it waits, it is skipped by its predicate, it traps, or its
body's effects are entered. -/

namespace Sys2Proof.Machine

/-- An instruction that may issue and whose body goes on leaves the state of its issue. -/
theorem State.issue_ok {s s1 : State} {i : Instr} {w : Ins} {extra : List Res} {early : State → Option Trap}
    {ready : State → Bool} {body : State → Nat → Word → IssueRes} {effs : List Effect} {payload : Word} {lat : Nat}
    (hm : s.mayIssue w extra = true) (hr : ready s = true) (he : early s = none)
    (hb : body s (s.streamOf w) (s.popped w) = .ok s1 effs payload lat) :
    s.issue i w profileHook extra early ready body = s.issued s1 i w effs payload lat := by
  simp only [State.mayIssue, Bool.and_eq_true, Bool.not_eq_true', decide_eq_true_eq] at hm
  obtain ⟨⟨⟨⟨h1, h2⟩, h3⟩, h4⟩, h5⟩ := hm
  have h1' : ¬ 64 ≤ s.ctx.issuedCount (s.streamOf w) := by omega
  simp only [State.popped] at hb
  simp [State.issue, h1', h2, h3, h4, h5, hr, he, hb, State.issued, State.opA, State.opB, State.opC, State.popped]

/-- An instruction that may issue and that raises a trap at its issue enters the trap. -/
theorem State.issue_early {s : State} {i : Instr} {w : Ins} {extra : List Res} {early : State → Option Trap} {t : Trap}
    {ready : State → Bool} {body : State → Nat → Word → IssueRes}
    (hm : s.mayIssue w extra = true) (hr : ready s = true) (he : early s = some t) :
    s.issue i w profileHook extra early ready body = s.raise (s.streamOf w) i.word t none := by
  simp only [State.mayIssue, Bool.and_eq_true, Bool.not_eq_true', decide_eq_true_eq] at hm
  obtain ⟨⟨⟨⟨h1, h2⟩, h3⟩, h4⟩, h5⟩ := hm
  have h1' : ¬ 64 ≤ s.ctx.issuedCount (s.streamOf w) := by omega
  simp [State.issue, h1', h2, h3, h4, h5, hr, he]

/-- An instruction that may issue and whose body traps leaves the trap with its issue work. -/
theorem State.issue_trap {s : State} {i : Instr} {w : Ins} {extra : List Res} {early : State → Option Trap} {t : Trap}
    {ready : State → Bool} {body : State → Nat → Word → IssueRes}
    (hm : s.mayIssue w extra = true) (hr : ready s = true) (he : early s = none)
    (hb : body s (s.streamOf w) (s.popped w) = .trap t) :
    s.issue i w profileHook extra early ready body = s.trapped s i w t := by
  simp only [State.mayIssue, Bool.and_eq_true, Bool.not_eq_true', decide_eq_true_eq] at hm
  obtain ⟨⟨⟨⟨h1, h2⟩, h3⟩, h4⟩, h5⟩ := hm
  have h1' : ¬ 64 ≤ s.ctx.issuedCount (s.streamOf w) := by omega
  simp only [State.popped] at hb
  simp [State.issue, h1', h2, h3, h4, h5, hr, he, hb, State.trapped]

/-- All that the issue of an instruction of code can do: the context freezes, the stream waits, the instruction is skipped by its
predicate, its issue traps before or after its issue work, the body answers a state of its own, or its effects are entered. -/
theorem State.issue_cases (s : State) (i : Instr) (w : Ins) (extra : List Res) (early : State → Option Trap)
    (ready : State → Bool) (body : State → Nat → Word → IssueRes) :
    let u := s.issue i w profileHook extra early ready body
    let r := body s (s.streamOf w) (s.popped w)
    (s.ctx.exposed = true ∧ u = s.frozen) ∨ u = s.passTurn (s.streamOf w) ∨
      (s.predHolds w = false ∧ u = s.issued s i w [] 0) ∨
      (∃ t, early s = some t ∧ u = s.raise (s.streamOf w) i.word t none) ∨
      r = .stay u ∨ (∃ t, r = .trap t ∧ u = s.trapped s i w t) ∨ (∃ s1 t, r = .trapIn s1 t ∧ u = s.trapped s1 i w t) ∨
      ∃ s1 effs payload lat, r = .ok s1 effs payload lat ∧ u = s.issued s1 i w effs payload lat := by
  simp only [State.issue, State.issued, State.trapped, State.popped, State.opA, State.opB, State.opC]
  split
  · split <;> simp [*]
  · split
    · simp
    · split
      · simp_all
      · split
        · simp
        · split
          · simp
          · split
            · rename_i t h
              simp [h]
            · split
              · simp
              · rename_i h
                simp [h]
              · rename_i h
                simp [h]
              · rename_i h
                exact .inr (.inr (.inr (.inr (.inr (.inr (.inl ⟨_, _, h, rfl⟩))))))
              · rename_i h
                exact .inr (.inr (.inr (.inr (.inr (.inr (.inr ⟨_, _, _, _, h, rfl⟩))))))

/-- `State.issue_ok` for the common issue. -/
theorem State.run_ok {s s1 : State} {i : Instr} {w : Ins} {early : State → Option Trap}
    {body : State → Nat → Word → IssueRes} {effs : List Effect} {payload : Word} {lat : Nat}
    (hm : s.mayIssue w = true) (he : early s = none)
    (hb : body s (s.streamOf w) (s.popped w) = .ok s1 effs payload lat) :
    s.run i w early body = .next (s.issued s1 i w effs payload lat) := by
  rw [State.run, State.issue_ok hm rfl he hb]

/-- The issue of an instruction that computes one scalar result. -/
theorem State.alu_ok {s : State} {i : Instr} {w : Ins} {f : Word → Word → Word → Word} (hm : s.mayIssue w = true) :
    s.alu i w f = .next (s.issued s i w (s.ctx.result (s.streamOf w) w.dst (f (s.opA w) (s.opB w) (s.opC w)))
      (f (s.opA w) (s.opB w) (s.opC w))) :=
  State.run_ok hm rfl rfl

end Sys2Proof.Machine
end

