-- ==== Sys2Proof/Laws/Mem.lean ====
section
/-! SUPPORT. Every memory operation keeps the canonical form, and what a read gives after a store. -/

namespace Sys2Proof.Machine

theorem Mem.sorted_iff (m : Mem) : Mem.sorted m = true ↔ m.Pairwise fun a b => a.1 < b.1 := by
  induction m with
  | nil => simp [Mem.sorted]
  | cons a rest ih =>
    cases rest with
    | nil => simp [Mem.sorted]
    | cons b rest =>
      simp only [Mem.sorted, Bool.and_eq_true, decide_eq_true_eq, ih, List.pairwise_cons (a := a)]
      constructor
      · rintro ⟨h, p⟩
        refine ⟨fun c hc => ?_, p⟩
        rcases List.mem_cons.1 hc with rfl | hc
        · exact h
        · exact Nat.lt_trans h ((List.pairwise_cons.1 p).1 c hc)
      · exact fun ⟨h, p⟩ => ⟨h b (by simp), p⟩

theorem Mem.wf_iff (m : Mem) :
    Mem.wf m = true ↔ (m.Pairwise fun a b => a.1 < b.1) ∧ ∀ c ∈ m, c.2 ≠ Mem.blank := by
  simp only [Mem.wf, Bool.and_eq_true, Mem.sorted_iff, List.all_eq_true, bne_iff_ne]

/-- The entries written for consecutive bytes stand in their range. -/
theorem Mem.cells_range {a : Nat} {bs : List Byte} {c : Nat × Byte} (h : c ∈ Mem.cells a bs) :
    a ≤ c.1 ∧ c.1 < a + bs.length ∧ c.2 ≠ Mem.blank := by
  induction bs generalizing a with
  | nil => simp [Mem.cells] at h
  | cons b bs ih =>
    simp only [Mem.cells] at h
    split at h
    · have := ih h; simp only [List.length_cons]; exact ⟨by omega, by omega, this.2.2⟩
    · rcases List.mem_cons.1 h with rfl | h
      · simp_all
      · have := ih h; simp only [List.length_cons]; exact ⟨by omega, by omega, this.2.2⟩

theorem Mem.cells_pairwise (a : Nat) (bs : List Byte) : (Mem.cells a bs).Pairwise fun a b => a.1 < b.1 := by
  induction bs generalizing a with
  | nil => simp [Mem.cells]
  | cons b bs ih =>
    simp only [Mem.cells]
    split
    · exact ih _
    · exact List.pairwise_cons.2 ⟨fun c hc => (Mem.cells_range hc).1, ih _⟩

/-- A store keeps the canonical form. -/
theorem Mem.store_wf {m : Mem} (h : Mem.wf m = true) (a : Nat) (bs : List Byte) : Mem.wf (Mem.store m a bs) = true := by
  obtain ⟨hp, hb⟩ := (Mem.wf_iff m).1 h
  rw [Mem.wf_iff, Mem.store]
  constructor
  · refine List.pairwise_append.2 ⟨List.pairwise_append.2 ⟨hp.filter _, Mem.cells_pairwise a bs, ?_⟩, hp.filter _, ?_⟩
    · intro x hx y hy
      have h1 := (List.mem_filter.1 hx).2
      have h2 := (Mem.cells_range hy).1
      simp only [decide_eq_true_eq] at h1
      omega
    · intro x hx y hy
      have h2 := (List.mem_filter.1 hy).2
      simp only [decide_eq_true_eq] at h2
      rcases List.mem_append.1 hx with hx | hx
      · have h1 := (List.mem_filter.1 hx).2
        simp only [decide_eq_true_eq] at h1
        omega
      · have h1 := (Mem.cells_range hx).2.1
        omega
  · intro c hc
    rcases List.mem_append.1 hc with hc | hc
    · rcases List.mem_append.1 hc with hc | hc
      · exact hb c (List.mem_filter.1 hc).1
      · exact (Mem.cells_range hc).2.2
    · exact hb c (List.mem_filter.1 hc).1

theorem Mem.write_wf {m : Mem} (h : Mem.wf m = true) (a : Nat) (b : Byte) : Mem.wf (Mem.write m a b) = true :=
  Mem.store_wf h a [b]

theorem Mem.writeBits_wf {m : Mem} (h : Mem.wf m = true) (a : Nat) (b k : Byte) : Mem.wf (Mem.writeBits m a b k) = true :=
  Mem.write_wf h a _

theorem Mem.read_append (m n : Mem) (x : Nat) :
    Mem.read (m ++ n) x = if m.any (fun c => c.1 == x) then Mem.read m x else Mem.read n x := by
  induction m with
  | nil => simp
  | cons c m ih =>
    simp only [List.cons_append, Mem.read, List.any_cons]
    by_cases h : c.1 = x
    · simp [h]
    · simp [h, ih]

theorem Mem.read_absent {m : Mem} {x : Nat} (h : ∀ c ∈ m, c.1 ≠ x) : Mem.read m x = Mem.blank := by
  induction m with
  | nil => rfl
  | cons c m ih =>
    simp only [Mem.read]
    rw [if_neg (h c (by simp)), ih fun d hd => h d (by simp [hd])]

/-- Filtering by the address leaves the reads of the addresses kept. -/
theorem Mem.read_filter (m : Mem) (p : Nat → Bool) (x : Nat) :
    Mem.read (m.filter fun c => p c.1) x = if p x = true then Mem.read m x else Mem.blank := by
  induction m with
  | nil => simp [Mem.read]
  | cons c m ih =>
    by_cases hc : c.1 = x
    · subst hc
      by_cases hp : p c.1 = true <;> simp [Mem.read, List.filter, hp]
      simpa [hp] using ih
    · by_cases hp : p c.1 = true <;> simp [Mem.read, List.filter, hp, hc, ih]

theorem Mem.read_cells {a : Nat} {bs : List Byte} {x : Nat} (h1 : a ≤ x) :
    Mem.read (Mem.cells a bs) x = (bs[x - a]?).getD Mem.blank := by
  induction bs generalizing a with
  | nil => simp [Mem.cells, Mem.read]
  | cons b bs ih =>
    simp only [Mem.cells]
    by_cases hx : a = x
    · subst hx
      split
      · next hb =>
        rw [Mem.read_absent]
        · simp [hb]
        · intro c hc; have := (Mem.cells_range hc).1; omega
      · simp [Mem.read]
    · have hs : x - a = (x - (a + 1)) + 1 := by omega
      have := ih (a := a + 1) (by omega)
      split
      · rw [this, hs]; simp
      · simp only [Mem.read]; rw [if_neg (by simpa using hx), this, hs]; simp

/-- Reading several bytes is reading each. -/
theorem Mem.load_eq (m : Mem) (a n : Nat) : Mem.load m a n = (List.range n).map fun i => Mem.read m (a + i) := by
  simp only [Mem.load]
  refine List.map_congr_left fun i hi => ?_
  have hi := List.mem_range.1 hi
  have h := Mem.read_filter m (fun y => decide (a ≤ y) && decide (y < a + n)) (a + i)
  simp only [Nat.le_add_right, decide_true, Bool.true_and, Nat.add_lt_add_iff_left, hi, if_true] at h
  exact h

/-- A byte stored reads back. -/
theorem Mem.read_store_in (m : Mem) {a x : Nat} {bs : List Byte} (h1 : a ≤ x) (h2 : x < a + bs.length) :
    Mem.read (Mem.store m a bs) x = (bs[x - a]?).getD Mem.blank := by
  have e1 : ((m.filter fun c => c.1 < a)).any (fun c => c.1 == x) = false := by
    simp only [List.any_eq_false, List.mem_filter, decide_eq_true_eq, beq_iff_eq]
    rintro c ⟨_, hc⟩ rfl; omega
  have e3 : Mem.read (m.filter fun c => a + bs.length ≤ c.1) x = Mem.blank :=
    Mem.read_absent fun c hc => by
      have h := (List.mem_filter.1 hc).2
      simp only [decide_eq_true_eq] at h
      omega
  rw [Mem.store, List.append_assoc, Mem.read_append, e1, Mem.read_append, e3]
  simp only [Bool.false_eq_true, if_false]
  split
  · exact Mem.read_cells h1
  · next hn =>
    rw [← Mem.read_cells h1, Mem.read_absent]
    intro c hc hcx
    exact hn (List.any_eq_true.2 ⟨c, hc, by simpa using hcx⟩)

/-- A byte outside the stored ones reads as before. -/
theorem Mem.read_store_out (m : Mem) {a x : Nat} {bs : List Byte} (h : x < a ∨ a + bs.length ≤ x) :
    Mem.read (Mem.store m a bs) x = Mem.read m x := by
  have f1 := Mem.read_filter m (fun y => decide (y < a)) x
  have f3 := Mem.read_filter m (fun y => decide (a + bs.length ≤ y)) x
  have ec : Mem.read (Mem.cells a bs) x = Mem.blank := Mem.read_absent fun c hc => by
    have := Mem.cells_range hc; omega
  have ea : (Mem.cells a bs).any (fun c => c.1 == x) = false := by
    simp only [List.any_eq_false, beq_iff_eq]
    intro c hc hx; have := Mem.cells_range hc; omega
  rw [Mem.store, List.append_assoc, Mem.read_append, Mem.read_append, ea]
  simp only [Bool.false_eq_true, if_false]
  rcases h with h | h
  · split
    · rw [f1]; simp [h]
    · next hn =>
      rw [f3]
      have hz : Mem.read (m.filter fun c => decide (c.1 < a)) x = Mem.blank := Mem.read_absent fun c hc hcx =>
        hn (List.any_eq_true.2 ⟨c, hc, by simpa using hcx⟩)
      rw [f1] at hz
      simp only [h, decide_true, if_true] at hz
      rw [hz]; simp
  · have e1 : ((m.filter fun c => c.1 < a)).any (fun c => c.1 == x) = false := by
      simp only [List.any_eq_false, List.mem_filter, decide_eq_true_eq, beq_iff_eq]
      rintro c ⟨_, hc⟩ rfl; omega
    rw [e1, f3]; simp [h]

theorem Mem.read_write (m : Mem) (a x : Nat) (b : Byte) : Mem.read (Mem.write m a b) x = if x = a then b else Mem.read m x := by
  rw [Mem.write]
  by_cases h : x = a
  · subst h; rw [Mem.read_store_in m (Nat.le_refl _) (by simp)]; simp
  · rw [Mem.read_store_out m (by simp; omega), if_neg h]

end Sys2Proof.Machine
end

