-- ==== Sys2Proof/Laws/PerInstr.lean ====
section
/-! SUPPORT. One lemma per constructor: the opcode of an instruction of code names its constructor back, and an event or a
command has no encoding. -/

namespace Sys2Proof.Laws

/-- An instruction of code is the instruction of its opcode and fields (R58); the other rows have no words. -/
def Opcode.Statement (i : Instr) : Prop :=
  match i.code? with
  | some (opc, w) => ofOpcode opc w = some i
  | none => encode i = none

theorem Opcode.nop : ∀ a0, Opcode.Statement (.nop a0) := fun _ => rfl
theorem Opcode.add : ∀ a0, Opcode.Statement (.add a0) := fun _ => rfl
theorem Opcode.sub : ∀ a0, Opcode.Statement (.sub a0) := fun _ => rfl
theorem Opcode.and : ∀ a0, Opcode.Statement (.and a0) := fun _ => rfl
theorem Opcode.or : ∀ a0, Opcode.Statement (.or a0) := fun _ => rfl
theorem Opcode.xor : ∀ a0, Opcode.Statement (.xor a0) := fun _ => rfl
theorem Opcode.andn : ∀ a0, Opcode.Statement (.andn a0) := fun _ => rfl
theorem Opcode.shl : ∀ a0, Opcode.Statement (.shl a0) := fun _ => rfl
theorem Opcode.shrl : ∀ a0, Opcode.Statement (.shrl a0) := fun _ => rfl
theorem Opcode.shra : ∀ a0, Opcode.Statement (.shra a0) := fun _ => rfl
theorem Opcode.min : ∀ a0, Opcode.Statement (.min a0) := fun _ => rfl
theorem Opcode.max : ∀ a0, Opcode.Statement (.max a0) := fun _ => rfl
theorem Opcode.minn : ∀ a0, Opcode.Statement (.minn a0) := fun _ => rfl
theorem Opcode.maxn : ∀ a0, Opcode.Statement (.maxn a0) := fun _ => rfl
theorem Opcode.sel : ∀ a0, Opcode.Statement (.sel a0) := fun _ => rfl
theorem Opcode.mov : ∀ a0, Opcode.Statement (.mov a0) := fun _ => rfl
theorem Opcode.mul : ∀ a0, Opcode.Statement (.mul a0) := fun _ => rfl
theorem Opcode.mulh : ∀ a0, Opcode.Statement (.mulh a0) := fun _ => rfl
theorem Opcode.mulhn : ∀ a0, Opcode.Statement (.mulhn a0) := fun _ => rfl
theorem Opcode.div : ∀ a0, Opcode.Statement (.div a0) := fun _ => rfl
theorem Opcode.divn : ∀ a0, Opcode.Statement (.divn a0) := fun _ => rfl
theorem Opcode.rem : ∀ a0, Opcode.Statement (.rem a0) := fun _ => rfl
theorem Opcode.remn : ∀ a0, Opcode.Statement (.remn a0) := fun _ => rfl
theorem Opcode.clz : ∀ a0, Opcode.Statement (.clz a0) := fun _ => rfl
theorem Opcode.ctz : ∀ a0, Opcode.Statement (.ctz a0) := fun _ => rfl
theorem Opcode.popc : ∀ a0, Opcode.Statement (.popc a0) := fun _ => rfl
theorem Opcode.sext : ∀ a0, Opcode.Statement (.sext a0) := fun _ => rfl
theorem Opcode.cmpeq : ∀ a0, Opcode.Statement (.cmpeq a0) := fun _ => rfl
theorem Opcode.cmpne : ∀ a0, Opcode.Statement (.cmpne a0) := fun _ => rfl
theorem Opcode.cmplt : ∀ a0, Opcode.Statement (.cmplt a0) := fun _ => rfl
theorem Opcode.cmple : ∀ a0, Opcode.Statement (.cmple a0) := fun _ => rfl
theorem Opcode.cmpltn : ∀ a0, Opcode.Statement (.cmpltn a0) := fun _ => rfl
theorem Opcode.cmplen : ∀ a0, Opcode.Statement (.cmplen a0) := fun _ => rfl
theorem Opcode.addi : ∀ a0, Opcode.Statement (.addi a0) := fun _ => rfl
theorem Opcode.andi : ∀ a0, Opcode.Statement (.andi a0) := fun _ => rfl
theorem Opcode.ori : ∀ a0, Opcode.Statement (.ori a0) := fun _ => rfl
theorem Opcode.xori : ∀ a0, Opcode.Statement (.xori a0) := fun _ => rfl
theorem Opcode.shli : ∀ a0, Opcode.Statement (.shli a0) := fun _ => rfl
theorem Opcode.shrli : ∀ a0, Opcode.Statement (.shrli a0) := fun _ => rfl
theorem Opcode.shrai : ∀ a0, Opcode.Statement (.shrai a0) := fun _ => rfl
theorem Opcode.movi : ∀ a0, Opcode.Statement (.movi a0) := fun _ => rfl
theorem Opcode.movhi : ∀ a0, Opcode.Statement (.movhi a0) := fun _ => rfl
theorem Opcode.cmpeqi : ∀ a0, Opcode.Statement (.cmpeqi a0) := fun _ => rfl
theorem Opcode.cmplti : ∀ a0, Opcode.Statement (.cmplti a0) := fun _ => rfl
theorem Opcode.cmpltni : ∀ a0, Opcode.Statement (.cmpltni a0) := fun _ => rfl
theorem Opcode.muli : ∀ a0, Opcode.Statement (.muli a0) := fun _ => rfl
theorem Opcode.lea : ∀ a0, Opcode.Statement (.lea a0) := fun _ => rfl
theorem Opcode.pcadd : ∀ a0, Opcode.Statement (.pcadd a0) := fun _ => rfl
theorem Opcode.ld8 : ∀ a0, Opcode.Statement (.ld8 a0) := fun _ => rfl
theorem Opcode.ld8s : ∀ a0, Opcode.Statement (.ld8s a0) := fun _ => rfl
theorem Opcode.ld16 : ∀ a0, Opcode.Statement (.ld16 a0) := fun _ => rfl
theorem Opcode.ld16s : ∀ a0, Opcode.Statement (.ld16s a0) := fun _ => rfl
theorem Opcode.ld32 : ∀ a0, Opcode.Statement (.ld32 a0) := fun _ => rfl
theorem Opcode.ld32s : ∀ a0, Opcode.Statement (.ld32s a0) := fun _ => rfl
theorem Opcode.ld64 : ∀ a0, Opcode.Statement (.ld64 a0) := fun _ => rfl
theorem Opcode.st8 : ∀ a0, Opcode.Statement (.st8 a0) := fun _ => rfl
theorem Opcode.st16 : ∀ a0, Opcode.Statement (.st16 a0) := fun _ => rfl
theorem Opcode.st32 : ∀ a0, Opcode.Statement (.st32 a0) := fun _ => rfl
theorem Opcode.st64 : ∀ a0, Opcode.Statement (.st64 a0) := fun _ => rfl
theorem Opcode.ldlk : ∀ a0, Opcode.Statement (.ldlk a0) := fun _ => rfl
theorem Opcode.stul : ∀ a0, Opcode.Statement (.stul a0) := fun _ => rfl
theorem Opcode.ldblk : ∀ a0, Opcode.Statement (.ldblk a0) := fun _ => rfl
theorem Opcode.amoadd : ∀ a0, Opcode.Statement (.amoadd a0) := fun _ => rfl
theorem Opcode.amoand : ∀ a0, Opcode.Statement (.amoand a0) := fun _ => rfl
theorem Opcode.amoor : ∀ a0, Opcode.Statement (.amoor a0) := fun _ => rfl
theorem Opcode.amoxor : ∀ a0, Opcode.Statement (.amoxor a0) := fun _ => rfl
theorem Opcode.amomin : ∀ a0, Opcode.Statement (.amomin a0) := fun _ => rfl
theorem Opcode.amomax : ∀ a0, Opcode.Statement (.amomax a0) := fun _ => rfl
theorem Opcode.amoswp : ∀ a0, Opcode.Statement (.amoswp a0) := fun _ => rfl
theorem Opcode.amocas : ∀ a0, Opcode.Statement (.amocas a0) := fun _ => rfl
theorem Opcode.br : ∀ a0, Opcode.Statement (.br a0) := fun _ => rfl
theorem Opcode.bt : ∀ a0, Opcode.Statement (.bt a0) := fun _ => rfl
theorem Opcode.bf : ∀ a0, Opcode.Statement (.bf a0) := fun _ => rfl
theorem Opcode.jr : ∀ a0, Opcode.Statement (.jr a0) := fun _ => rfl
theorem Opcode.loop : ∀ a0, Opcode.Statement (.loop a0) := fun _ => rfl
theorem Opcode.done : ∀ a0, Opcode.Statement (.done a0) := fun _ => rfl
theorem Opcode.modex : ∀ a0, Opcode.Statement (.modex a0) := fun _ => rfl
theorem Opcode.modei : ∀ a0, Opcode.Statement (.modei a0) := fun _ => rfl
theorem Opcode.trap : ∀ a0, Opcode.Statement (.trap a0) := fun _ => rfl
theorem Opcode.eret : ∀ a0, Opcode.Statement (.eret a0) := fun _ => rfl
theorem Opcode.brk : ∀ a0, Opcode.Statement (.brk a0) := fun _ => rfl
theorem Opcode.mfsr : ∀ a0, Opcode.Statement (.mfsr a0) := fun _ => rfl
theorem Opcode.mtsr : ∀ a0, Opcode.Statement (.mtsr a0) := fun _ => rfl
theorem Opcode.post : ∀ a0, Opcode.Statement (.post a0) := fun _ => rfl
theorem Opcode.await : ∀ a0, Opcode.Statement (.await a0) := fun _ => rfl
theorem Opcode.awaitp : ∀ a0, Opcode.Statement (.awaitp a0) := fun _ => rfl
theorem Opcode.tksend : ∀ a0, Opcode.Statement (.tksend a0) := fun _ => rfl
theorem Opcode.bind : ∀ a0, Opcode.Statement (.bind a0) := fun _ => rfl
theorem Opcode.acqX : ∀ a0, Opcode.Statement (.acqX a0) := fun _ => rfl
theorem Opcode.acqS : ∀ a0, Opcode.Statement (.acqS a0) := fun _ => rfl
theorem Opcode.rel : ∀ a0, Opcode.Statement (.rel a0) := fun _ => rfl
theorem Opcode.fence : ∀ a0, Opcode.Statement (.fence a0) := fun _ => rfl
theorem Opcode.publish : ∀ a0, Opcode.Statement (.publish a0) := fun _ => rfl
theorem Opcode.icflush : ∀ a0, Opcode.Statement (.icflush a0) := fun _ => rfl
theorem Opcode.cbsync : ∀ a0, Opcode.Statement (.cbsync a0) := fun _ => rfl
theorem Opcode.xsched : ∀ a0, Opcode.Statement (.xsched a0) := fun _ => rfl
theorem Opcode.xstage : ∀ a0, Opcode.Statement (.xstage a0) := fun _ => rfl
theorem Opcode.ringset : ∀ a0, Opcode.Statement (.ringset a0) := fun _ => rfl
theorem Opcode.awfill : ∀ a0, Opcode.Statement (.awfill a0) := fun _ => rfl
theorem Opcode.rlslot : ∀ a0, Opcode.Statement (.rlslot a0) := fun _ => rfl
theorem Opcode.xstat : ∀ a0, Opcode.Statement (.xstat a0) := fun _ => rfl
theorem Opcode.vadd : ∀ a0, Opcode.Statement (.vadd a0) := fun _ => rfl
theorem Opcode.vsub : ∀ a0, Opcode.Statement (.vsub a0) := fun _ => rfl
theorem Opcode.vmul : ∀ a0, Opcode.Statement (.vmul a0) := fun _ => rfl
theorem Opcode.vfma : ∀ a0, Opcode.Statement (.vfma a0) := fun _ => rfl
theorem Opcode.vfms : ∀ a0, Opcode.Statement (.vfms a0) := fun _ => rfl
theorem Opcode.vmin : ∀ a0, Opcode.Statement (.vmin a0) := fun _ => rfl
theorem Opcode.vmax : ∀ a0, Opcode.Statement (.vmax a0) := fun _ => rfl
theorem Opcode.vabs : ∀ a0, Opcode.Statement (.vabs a0) := fun _ => rfl
theorem Opcode.vneg : ∀ a0, Opcode.Statement (.vneg a0) := fun _ => rfl
theorem Opcode.vadds : ∀ a0, Opcode.Statement (.vadds a0) := fun _ => rfl
theorem Opcode.vsubs : ∀ a0, Opcode.Statement (.vsubs a0) := fun _ => rfl
theorem Opcode.vmulh : ∀ a0, Opcode.Statement (.vmulh a0) := fun _ => rfl
theorem Opcode.vdiv : ∀ a0, Opcode.Statement (.vdiv a0) := fun _ => rfl
theorem Opcode.vsqrt : ∀ a0, Opcode.Statement (.vsqrt a0) := fun _ => rfl
theorem Opcode.vrcp : ∀ a0, Opcode.Statement (.vrcp a0) := fun _ => rfl
theorem Opcode.vrsq : ∀ a0, Opcode.Statement (.vrsq a0) := fun _ => rfl
theorem Opcode.vexp2 : ∀ a0, Opcode.Statement (.vexp2 a0) := fun _ => rfl
theorem Opcode.vlog2 : ∀ a0, Opcode.Statement (.vlog2 a0) := fun _ => rfl
theorem Opcode.vand : ∀ a0, Opcode.Statement (.vand a0) := fun _ => rfl
theorem Opcode.vor : ∀ a0, Opcode.Statement (.vor a0) := fun _ => rfl
theorem Opcode.vxor : ∀ a0, Opcode.Statement (.vxor a0) := fun _ => rfl
theorem Opcode.vshl : ∀ a0, Opcode.Statement (.vshl a0) := fun _ => rfl
theorem Opcode.vshrl : ∀ a0, Opcode.Statement (.vshrl a0) := fun _ => rfl
theorem Opcode.vshra : ∀ a0, Opcode.Statement (.vshra a0) := fun _ => rfl
theorem Opcode.vsel : ∀ a0, Opcode.Statement (.vsel a0) := fun _ => rfl
theorem Opcode.vcmpeq : ∀ a0, Opcode.Statement (.vcmpeq a0) := fun _ => rfl
theorem Opcode.vcmpne : ∀ a0, Opcode.Statement (.vcmpne a0) := fun _ => rfl
theorem Opcode.vcmplt : ∀ a0, Opcode.Statement (.vcmplt a0) := fun _ => rfl
theorem Opcode.vcmple : ∀ a0, Opcode.Statement (.vcmple a0) := fun _ => rfl
theorem Opcode.vclass : ∀ a0, Opcode.Statement (.vclass a0) := fun _ => rfl
theorem Opcode.vcvt : ∀ a0, Opcode.Statement (.vcvt a0) := fun _ => rfl
theorem Opcode.vmov : ∀ a0, Opcode.Statement (.vmov a0) := fun _ => rfl
theorem Opcode.vbcast : ∀ a0, Opcode.Statement (.vbcast a0) := fun _ => rfl
theorem Opcode.vextr : ∀ a0, Opcode.Statement (.vextr a0) := fun _ => rfl
theorem Opcode.vins : ∀ a0, Opcode.Statement (.vins a0) := fun _ => rfl
theorem Opcode.vcomp : ∀ a0, Opcode.Statement (.vcomp a0) := fun _ => rfl
theorem Opcode.vexpd : ∀ a0, Opcode.Statement (.vexpd a0) := fun _ => rfl
theorem Opcode.vperm : ∀ a0, Opcode.Statement (.vperm a0) := fun _ => rfl
theorem Opcode.viota : ∀ a0, Opcode.Statement (.viota a0) := fun _ => rfl
theorem Opcode.vredadd : ∀ a0, Opcode.Statement (.vredadd a0) := fun _ => rfl
theorem Opcode.vredmax : ∀ a0, Opcode.Statement (.vredmax a0) := fun _ => rfl
theorem Opcode.vredmin : ∀ a0, Opcode.Statement (.vredmin a0) := fun _ => rfl
theorem Opcode.kand : ∀ a0, Opcode.Statement (.kand a0) := fun _ => rfl
theorem Opcode.kor : ∀ a0, Opcode.Statement (.kor a0) := fun _ => rfl
theorem Opcode.kxor : ∀ a0, Opcode.Statement (.kxor a0) := fun _ => rfl
theorem Opcode.knot : ∀ a0, Opcode.Statement (.knot a0) := fun _ => rfl
theorem Opcode.kmov : ∀ a0, Opcode.Statement (.kmov a0) := fun _ => rfl
theorem Opcode.kpop : ∀ a0, Opcode.Statement (.kpop a0) := fun _ => rfl
theorem Opcode.vld : ∀ a0, Opcode.Statement (.vld a0) := fun _ => rfl
theorem Opcode.vst : ∀ a0, Opcode.Statement (.vst a0) := fun _ => rfl
theorem Opcode.vlds : ∀ a0, Opcode.Statement (.vlds a0) := fun _ => rfl
theorem Opcode.vsts : ∀ a0, Opcode.Statement (.vsts a0) := fun _ => rfl
theorem Opcode.vgath : ∀ a0, Opcode.Statement (.vgath a0) := fun _ => rfl
theorem Opcode.vscat : ∀ a0, Opcode.Statement (.vscat a0) := fun _ => rfl
theorem Opcode.vscatadd : ∀ a0, Opcode.Statement (.vscatadd a0) := fun _ => rfl
theorem Opcode.vspill : ∀ a0, Opcode.Statement (.vspill a0) := fun _ => rfl
theorem Opcode.vfill : ∀ a0, Opcode.Statement (.vfill a0) := fun _ => rfl
theorem Opcode.vldp : ∀ a0, Opcode.Statement (.vldp a0) := fun _ => rfl
theorem Opcode.vstp : ∀ a0, Opcode.Statement (.vstp a0) := fun _ => rfl
theorem Opcode.pset : ∀ a0, Opcode.Statement (.pset a0) := fun _ => rfl
theorem Opcode.nld : ∀ a0, Opcode.Statement (.nld a0) := fun _ => rfl
theorem Opcode.nst : ∀ a0, Opcode.Statement (.nst a0) := fun _ => rfl
theorem Opcode.tmma : ∀ a0, Opcode.Statement (.tmma a0) := fun _ => rfl
theorem Opcode.tfmul : ∀ a0, Opcode.Statement (.tfmul a0) := fun _ => rfl
theorem Opcode.tfadd : ∀ a0, Opcode.Statement (.tfadd a0) := fun _ => rfl
theorem Opcode.tpmul : ∀ a0, Opcode.Statement (.tpmul a0) := fun _ => rfl
theorem Opcode.tadd : ∀ a0, Opcode.Statement (.tadd a0) := fun _ => rfl
theorem Opcode.trecmp : ∀ a0, Opcode.Statement (.trecmp a0) := fun _ => rfl
theorem Opcode.tfact : ∀ a0, Opcode.Statement (.tfact a0) := fun _ => rfl
theorem Opcode.tzero : ∀ a0, Opcode.Statement (.tzero a0) := fun _ => rfl
theorem Opcode.tmov : ∀ a0, Opcode.Statement (.tmov a0) := fun _ => rfl
theorem Opcode.tld : ∀ a0, Opcode.Statement (.tld a0) := fun _ => rfl
theorem Opcode.tst : ∀ a0, Opcode.Statement (.tst a0) := fun _ => rfl
theorem Opcode.trdrow : ∀ a0, Opcode.Statement (.trdrow a0) := fun _ => rfl
theorem Opcode.twrrow : ∀ a0, Opcode.Statement (.twrrow a0) := fun _ => rfl
theorem Opcode.tdense : ∀ a0, Opcode.Statement (.tdense a0) := fun _ => rfl
theorem Opcode.trank : ∀ a0, Opcode.Statement (.trank a0) := fun _ => rfl
theorem Opcode.tlimit : ∀ a0, Opcode.Statement (.tlimit a0) := fun _ => rfl
theorem Opcode.tpred : ∀ a0, Opcode.Statement (.tpred a0) := fun _ => rfl
theorem Opcode.tfree : ∀ a0, Opcode.Statement (.tfree a0) := fun _ => rfl
theorem Opcode.spawn : ∀ a0, Opcode.Statement (.spawn a0) := fun _ => rfl
theorem Opcode.spawnj : ∀ a0, Opcode.Statement (.spawnj a0) := fun _ => rfl
theorem Opcode.sigj : ∀ a0, Opcode.Statement (.sigj a0) := fun _ => rfl
theorem Opcode.enq : ∀ a0, Opcode.Statement (.enq a0) := fun _ => rfl
theorem Opcode.jstat : ∀ a0, Opcode.Statement (.jstat a0) := fun _ => rfl
theorem Opcode.yield : ∀ a0, Opcode.Statement (.yield a0) := fun _ => rfl
theorem Opcode.rgnnew : ∀ a0, Opcode.Statement (.rgnnew a0) := fun _ => rfl
theorem Opcode.rgnset : ∀ a0, Opcode.Statement (.rgnset a0) := fun _ => rfl
theorem Opcode.rgnget : ∀ a0, Opcode.Statement (.rgnget a0) := fun _ => rfl
theorem Opcode.rgnkill : ∀ a0, Opcode.Statement (.rgnkill a0) := fun _ => rfl
theorem Opcode.pxpush : ∀ a0, Opcode.Statement (.pxpush a0) := fun _ => rfl
theorem Opcode.pxflush : ∀ a0, Opcode.Statement (.pxflush a0) := fun _ => rfl
theorem Opcode.srch : ∀ a0, Opcode.Statement (.srch a0) := fun _ => rfl
theorem Opcode.ins : ∀ a0, Opcode.Statement (.ins a0) := fun _ => rfl
theorem Opcode.del : ∀ a0, Opcode.Statement (.del a0) := fun _ => rfl
theorem Opcode.kvf : ∀ a0, Opcode.Statement (.kvf a0) := fun _ => rfl
theorem Opcode.darn : ∀ a0, Opcode.Statement (.darn a0) := fun _ => rfl
theorem Opcode.rpop : ∀ a0, Opcode.Statement (.rpop a0) := fun _ => rfl
theorem Opcode.rstat : ∀ a0, Opcode.Statement (.rstat a0) := fun _ => rfl
theorem Opcode.genq : ∀ a0, Opcode.Statement (.genq a0) := fun _ => rfl
theorem Opcode.resultLand : ∀ a0, Opcode.Statement (.resultLand a0) := fun _ => rfl
theorem Opcode.modeBarrierPass : ∀ a0, Opcode.Statement (.modeBarrierPass a0) := fun _ => rfl
theorem Opcode.taskComplete : ∀ a0, Opcode.Statement (.taskComplete a0) := fun _ => rfl
theorem Opcode.eretReturn : ∀ a0, Opcode.Statement (.eretReturn a0) := fun _ => rfl
theorem Opcode.icacheFill : ∀ a0 a1, Opcode.Statement (.icacheFill a0 a1) := fun _ _ => rfl
theorem Opcode.timerFire : ∀ a0, Opcode.Statement (.timerFire a0) := fun _ => rfl
theorem Opcode.trapEntry : ∀ a0, Opcode.Statement (.trapEntry a0) := fun _ => rfl
theorem Opcode.guardGrant : ∀ a0, Opcode.Statement (.guardGrant a0) := fun _ => rfl
theorem Opcode.lockRetry : ∀ a0 a1, Opcode.Statement (.lockRetry a0 a1) := fun _ _ => rfl
theorem Opcode.blockCacheFill : ∀ a0 a1, Opcode.Statement (.blockCacheFill a0 a1) := fun _ _ => rfl
theorem Opcode.generatorRead : ∀ a0 a1, Opcode.Statement (.generatorRead a0 a1) := fun _ _ => rfl
theorem Opcode.matrixStep : ∀ a0, Opcode.Statement (.matrixStep a0) := fun _ => rfl
theorem Opcode.pageWalk : ∀ a0 a1, Opcode.Statement (.pageWalk a0 a1) := fun _ _ => rfl
theorem Opcode.recordStart : ∀ a0, Opcode.Statement (.recordStart a0) := fun _ => rfl
theorem Opcode.sequencerUnit : ∀ a0, Opcode.Statement (.sequencerUnit a0) := fun _ => rfl
theorem Opcode.recordComplete : ∀ a0, Opcode.Statement (.recordComplete a0) := fun _ => rfl
theorem Opcode.preempt : ∀ a0, Opcode.Statement (.preempt a0) := fun _ => rfl
theorem Opcode.contextSave : ∀ a0, Opcode.Statement (.contextSave a0) := fun _ => rfl
theorem Opcode.contextRestore : ∀ a0, Opcode.Statement (.contextRestore a0) := fun _ => rfl
theorem Opcode.arm : ∀ a0 a1 a2 a3, Opcode.Statement (.arm a0 a1 a2 a3) := fun _ _ _ _ => rfl
theorem Opcode.disarm : ∀ a0 a1, Opcode.Statement (.disarm a0 a1) := fun _ _ => rfl
theorem Opcode.halt : ∀ a0 a1, Opcode.Statement (.halt a0 a1) := fun _ _ => rfl
theorem Opcode.dbgRead : ∀ a0 a1 a2, Opcode.Statement (.dbgRead a0 a1 a2) := fun _ _ _ => rfl
theorem Opcode.dbgWrite : ∀ a0 a1 a2 a3, Opcode.Statement (.dbgWrite a0 a1 a2 a3) := fun _ _ _ _ => rfl
theorem Opcode.resume : ∀ a0 a1, Opcode.Statement (.resume a0 a1) := fun _ _ => rfl
theorem Opcode.dbgStep : ∀ a0 a1 a2, Opcode.Statement (.dbgStep a0 a1 a2) := fun _ _ _ => rfl
theorem Opcode.clrprof : ∀ a0 a1, Opcode.Statement (.clrprof a0 a1) := fun _ _ => rfl
theorem Opcode.debugStop : ∀ a0, Opcode.Statement (.debugStop a0) := fun _ => rfl
theorem Opcode.patch : ∀ a0 a1 a2, Opcode.Statement (.patch a0 a1 a2) := fun _ _ _ => rfl
theorem Opcode.placement : ∀ a0, Opcode.Statement (.placement a0) := fun _ => rfl
theorem Opcode.recordMove : ∀ a0, Opcode.Statement (.recordMove a0) := fun _ => rfl
theorem Opcode.balanceEpoch : ∀ a0, Opcode.Statement (.balanceEpoch a0) := fun _ => rfl
theorem Opcode.proxyForward : ∀ a0 a1, Opcode.Statement (.proxyForward a0 a1) := fun _ _ => rfl
theorem Opcode.proxyAccept : ∀ a0 a1, Opcode.Statement (.proxyAccept a0 a1) := fun _ _ => rfl
theorem Opcode.proxyLoss : ∀ a0 a1, Opcode.Statement (.proxyLoss a0 a1) := fun _ _ => rfl
theorem Opcode.llcOperation : ∀ a0 a1, Opcode.Statement (.llcOperation a0 a1) := fun _ _ => rfl
theorem Opcode.ctrl : ∀ a0 a1, Opcode.Statement (.ctrl a0 a1) := fun _ _ => rfl
theorem Opcode.tlbinv : ∀ a0, Opcode.Statement (.tlbinv a0) := fun _ => rfl
theorem Opcode.tlbinvst : ∀ a0, Opcode.Statement (.tlbinvst a0) := fun _ => rfl
theorem Opcode.tlbInvalidation : Opcode.Statement .tlbInvalidation := rfl
theorem Opcode.reserve : ∀ a0 a1, Opcode.Statement (.reserve a0 a1) := fun _ _ => rfl
theorem Opcode.commit : ∀ a0 a1 a2, Opcode.Statement (.commit a0 a1 a2) := fun _ _ _ => rfl
theorem Opcode.rollback : ∀ a0 a1, Opcode.Statement (.rollback a0 a1) := fun _ _ => rfl
theorem Opcode.gangStart : ∀ a0 a1, Opcode.Statement (.gangStart a0 a1) := fun _ _ => rfl
theorem Opcode.gangTimeout : ∀ a0, Opcode.Statement (.gangTimeout a0) := fun _ => rfl
theorem Opcode.commandAccept : Opcode.Statement .commandAccept := rfl
theorem Opcode.flashRead : ∀ a0 a1, Opcode.Statement (.flashRead a0 a1) := fun _ _ => rfl
theorem Opcode.traversalStep : ∀ a0, Opcode.Statement (.traversalStep a0) := fun _ => rfl
theorem Opcode.batchRelease : ∀ a0, Opcode.Statement (.batchRelease a0) := fun _ => rfl
theorem Opcode.appendCommit : ∀ a0, Opcode.Statement (.appendCommit a0) := fun _ => rfl
theorem Opcode.darningPass : ∀ a0, Opcode.Statement (.darningPass a0) := fun _ => rfl
theorem Opcode.darnSwitch : ∀ a0, Opcode.Statement (.darnSwitch a0) := fun _ => rfl
theorem Opcode.versionReclaim : ∀ a0, Opcode.Statement (.versionReclaim a0) := fun _ => rfl
theorem Opcode.kvfFetch : ∀ a0 a1, Opcode.Statement (.kvfFetch a0 a1) := fun _ _ => rfl
theorem Opcode.completionWrite : ∀ a0, Opcode.Statement (.completionWrite a0) := fun _ => rfl
theorem Opcode.registerWrite : ∀ a0 a1, Opcode.Statement (.registerWrite a0 a1) := fun _ _ => rfl
theorem Opcode.mgmtdb : ∀ a0, Opcode.Statement (.mgmtdb a0) := fun _ => rfl
theorem Opcode.reboot : ∀ a0, Opcode.Statement (.reboot a0) := fun _ => rfl
theorem Opcode.preset : ∀ a0, Opcode.Statement (.preset a0) := fun _ => rfl
theorem Opcode.modreset : ∀ a0, Opcode.Statement (.modreset a0) := fun _ => rfl
theorem Opcode.doorbell : ∀ a0 a1, Opcode.Statement (.doorbell a0 a1) := fun _ _ => rfl
theorem Opcode.hostAccess : ∀ a0 a1 a2, Opcode.Statement (.hostAccess a0 a1 a2) := fun _ _ _ => rfl
theorem Opcode.nopPacket : ∀ a0, Opcode.Statement (.nopPacket a0) := fun _ => rfl
theorem Opcode.launch : ∀ a0, Opcode.Statement (.launch a0) := fun _ => rfl
theorem Opcode.ib : ∀ a0, Opcode.Statement (.ib a0) := fun _ => rfl
theorem Opcode.pktPred : ∀ a0, Opcode.Statement (.pktPred a0) := fun _ => rfl
theorem Opcode.loopPacket : ∀ a0, Opcode.Statement (.loopPacket a0) := fun _ => rfl
theorem Opcode.waitmem : ∀ a0, Opcode.Statement (.waitmem a0) := fun _ => rfl
theorem Opcode.waitmemPoll : ∀ a0, Opcode.Statement (.waitmemPoll a0) := fun _ => rfl
theorem Opcode.writemem : ∀ a0, Opcode.Statement (.writemem a0) := fun _ => rfl
theorem Opcode.signal : ∀ a0, Opcode.Statement (.signal a0) := fun _ => rfl
theorem Opcode.timestamp : ∀ a0, Opcode.Statement (.timestamp a0) := fun _ => rfl
theorem Opcode.fetchfence : ∀ a0, Opcode.Statement (.fetchfence a0) := fun _ => rfl
theorem Opcode.windowFetch : ∀ a0, Opcode.Statement (.windowFetch a0) := fun _ => rfl
theorem Opcode.heartbeat : Opcode.Statement .heartbeat := rfl
theorem Opcode.mittenTakeover : Opcode.Statement .mittenTakeover := rfl
theorem Opcode.mittenbeat : Opcode.Statement .mittenbeat := rfl
theorem Opcode.crownReturn : Opcode.Statement .crownReturn := rfl
theorem Opcode.gauntletExpiry : ∀ a0, Opcode.Statement (.gauntletExpiry a0) := fun _ => rfl
theorem Opcode.resetTimeout : ∀ a0, Opcode.Statement (.resetTimeout a0) := fun _ => rfl
theorem Opcode.partitionDrained : ∀ a0, Opcode.Statement (.partitionDrained a0) := fun _ => rfl
theorem Opcode.functionLevelReset : Opcode.Statement .functionLevelReset := rfl
theorem Opcode.perst : Opcode.Statement .perst := rfl
theorem Opcode.powerGood : Opcode.Statement .powerGood := rfl
theorem Opcode.throttle : ∀ a0, Opcode.Statement (.throttle a0) := fun _ => rfl
theorem Opcode.mirrorUpdate : Opcode.Statement .mirrorUpdate := rfl
theorem Opcode.partset : ∀ a0, Opcode.Statement (.partset a0) := fun _ => rfl
theorem Opcode.partcmdDrain : ∀ a0, Opcode.Statement (.partcmdDrain a0) := fun _ => rfl
theorem Opcode.partcmdResume : ∀ a0, Opcode.Statement (.partcmdResume a0) := fun _ => rfl
theorem Opcode.partcmdReset : ∀ a0, Opcode.Statement (.partcmdReset a0) := fun _ => rfl
theorem Opcode.partcmdRelease : ∀ a0, Opcode.Statement (.partcmdRelease a0) := fun _ => rfl
theorem Opcode.rgnroot : ∀ a0, Opcode.Statement (.rgnroot a0) := fun _ => rfl
theorem Opcode.qcreate : ∀ a0, Opcode.Statement (.qcreate a0) := fun _ => rfl
theorem Opcode.qdestroy : ∀ a0, Opcode.Statement (.qdestroy a0) := fun _ => rfl
theorem Opcode.qstart : ∀ a0, Opcode.Statement (.qstart a0) := fun _ => rfl
theorem Opcode.qabort : ∀ a0, Opcode.Statement (.qabort a0) := fun _ => rfl
theorem Opcode.winset : ∀ a0, Opcode.Statement (.winset a0) := fun _ => rfl
theorem Opcode.winclr : ∀ a0, Opcode.Statement (.winclr a0) := fun _ => rfl
theorem Opcode.idxcreate : ∀ a0, Opcode.Statement (.idxcreate a0) := fun _ => rfl
theorem Opcode.idxresize : ∀ a0, Opcode.Statement (.idxresize a0) := fun _ => rfl
theorem Opcode.idxdestroy : ∀ a0, Opcode.Statement (.idxdestroy a0) := fun _ => rfl
theorem Opcode.objwrite : ∀ a0, Opcode.Statement (.objwrite a0) := fun _ => rfl
theorem Opcode.objdrop : ∀ a0, Opcode.Statement (.objdrop a0) := fun _ => rfl
theorem Opcode.idxclear : ∀ a0, Opcode.Statement (.idxclear a0) := fun _ => rfl
theorem Opcode.attest : ∀ a0, Opcode.Statement (.attest a0) := fun _ => rfl
theorem Opcode.fwload : ∀ a0, Opcode.Statement (.fwload a0) := fun _ => rfl
theorem Opcode.keyrevoke : ∀ a0, Opcode.Statement (.keyrevoke a0) := fun _ => rfl
theorem Opcode.lsgo : ∀ a0 a1, Opcode.Statement (.lsgo a0 a1) := fun _ _ => rfl
theorem Opcode.lsgoLoad : Opcode.Statement .lsgoLoad := rfl
theorem Opcode.runEntry : ∀ a0, Opcode.Statement (.runEntry a0) := fun _ => rfl
theorem Opcode.linkEvent : ∀ a0 a1, Opcode.Statement (.linkEvent a0 a1) := fun _ _ => rfl
theorem Opcode.powerLoss : Opcode.Statement .powerLoss := rfl
theorem Opcode.coolantFlowFails : Opcode.Statement .coolantFlowFails := rfl
theorem Opcode.hwError : ∀ a0 a1, Opcode.Statement (.hwError a0 a1) := fun _ _ => rfl

end Sys2Proof.Laws
end

