-- ==== Sys2Proof/Tests/Slice0.lean ====
section
/-! SUPPORT. Tests: words written out from the spec's encodings and what they decode to, ill-formed terms that the checks refuse,
and for every statement with hypotheses a concrete state and operands that meet them. Expected values are the spec's. -/

namespace Sys2Proof.Tests

open Sys2Proof.Machine Sys2Proof.Claims

-- One theorem after the other: as many at a time as there are here would need more memory than the check allows.
set_option Elab.async false

/-- Core 0 at the turn of stream S with a task and its context `c`. -/
def at0 (c : Ctx) (turn : Nat := 1) : State :=
  State.reset.setCore 0 { Core.reset with ctx := (Vector.replicate 2 Ctx.reset).set 0 c, turn }

/-- A context with a task at its initial values. -/
def ctx0 : Ctx := { Ctx.reset with task := some bareTask }

/-- Core 0 running a task at its initial values. -/
def run0 : State := at0 ctx0

/-- Core 0 running a task at its initial values, stream `k` changed. -/
def withStream (k : Nat) (f : Stream → Stream) (turn : Nat := 1) : State := at0 (ctx0.setStream k (f (ctx0.stream k))) turn

/-- Fields with an immediate. -/
def immW (n : Nat) : Ins := { Ins.blank with imm := BitVec.ofNat 32 n }

/-- A state whose core 0 holds translations of the first 64 KiB of partition 0 to normal memory, of the next to devices. -/
def mapped (s : State) : State :=
  s.setCore 0 { s.core 0 with
    tlb := [{ asn := 0, va := 0, size := 0x10000, pa := 0, r := true, w := true, x := true, attr := 0 },
            { asn := 0, va := 0x10000, size := 0x10000, pa := 0x3F00_0000_0000, r := true, w := true, x := true, attr := 1 }] }

/-- An effect in flight, due at cycle 0. -/
def flightOf (e : Effect) : Flight :=
  { seq := 0, stream := 0, issued := 0, land := 0, bound := 0, pc := 0, word := 0, tag := 0, eff := e,
    a := 0, b := 0, c := 0, ready := some 0, done := false, back := none }

/-! Witnesses: scalar instructions, issue and transfers. -/

theorem witness_mayIssue : run0.mayIssue Ins.blank = true := by decide

theorem witness_registerOnlyFrame : ∃ t, exec (.add Ins.blank) run0 = .next t := ⟨_, rfl⟩
theorem witness_registerOnlyFrame_post : ∃ t, exec (.post { Ins.blank with sa := .e 31 }) run0 = .next t := ⟨_, rfl⟩

theorem witness_issueEnters : Ins.blank.tok = ⟨false, false, false, false⟩ := rfl

theorem witness_landingCycle :
    ({ ctx0 with exposed := true } : Ctx).exposed = true ∧ ctx0.exposed = false ∧
    (Effect.reg (.x 0 1) 5).shares (.reg (.x 0 1) 9) = true := by decide

theorem witness_br_aligned :
    MayPass run0 Ins.blank ∧ branchTarget run0 Ins.blank (run0.streamOf Ins.blank) % 4 = 0 := by
  unfold MayPass; decide

theorem witness_br_misaligned :
    let s := withStream 0 fun t => { t with pc := 2 }
    MayPass s Ins.blank ∧ branchTarget s Ins.blank (s.streamOf Ins.blank) % 4 ≠ 0 := by
  unfold MayPass; decide

/-- BF with b0 clear is taken, to the last aligned address below 2^48; BT is not. -/
theorem witness_instance_goes :
    let s := withStream 0 fun t => { t with pc := 2 ^ 48 - 4 }
    MayPass s Ins.blank ∧ s.streamOf Ins.blank = 0 ∧ s.ctx.outcomes.length < 64 ∧
    s.ctx.blocked 0 [.b (condOf Ins.blank)] = false ∧ (!s.readB (condOf Ins.blank) 0) = true ∧
    s.readB (condOf Ins.blank) 0 = false ∧ branchTarget s Ins.blank 0 = 2 ^ 48 - 4 := by
  unfold MayPass; decide

theorem witness_instance_misaligned :
    let s := withStream 0 fun t => { t with pc := 2 }
    MayPass s Ins.blank ∧ (!s.readB (condOf Ins.blank) 0) = true ∧ branchTarget s Ins.blank 0 < 2 ^ 48 ∧
    branchTarget s Ins.blank 0 % 4 ≠ 0 ∧ s.ctx.blocked 0 [.b (condOf Ins.blank)] = false := by
  unfold MayPass; decide

/-- JR of a register that holds 2^48. -/
theorem witness_instance_far :
    let s := withStream 0 fun t => { t with x := t.x.set 1 0x1000000000000 }
    let w : Ins := { Ins.blank with sa := .x 1 }
    MayPass s w ∧ s.streamOf w = 0 ∧ s.ctx.blocked 0 (s.ctx.srcRes 0 w.sa) = false ∧ (s.srcA 0 0 w + immOf w).toNat = 2 ^ 48 := by
  unfold MayPass; decide

theorem witness_follow_waits :
    let s := at0 ctx0 2
    let w : Ins := { Ins.blank with tag := .L }
    MayPass s w ∧ s.streamOf w ≠ 0 ∧ s.ctx.outcomeFor (s.streamOf w) = none := by
  unfold MayPass; decide

theorem witness_follow_goes :
    let o : Sys2Proof.Machine.Outcome := { inst := 1, taken := true, target := 64 }
    let s := at0 { ctx0 with outcomes := [o] } 2
    let w : Ins := { Ins.blank with tag := .L }
    MayPass s w ∧ s.streamOf w ≠ 0 ∧ s.streamOf w < 5 ∧ s.ctx.outcomeFor (s.streamOf w) = some o := by
  unfold MayPass; decide

/-- A body of one 4-byte instruction, 1 and 0 trips; seven loops open. -/
theorem witness_loop :
    let l : LoopEntry := { trips := 1, stop := 64, start := 4 }
    let s := withStream 0 fun t => { t with loops := List.replicate 7 l }
    let t := s.ctx.stream 0
    MayPass s Ins.blank ∧ t.loops.length < 8 ∧
    ∀ w ∈ [immW 0x10004, immW 0x00004], bits w.imm.toNat 15 0 ≠ 0 ∧
      t.pc + w.len.bytes < t.pc + 4 * bits w.imm.toNat 15 0 ∧ t.pc + 4 * bits w.imm.toNat 15 0 ≤ 64 := by
  unfold MayPass; decide

theorem witness_loop_depth :
    let l : LoopEntry := { trips := 1, stop := 64, start := 4 }
    let s := withStream 0 fun t => { t with loops := List.replicate 8 l }
    MayPass s (immW 0x10004) ∧ 8 ≤ (s.ctx.stream 0).loops.length ∧
    (s.ctx.stream 0).loops.head?.map (fun t => decide (16 ≤ t.stop)) = some true := by
  unfold MayPass; decide

theorem witness_loop_illegal : bits (immW 0x10000).imm.toNat 15 0 = 0 ∧ MayPass run0 (immW 0x10000) := by
  unfold MayPass; decide

theorem witness_barriers :
    MayPass run0 Ins.blank ∧ run0.ctx.issuedCount (run0.here.turn - 1) < 64 ∧ run0.ctx.handler = false ∧
    run0.here.turn - 1 = 0 ∧ (at0 { ctx0 with handler := true }).ctx.handler = true ∧
    (at0 { ctx0 with handler := true }).ctx.issuedCount 0 < 64 := by
  unfold MayPass; decide

/-! Witnesses: system registers, events, memory. -/

theorem witness_mfsr :
    run0.mayIssue (immW 0x030) [.sys 0x030] = true ∧ (0x030 : Nat) ∉ handlerRegs ∧
    run0.mayIssue (immW 0x021) [.sys 0x021] = true ∧ (immW 0x021).imm.toNat ∈ handlerRegs ∧ run0.ctx.handler = false ∧
    run0.mayIssue (immW 0x044) [.sys 0x044] = true ∧ (immW 0x044).imm.toNat ∉ listedRegs := by decide

theorem witness_mfsr_handler :
    let s := at0 { ctx0 with handler := true }
    s.mayIssue (immW 0x040) [.sys 0x040] = true ∧ s.mayIssue (immW 0x043) [.sys 0x043] = true ∧ s.ctx.handler = true := by decide

/-- SLIP at its least and greatest value. -/
theorem witness_mtsr :
    ∀ v ∈ [16, 4096], let s := withStream 0 fun t => { t with x := t.x.set 1 (BitVec.ofNat 64 v) }
      let w : Ins := { Ins.blank with sa := .x 1 }
      s.mayIssue w = true ∧ w.imm.toNat ∈ [0x000, 0x001, 0x002, 0x003] ∧ 16 ≤ bits (s.opA w).toNat 12 0 ∧
      bits (s.opA w).toNat 12 0 ≤ 4096 := by decide

theorem witness_mtsr_handler :
    let s := at0 { ctx0 with handler := true }
    s.mayIssue (immW 0x020) = true ∧ s.ctx.handler = true ∧ (s.opA (immW 0x020)).toNat % 4 = 0 ∧
    run0.mayIssue (immW 0x040) = true ∧ (immW 0x040).imm.toNat ∈ handlerRegs ∧ run0.ctx.handler = false := by decide

/-- A SLIP of 0 is not admitted; CYCLE is read-only. -/
theorem witness_mtsr_refused :
    run0.mayIssue (immW 0x000) = true ∧ ¬ 16 ≤ bits (run0.opA (immW 0x000)).toNat 12 0 ∧
    run0.mayIssue (immW 0x010) = true ∧ (immW 0x010).imm.toNat ∉ [0x000, 0x001, 0x002, 0x003] ∧ run0.ctx.handler = false := by decide

theorem witness_brk :
    run0.mayIssue Ins.blank = true ∧ (run0.ctx.stream 0).passBrk = false ∧ run0.ctx.dbg.brk = false ∧
    (at0 { ctx0 with dbg := { ctx0.dbg with brk := true } }).ctx.dbg.brk = true ∧
    (at0 { ctx0 with dbg := { ctx0.dbg with brk := true } }).mayIssue Ins.blank = true := by decide

theorem witness_brk_passes :
    let s := withStream 0 fun t => { t with passBrk := true }
    s.mayIssue Ins.blank = true ∧ (s.ctx.stream 0).passBrk = true := by decide

/-- Event 31 holds one count; AWAIT of one goes on, of two waits. -/
theorem witness_events :
    let s := at0 { ctx0 with events := ctx0.events.set 31 1 }
    ∀ n ∈ [1, 2], let w : Ins := { immW n with sa := .e 31 }
      s.mayIssue { w with pred := 0 } = true ∧ (vget 0 s.ctx.events 31).toNat = 1 ∧
      (s.ctx.stream (s.streamOf w)).redo = none := by decide

/-- The last aligned word below the grant's end. -/
theorem witness_scratchpad :
    let s := at0 ({ ctx0 with spadGrant := 0x1000 }.setStream 0 { ctx0.stream 0 with x := (ctx0.stream 0).x.set 1 0xFF8 })
    let w : Ins := { Ins.blank with sa := .x 1, mod := 1 }
    s.mayIssue w = true ∧ addrOf s w = 0xFF8 ∧ addrOf s w % 8 = 0 ∧ addrOf s w + 8 ≤ min s.ctx.spadGrant 0x20_0000 := by decide

/-- The first aligned word past the grant, and a misaligned one. -/
theorem witness_scratchpad_traps :
    let s := at0 { ctx0 with spadGrant := 0x1000 }
    ∀ w ∈ [{ immW 0x1000 with mod := 1 }, { immW 0x1001 with mod := 1 }],
      s.mayIssue w = true ∧ min s.ctx.spadGrant 0x20_0000 < addrOf s w + 1 ∧ (addrOf s (immW 0x1001)) % 2 ≠ 0 := by decide

theorem witness_load_memory :
    let s := mapped run0
    s.mayIssue (immW 0xFFF8) = true ∧ addrOf s (immW 0xFFF8) % 8 = 0 ∧
    ∃ ph s1, s.translate s.focus s.asn (addrOf s (immW 0xFFF8)) .read = (.ok ph, s1) ∧ ph.attr = 0 ∧
      s1.readPoison s1.focus s1.asn (addrOf s (immW 0xFFF8)) ph.pa (lineFuel 8) 8 = none := ⟨by decide, by decide, _, _, rfl, rfl, rfl⟩

/-- The attribute of the page that an access finds. -/
def attrAt (s : State) (ea : Nat) (acc : Acc) : Option Nat :=
  match (s.translate s.focus s.asn ea acc).1 with
  | .ok ph => some ph.attr
  | .error _ => none

theorem attrAt_some {s : State} {ea k : Nat} {acc : Acc} (h : attrAt s ea acc = some k) :
    ∃ ph s1, s.translate s.focus s.asn ea acc = (.ok ph, s1) ∧ ph.attr = k := by
  unfold attrAt at h
  split at h
  · next ph hp => exact ⟨ph, (s.translate s.focus s.asn ea acc).2, by rw [← hp], by simpa using h⟩
  · simp at h

theorem witness_load_device :
    let s := mapped run0
    let w : Ins := { immW 0x10000 with dst := .x 1 }
    s.mayIssue w = true ∧ addrOf s w % 8 = 0 ∧ s.ctx.target (s.streamOf w) w.dst = some (.x 0 1) ∧
    ∃ ph s1, s.translate s.focus s.asn (addrOf s w) .read = (.ok ph, s1) ∧ ph.attr = 1 :=
  ⟨by decide, by decide, by decide, attrAt_some (by decide +kernel)⟩

/-- Aligned stores to the last word of normal memory and the first of a device. -/
theorem witness_store_memory :
    let s := mapped run0
    s.mayIssue (immW 0xFFF8) = true ∧ addrOf s (immW 0xFFF8) % 8 = 0 ∧ addrOf s (immW 0x10000) % 8 = 0 ∧
    (∃ ph s1, s.translate s.focus s.asn (addrOf s (immW 0xFFF8)) .write = (.ok ph, s1) ∧ ph.attr = 0) ∧
    ∃ ph s1, s.translate s.focus s.asn (addrOf s (immW 0x10000)) .write = (.ok ph, s1) ∧ ph.attr = 1 :=
  ⟨by decide, by decide, by decide, attrAt_some (by decide +kernel), attrAt_some (by decide +kernel)⟩

theorem witness_scalarAccessFrame : ∃ t, exec (.ld64 { Ins.blank with mod := 1 }) run0 = .next t := ⟨_, rfl⟩

theorem witness_spadStoreLands :
    ((storedCells 0 0 2 0x1234).map (·.pa)).Nodup ∧
    (flightOf (.store true (storedCells 0 0 2 0x1234))).eff = .store true (storedCells 0 0 2 0x1234) := by decide

theorem witness_ownStoresSeen :
    let f := flightOf (.store true (storedCells 0 0 2 0x1234))
    ({ ctx0 with flights := [f] } : Ctx).flights = [] ++ [f] ∧ f.stream = 0 ∧ f.done = false ∧
    ∃ x ∈ storedCells 0 0 2 0x1234, x.pa = [1, 2].getD 0 0 ∧ [1, 2].getD 1 0 ∉ (storedCells 0 0 2 0x1234).map (·.pa) := by
  exact ⟨rfl, rfl, rfl, ⟨1, 1, 0x12, 0xFF⟩, by decide, by decide, by decide⟩

theorem witness_atomic_misaligned :
    run0.mayIssue (immW 4) = true ∧ addrOf run0 (immW 4) % (if (immW 4).mod.getLsbD 0 then 4 else 8) ≠ 0 := by decide

theorem witness_ldblk_misaligned :
    let s := withStream 0 fun t => { t with x := t.x.set 1 64 }
    ∀ n ∈ [1, 64], let w : Ins := { immW n with sa := .x 1 }
      s.mayIssue w = true ∧ w.imm.toNat ≠ 0 ∧ w.imm.toNat ≤ 64 ∧ (s.opA w).toNat % 128 ≠ 0 := by decide

/-- LDLK of the last word of the grant, free; STUL of a word that is held, and of one that is not. -/
theorem witness_locks :
    let s := at0 { ctx0 with spadGrant := 0x1000, lockL := some 0xFF8 }
    let w : Ins := { immW 0xFF8 with dst := .x 1 }
    s.mayIssue w = true ∧ addrOf s w % 8 = 0 ∧ addrOf s w + 8 ≤ min s.ctx.spadGrant 0x20_0000 ∧
    s.ctx.lockOf (s.streamOf w) = none ∧ s.ctx.lockWaits (s.streamOf w) = false ∧
    s.ctx.target (s.streamOf w) w.dst = some (.x 0 1) ∧ s.ctx.lockL = some (addrOf s w) ∧
    s.ctx.lockS ≠ some (addrOf s (immW 0)) ∧ s.ctx.lockL ≠ some (addrOf s (immW 0)) ∧
    (at0 { ctx0 with lockS := some 8 }).ctx.lockOf 0 ≠ none := by decide

theorem witness_ldblk :
    let s := mapped run0
    s.mayIssue (immW 64) = true ∧ (s.opA (immW 64)).toNat % 128 = 0 ∧ ∃ ps s1,
      s.translateRange s.focus s.asn (s.opA (immW 64)).toNat .read (pageFuel (128 * 64)) (128 * 64) = (.ok ps, s1) ∧
      ∀ p ∈ ps, p.ph.attr = 0 := ⟨by decide, by decide, _, _, rfl, by decide⟩

theorem witness_ldblk_count : (immW 0).imm.toNat = 0 ∧ 64 < (immW 65).imm.toNat := by decide

theorem witness_atomic :
    let s := mapped run0
    s.mayIssue (immW 8) = true ∧ addrOf s (immW 8) % 8 = 0 ∧ ∃ ph0 s1 ph s2,
      s.translate s.focus s.asn (addrOf s (immW 8)) .read = (.ok ph0, s1) ∧
      s1.translate s1.focus s1.asn (addrOf s (immW 8)) .write = (.ok ph, s2) ∧ ph.attr = 0 ∧ ph.pa % 8 = 0 ∧
      ph.pa / 32 * 32 ∉ ((s2.forceStores fun f => f.stream = 0).writeBack s2.focus fun l => l = ph.pa / 128).die.poison :=
  ⟨by decide, by decide, _, _, _, _, rfl, rfl, rfl, rfl, by decide⟩

/-! Witnesses: landings. -/

/-- Core 0 at the start of a cycle with one effect due. -/
def landing (e : Effect) : State := at0 { ctx0 with flights := [flightOf e] } 0

theorem landing_alone (e : Effect) : LandsAlone (landing e) 0 (flightOf e) [] [] := by
  exact ⟨by decide, rfl, rfl, rfl, rfl, rfl, by simp, .inr (by simp), by simp⟩

theorem witness_resultLand :
    LandsAlone (landing (.reg (.x 0 15) 7)) 0 (flightOf (.reg (.x 0 15) 7)) [] [] ∧
    (registerLanding (flightOf (.reg (.x 0 15) 7)) { (landing (.reg (.x 0 15) 7)).runCtx 0 with flights := [] }).isSome = true ∧
    LandsAlone (landing (.vec 15 (Vector.replicate 64 0) 1)) 0 (flightOf (.vec 15 (Vector.replicate 64 0) 1)) [] [] :=
  ⟨landing_alone _, rfl, landing_alone _⟩

/-- A counter that reaches 65,535 and one that would pass it. -/
theorem witness_resultLand_post :
    ∀ k ∈ [65535, 65536], LandsAlone (landing (.post 31 k)) 0 (flightOf (.post 31 k)) [] [] ∧
      (vget 0 ((landing (.post 31 k)).runCtx 0).events 31).toNat + k = k :=
  fun _ _ => ⟨landing_alone _, Nat.zero_add _⟩

theorem witness_resultLand_waits : (run0.core 0).turn ≠ 0 ∧ (State.reset.runCtx 0).moves = false := by decide

/-! Witnesses: guards, fences, commands to the sequencer. -/

theorem exists_ok {ε α β : Type} {p : Except ε α × β}
    (h : (match p.1 with | .ok _ => true | .error _ => false) = true) : ∃ a b, p = (.ok a, b) := by
  obtain ⟨r, b⟩ := p
  cases r with
  | ok a => exact ⟨a, b, rfl⟩
  | error e => simp at h

theorem exists_error {ε α β : Type} {p : Except ε α × β}
    (h : (match p.1 with | .ok _ => false | .error _ => true) = true) : ∃ e b, p = (.error e, b) := by
  obtain ⟨r, b⟩ := p
  cases r with
  | ok a => simp at h
  | error e => exact ⟨e, b, rfl⟩

def guardW : Ins := { Ins.blank with sa := .x 1, sb := .x 2, sc := .x 3, dst := .x 4 }

/-- a names the guard at 64, b and c are given, LPDDR-6 and the guards held too. -/
def guardS (mem : Mem) (guards : List Held) (b c : Word) : State :=
  let t := ctx0.stream 0
  let s := mapped (at0 ({ ctx0 with guards }.setStream 0 { t with x := ((t.x.set 1 64).set 2 b).set 3 c }))
  { s with die := { s.die with mem } }

def guardAfter (s : State) : State := (s.translate s.focus s.asn (s.opA guardW).toNat .write).2

def heldX : List Held := [{ addr := 64, pa := 64, excl := true }]

theorem witness_guardAt :
    GuardAt (guardS [(112, 7), (120, 1)] heldX 7 3) guardW 64 (guardAfter (guardS [(112, 7), (120, 1)] heldX 7 3)) ∧
    GuardAt (guardS [] [] 0 0) guardW 64 (guardAfter (guardS [] [] 0 0)) :=
  ⟨⟨by decide, _, rfl, rfl, rfl⟩, ⟨by decide, _, rfl, rfl, rfl⟩⟩

/-- The third region has base 7; then no region has it and the first is empty; then c is 0; then all three are taken. -/
theorem witness_bind :
    let third := guardAfter (guardS [(112, 7), (120, 1)] heldX 7 3)
    let none := guardAfter (guardS [(96, 1), (104, 1)] heldX 7 3)
    let full := guardAfter (guardS [(88, 1), (104, 1), (120, 1)] heldX 7 3)
    (guardS [] heldX 7 3).mayIssue guardW = true ∧ (guardS [] heldX 7 0).opC guardW = 0 ∧
    third.die.poisonIn 64 64 = Option.none ∧ third.ctx.holdsGuard 64 = some { addr := 64, pa := 64, excl := true } ∧
    third.peek (64 + 16 + 32) 8 = 7 ∧ third.peek (64 + 24 + 32) 8 = 1 ∧ third.peek (64 + 24) 8 = 0 ∧ third.peek (64 + 40) 8 = 0 ∧
    none.peek (64 + 24) 8 = 0 ∧ none.peek (64 + 32) 8 = 1 ∧ none.peek (64 + 40) 8 = 1 ∧ none.peek (64 + 56) 8 = 0 ∧
    full.peek (64 + 16) 8 = 0 ∧ full.peek (64 + 24) 8 = 1 ∧ full.peek (64 + 40) 8 = 1 ∧ full.peek (64 + 56) 8 = 1 ∧
    (guardAfter (guardS [] [] 7 3)).ctx.holdsGuard 64 = Option.none := by decide +kernel

/-- Three guards held, and four; the guard granted already. -/
theorem witness_acquire :
    let s := guardS [] [⟨0, 0, true⟩, ⟨128, 128, true⟩, ⟨192, 192, false⟩] 0 0
    let s1 := guardAfter s
    let granted := guardAfter (s.setCtx { s.ctx with flights := [flightOf (.command (.acquired 64 64 true none 0))] })
    s1.ctx.holdsGuard 64 = none ∧ s1.ctx.granted 64 = false ∧ s.ctx.heldCount = 3 ∧ granted.ctx.granted 64 = true ∧
    (guardS [] [⟨0, 0, true⟩, ⟨128, 128, true⟩, ⟨192, 192, false⟩, ⟨256, 256, false⟩] 0 0).ctx.heldCount = 4 := by decide +kernel

theorem witness_release :
    let s1 := guardAfter (guardS [] heldX 0 0)
    s1.ctx.holdsGuard 64 = some { addr := 64, pa := 64, excl := true } ∧ s1.forceDie.die.poisonIn 64 8 = none := by decide +kernel

theorem witness_release_waits :
    let s := guardS [] [] 0 0
    let s1 := guardAfter (s.setCtx { s.ctx with flights := [flightOf (.command (.acquire 64 64 true none))] })
    s1.ctx.holdsGuard 64 = none ∧ s1.ctx.releasing 64 < s1.ctx.acquiring 64 ∧
    (guardAfter s).ctx.acquiring 64 ≤ (guardAfter s).ctx.releasing 64 := by decide +kernel

/-- A command of stream S to the sequencer is in flight in interlocked mode; and none is. -/
theorem witness_fence :
    let s := at0 { ctx0 with flights := [flightOf (.command (.xstage 1))] }
    s.mayIssue (immW 1) = true ∧ s.ctx.fenced 0 = true ∧ run0.ctx.fenced 0 = false := by decide

def grantS (mem : Mem) (excl : Bool) : State :=
  { State.reset with die := { Die.reset with mem, guardReqs := [{ guard := 64, core := 0, slot := 0, seq := 0, excl }] } }

/-- A free guard, one with a reader, one held exclusively, and the greatest version and number of readers. -/
theorem witness_guardGrant :
    (grantS [] true).die.guardReqs.find? (fun r => r.guard = 64) = some ⟨64, 0, 0, 0, true⟩ ∧
    bits ((grantS [] true).peek 64 8) 31 31 = 0 ∧ bits ((grantS [] true).peek 64 8) 15 0 = 0 ∧
    (grantS [] true).die.poisonIn 64 8 = none ∧
    bits ((grantS [(64, 1)] true).peek 64 8) 15 0 ≠ 0 ∧ bit ((grantS [(64, 1)] false).peek 64 8) 31 = false ∧
    bit ((grantS [(67, 0x80)] true).peek 64 8) 31 = true ∧ 2 ^ 32 - 1 < 2 ^ 32 ∧ 2 ^ 15 - 1 < 2 ^ 15 := by decide +kernel

/-- Window 5 of the task's partition; window 6 is of another, window 7 is not there. -/
theorem witness_publish :
    let w5 : Window := { part := 0, base := 0, len := 64, verAddr := 0, version := 0 }
    let s := { run0 with host := { Host1.reset with windows := [(5, w5), (6, { w5 with part := 1 })] } }
    s.mayIssue (immW 5) = true ∧ s.host.windows.find? (fun p => p.1 = (immW 5).imm.toNat) = some (5, w5) ∧ w5.part = s.asn ∧
    s.host.windows.find? (fun p => p.1 = 6) = some (6, { w5 with part := 1 }) ∧ 1 ≠ s.asn ∧
    s.host.windows.find? (fun p => p.1 = 7) = none := by decide

theorem witness_icflush : 1 ≤ (immW 1).imm.toNat ∧ (immW 3).imm.toNat ≤ 3 ∧ (immW 0).imm.toNat < 1 ∧ 3 < (immW 4).imm.toNat := by
  decide

/-- A schedule slot: a record that names ring 1, in a state. -/
def slotIn (state : SlotState) : SeqSlot :=
  { record := BitVec.ofNat 512 (2 ^ 28 + 1), state, order := 0, checked := true, invalid := false }

/-- Core 0 with slot 63 in a state, ring 1 of four slots with two filled, memory mapped. -/
def seqS (state : SlotState) (handler : Bool) : State :=
  mapped (at0 { ctx0 with handler, seq := { ctx0.seq with slots := ctx0.seq.slots.set 63 (slotIn state) },
                          rings := ctx0.rings.set 1 { slots := 4, rp := 3, wp := 1, filled := 2 } })

/-- IMM of XSCHED for one record into slot 63; nothing runs, a faulted record of a handler, a released one, and counts that
are refused. -/
theorem witness_xsched :
    let w := immW (63 + 64)
    let n := w.imm.toNat
    run0.mayIssue w = true ∧ bits n 5 0 = 63 ∧ bits n 12 6 = 1 ∧ (run0.opA w).toNat % 64 = 0 ∧
    (seqS .complete false).ctx.seqBusy = false ∧ ((seqS .complete false).ctx.slotAt 63).state.pending = false ∧
    ((seqS .faulted true).ctx.slotAt 63).state = .faulted ∧ (seqS .faulted true).ctx.handler = true ∧
    ((seqS .released false).ctx.slotAt 63).state.pending = true ∧ (seqS .released false).ctx.handler = false ∧
    ((seqS .released true).ctx.slotAt 63).state ≠ .faulted ∧ bits (immW 63).imm.toNat 12 6 = 0 ∧
    64 < bits (immW (63 + 128)).imm.toNat 5 0 + bits (immW (63 + 128)).imm.toNat 12 6 := by decide

theorem witness_xsched_reads :
    let s := seqS .complete false
    ∃ bs s1, (s.forceStores fun f => f.stream = 0).loadVirt 0 0 (64 * 1) = (.ok bs, s1) := exists_ok (by decide +kernel)

theorem witness_xstage :
    run0.ctx.stageAhead = 0 ∧ (immW 4095).imm.toNat ≤ 4095 ∧ 4095 < (immW 4096).imm.toNat ∧
    (immW 0).imm.toNat < (at0 { ctx0 with seq := { ctx0.seq with stage := 1 } }).ctx.stageAhead := by decide

theorem witness_ringset :
    let w : Ins := { immW 256 with sa := .h 1 }
    let s := seqS .complete false
    s.mayIssue w = true ∧ ringOf w.sa = 1 ∧ w.imm.toNat ≤ 256 ∧ s.ctx.ringWaits 0 1 = false ∧ s.ctx.seqBusy = false ∧
    ((List.range 64).all fun i => !(s.ctx.slotAt i).state.pending) = true ∧
    ((seqS .released false).ctx.slotAt 63).nest.ring = 1 ∧ ((seqS .released false).ctx.slotAt 63).nest.op ≠ 0 ∧
    256 < (immW 257).imm.toNat := by decide +kernel

/-- Two slots are filled of four: a count of 2 is there, one of 3 waits, one of 5 is refused. -/
theorem witness_rings :
    let s := seqS .complete false
    let r := s.ctx.ring 1
    s.mayIssue { immW 2 with sa := .h 1 } = true ∧ s.ctx.ringWaits 0 1 = false ∧ r.slots = 4 ∧ r.filled = 2 ∧
    (immW 2).imm.toNat ≤ r.filled ∧ r.filled < (immW 3).imm.toNat ∧ (immW 3).imm.toNat ≤ r.slots ∧
    r.slots < (immW 5).imm.toNat := by decide

theorem witness_xstat : run0.mayIssue Ins.blank = true ∧ Ins.blank.sa = .absent ∧
    ({ Ins.blank with sa := .h 15 } : Ins).sa = .h 15 ∧ run0.ctx.ringWaits 0 15 = false := by decide

/-! Witnesses: traps, returns, barriers. -/

def faultOf (origin : Nat) : Fault1 :=
  { cause := 0x0E, origin, pc := 0, word := 0, aux := 1, addr := none, straddle := false, imprecise := false, redo := none,
    cbsel := none, seqPart := none }

/-- A task with a handler, a fault of its stream W recorded before one of S. -/
def trapS (handler : Bool) (tvec : BitVec 48) : State :=
  mapped (at0 { ctx0 with handler, tvec, faults := [faultOf 4, faultOf 0] } 0)

theorem witness_trapEntry_ends :
    (trapS true 64).ctx.reported = some (faultOf 0) ∧ (trapS true 64).ctx.flights = [] ∧ (trapS true 64).ctx.task.isSome = true ∧
    (trapS true 64).ctx.handler = true ∧ (trapS false 0).ctx.tvec = 0 ∧ run0.ctx.faults = [] := by decide

theorem witness_trapEntry :
    let c := (trapS false 64).ctx
    let s1 := (trapS false 64).setCtx { c.markRedo with array := [] }
    c.reported = some (faultOf 0) ∧ c.flights = [] ∧ c.task.isSome = true ∧ c.handler = false ∧ c.tvec ≠ 0 ∧
    (s1.writeFrame c.frameAddr.toNat (s1.ctx.frameBytes (c.markRedo.faultHead (faultOf 0)) true s1.resumeBitmaps)).1 = true := by
  decide +kernel

/-- A handler whose streams all stand at one ERET; the frame's first byte is its version. -/
def eretS (version : Byte) (frameAddr : BitVec 48) : State :=
  let saved : SavedTask :=
    { streams := ctx0.streams, outcomes := [], tokens := ctx0.tokens, events := ctx0.events, slip := 16, exposed := true,
      flights := [], stop := 0, cause := 0x0E, fault := faultOf 0 }
  let s := mapped (at0 { ctx0 with handler := true, saved := some saved, frameAddr,
                                   streams := Vector.replicate 5 { Stream.reset with status := .eret } } 0)
  { s with die := { s.die with mem := [(0, version)] } }

theorem eretS_here (v : Byte) (a : BitVec 48) :
    Quiet (eretS v a) 0 ∧ (eretS v a).ctx.handler = true ∧ AllAt (eretS v a).ctx .eret ∧ (eretS v a).ctx.saved.isSome = true :=
  ⟨⟨by decide, rfl, rfl, rfl, rfl⟩, rfl,
    fun k h => by match k, h with | 0, _ | 1, _ | 2, _ | 3, _ | 4, _ => exact ⟨rfl, rfl⟩, rfl⟩

theorem witness_eretReturn :
    let s := eretS 1 0
    ∃ sv, s.ctx.saved = some sv ∧ ∃ bs s1, s.loadVirt 0 s.ctx.frameAddr.toNat 0x140 = (.ok bs, s1) ∧ bytesNat (bs.take 2) = 1 ∧
      ((resumeRecs bs).zipIdx.all fun p => !p.1.bad (vget Stream.reset sv.streams p.2)) = true ∧
      (s1.ctx.resumeUnit bs).isSome = true := by
  refine ⟨_, rfl, _, _, rfl, ?_⟩
  decide +kernel

theorem witness_eretReturn_version :
    let s := eretS 2 0
    ∃ bs s1, s.loadVirt 0 s.ctx.frameAddr.toNat 0x140 = (.ok bs, s1) ∧ bytesNat (bs.take 2) ≠ 1 := by
  refine ⟨_, _, rfl, ?_⟩
  decide +kernel

theorem witness_eretReturn_unreadable :
    let s := eretS 1 0x20000
    ∃ f s1, s.loadVirt 0 s.ctx.frameAddr.toNat 0x140 = (.error f, s1) := exists_error (by decide +kernel)

/-- All five streams of a quiet context with one status. -/
def stoppedS (p : StreamStatus) (handler hfail : Bool) : State :=
  at0 { ctx0 with handler, hfail, streams := Vector.replicate 5 { Stream.reset with status := p } } 0

theorem stoppedS_here (p : StreamStatus) (handler hfail : Bool) :
    Quiet (stoppedS p handler hfail) 0 ∧ AllAt (stoppedS p handler hfail).ctx p :=
  ⟨⟨by decide, rfl, rfl, rfl, rfl⟩, fun k h => by match k, h with | 0, _ | 1, _ | 2, _ | 3, _ | 4, _ => exact ⟨rfl, rfl⟩⟩

theorem witness_barriersPass :
    (Quiet (stoppedS (.barrier true 4) false false) 0 ∧ AllAt (stoppedS (.barrier true 4) false false).ctx (.barrier true 4)) ∧
    (Quiet (stoppedS .done false false) 0 ∧ AllAt (stoppedS .done false false).ctx .done) ∧
    (stoppedS .done false false).ctx.handler = false ∧ (stoppedS .done false false).ctx.seqIdle = true ∧
    (stoppedS .done true true).ctx.handler = true ∧ (stoppedS .done true true).ctx.hfail = true :=
  ⟨stoppedS_here _ _ _, stoppedS_here _ _ _, rfl, by decide, rfl, rfl⟩

/-- The timer is due in the cycle that TIMECMP names. -/
theorem witness_timer :
    let c := { ctx0 with timerEn := true, cycle := 100, timecmp := 100 }
    ((at0 c 0).core 0).turn = 0 ∧ c.moves = true ∧ c.handler = false ∧ c.timecmp.toNat ≤ c.cycle ∧ c.faults = [] := by decide

/-! Witnesses: vectors. -/

/-- Core 0 at the turn of V: every vector register tagged `f` and holding `l` in its lanes, k1 names lane 63, a grant of 4 KiB,
and x1 and x2 of V given. -/
def vecS (f : Nat) (x1 x2 : Word) (l : Lane := 0) : State :=
  let t := ctx0.stream 3
  mapped (at0 ({ ctx0 with
    v := Vector.replicate 16 { lanes := Vector.replicate 64 l, tag := BitVec.ofNat 6 f }, k := ctx0.k.set 1 (1 <<< 63),
    spadGrant := 0x1000 }.setStream 3 { t with x := (t.x.set 1 x1).set 2 x2 }) 4)

/-- Fields of stream V with three vector sources, for lane 63. -/
def vecW (f : Nat) : Ins :=
  { Ins.blank with tag := .V, pred := 1, dst := .v 15, sa := .v 1, sb := .v 2, sc := .v 3, fmt := BitVec.ofNat 6 f }

theorem witness_vectorReady :
    (vecS 0x14 0 0).mayIssue (vecW 0x14) = true ∧
    VectorReady (vecS 0x14 0 0) (vecW 0x14) [(0, 0x14), (1, 0x14), (2, 0x14)] (vecS 0x14 0 0) :=
  ⟨by decide, by decide, by decide, rfl⟩

/-- Sources tagged S32 under FMT 0x1E, and under A36. -/
theorem witness_vectorTraps :
    (vecS 0x14 0 0).ctx.fmtCheck (vecW 0x1E) [(0, 0x1E), (1, 0x1E), (2, 0x1E)] ≠ none ∧
    (vecS 0x1F 0 0).ctx.fmtCheck (vecW 0x1F) [(0, 0x1F), (1, 0x1F), (2, 0x1F)] = none ∧ fmtOf (vecW 0x1F) = fmtA36 := by decide

/-- VEXTR of lane 63, which is enabled, of lane 62, which is not, and of lane 64. -/
theorem witness_vextr :
    let s := vecS 0x14 63 0
    let w : Ins := { vecW 0x14 with sb := .x 1 }
    s.mayIssue w = true ∧ VectorReady s w [(0, 0x14)] s ∧ (s.opB w).toNat = 63 ∧ (s.lanePred w).getLsbD 63 = true ∧
    ((vecS 0x14 62 0).opB w).toNat = 62 ∧ (s.lanePred w).getLsbD 62 = false ∧ 63 < ((vecS 0x14 64 0).opB w).toNat :=
  ⟨by decide, ⟨by decide, by decide, rfl⟩, by decide, by decide, by decide, by decide, by decide⟩

theorem witness_vperm_viota :
    VectorReady (vecS 0x14 0 0) (vecW 0x14) [(0, 0x14), (1, fmtS32)] (vecS 0x14 0 0) ∧
    VectorReady (vecS 0x14 0 0) (vecW 0x14) [] (vecS 0x14 0 0) := ⟨⟨by decide, by decide, rfl⟩, ⟨by decide, by decide, rfl⟩⟩

theorem witness_vins :
    let w : Ins := { vecW 0x14 with sb := .x 1 }
    (vecS 0x14 63 0).mayIssue w [.v (vdst w)] = true ∧ ((vecS 0x14 63 0).ctx.vreg (vdst w)).tag.toNat = fmtOf w ∧
    fmtNamed (fmtOf w) = true ∧ fmtOf w ≠ fmtA36 ∧ ((vecS 0x14 63 0).opB w).toNat ≤ 63 ∧ 63 < ((vecS 0x14 64 0).opB w).toNat := by
  decide

/-- A zero converts; a NaN of 0x1E to S8 under a policy of all ones is a fault. -/
theorem witness_vcvt :
    let s := vecS 0x1E 0 0 0x7FC00000
    let w := vecW 0x0F
    s.mayIssue w [.sys 0x001] = true ∧ s.ctx.tagOf w.sa = some 0x1E ∧ fmtNamed 0x1E = true ∧ fmtOf w ≠ fmtA36 ∧
    s.fillPorts w false = (none, s) ∧
    (match convertValue 0 0x1E 0x0F 0xAA 0 true with | .ok _ => true | .error _ => false) = true ∧
    (match convertValue 0x7FC00000 0x1E 0x0F 0xFF 0 true with | .ok _ => false | .error _ => true) = true :=
  ⟨by decide, by decide, by decide, by decide, rfl, by decide +kernel, by decide +kernel⟩

/-! Witnesses: vector memory. -/

/-- The fields of a vector access to the scratchpad at x1, lane 63 alone. -/
def vmemW : Ins := { vecW 0x14 with sa := .x 1, sb := .v 2, sc := .cb 7, mod := 1 }

/-- Lane 63 of 64 consecutive elements of 4 bytes ends the grant. -/
theorem witness_vld :
    let s := vecS 0x14 0xF00 0
    s.mayIssue vmemW = true ∧ fmtOf vmemW ≠ fmtA36 ∧ fmtByteWidth 0x14 = true ∧ addrOf s vmemW % packedAlign 32 = 0 ∧
    InGrant s (s.lanePred vmemW) 4 (unitAddr (addrOf s vmemW) 4) ∧ addrOf s vmemW + 4 * 64 = s.ctx.spadGrant ∧
    addrOf (vecS 0x14 1 0) vmemW % packedAlign 32 ≠ 0 := by
  unfold InGrant; decide +kernel

theorem witness_vld_memory :
    let s := vecS 0x14 0xF00 0
    ∃ image s1, s.loadRuns 3 (isSpad vmemW) 0xF00 (touchedRuns (packedMask 32 (s.lanePred vmemW))) (List.replicate 256 0) =
      (.ok image, s1) := exists_ok (by decide +kernel)

/-- A stride of 64 bytes. -/
theorem witness_vlds :
    let s := vecS 0x14 0 0x40
    let w : Ins := { vmemW with sb := .x 2 }
    s.mayIssue w = true ∧ addrOf s w % 4 = 0 ∧ (s.opB w).toNat % 4 = 0 ∧
    InGrant s (s.lanePred w) 4 (strideAddr (addrOf s w) (s.opB w)) ∧
    (s.loadLanes 3 true 4 (s.lanePred w) (strideAddr (addrOf s w) (s.opB w))).1 = none ∧
    ((vecS 0x14 0 0x41).opB w).toNat % 4 ≠ 0 ∧ fmtByteWidth 0x11 = false := by
  unfold InGrant; decide +kernel

/-- Index 0 for lane 63, then an address past the grant. -/
theorem witness_vgath :
    let s := vecS 0x14 0xFFC 0
    s.ctx.slotCheck vmemW 1 fmtS32 = none ∧ fmtByteWidth (fmtOf vmemW) = true ∧ cbOf vmemW.sc < 8 ∧
    InGrant s (s.lanesPending vmemW) 4 (indexedAddr (addrOf s vmemW) 4 (s.laneSrc 3 0 { vmemW with fmt := 0x14 } 1)) ∧
    (s.gatherRun 3 0 vmemW).fault = none ∧ ((vecS 0x14 0x1000 0).gatherRun 3 0 vmemW).fault ≠ none := by
  unfold InGrant; decide +kernel

theorem witness_vfill :
    let w : Ins := { vmemW with sb := .cb 7, imm := 0x0001, mod := 0 }
    let s := vecS 0x14 0x100 0
    s.mayIssue w = true ∧ (s.opA w).toNat % 256 = 0 ∧ (s.fillRun 3 w (s.opA w).toNat).1.1 = none ∧
    ((vecS 0x14 0x80 0).opA w).toNat % 256 ≠ 0 := by decide +kernel

theorem witness_nest_access :
    let w : Ins := { vmemW with dst := .n 15, sb := .n 15 }
    let s := vecS 0x14 0xFC0 0
    s.mayIssue w = true ∧ addrOf s w % 64 = 0 ∧ addrOf s w + 64 ≤ min s.ctx.spadGrant 0x20_0000 ∧
    (match (s.loadSpace 3 (isSpad w) (addrOf s w) 64).1 with | .ok _ => true | .error _ => false) = true ∧
    (match (s.storeSpace (isSpad w) (addrOf s w) (wholeBytes (natBytes 64 (s.readNest 15 1).toNat))).1 with
      | .ok _ => true | .error _ => false) = true ∧ addrOf (vecS 0x14 0xF90 0) w % 64 ≠ 0 := by decide +kernel

theorem witness_vst :
    let s := vecS 0x14 0xF00 0
    s.ctx.slotCheck vmemW 1 0x14 = none ∧
    (match (s.storeRuns true 0xF00 ((packElems 32 (List.replicate 64 0)).zip (packedMask 32 (s.lanePred vmemW)))
      (touchedRuns (packedMask 32 (s.lanePred vmemW)))).1 with | .ok _ => true | .error _ => false) = true := by decide +kernel

theorem witness_vsts :
    let s := vecS 0x14 0 0x40
    let w : Ins := { vmemW with sc := .x 2 }
    s.mayIssue w = true ∧ s.ctx.slotCheck w 1 0x14 = none ∧ (s.opC w).toNat % 4 = 0 ∧
    InGrant s (s.lanePred w) 4 (strideAddr (addrOf s w) (s.opC w)) ∧
    (s.storeLanes true 4 (s.lanePred w) (strideAddr (addrOf s w) (s.opC w)) fun _ => 0).1 = none ∧
    ((vecS 0x14 0 0x42).opC w).toNat % 4 ≠ 0 := by
  unfold InGrant; decide +kernel

theorem witness_vscat :
    let s := vecS 0x14 0xFFC 0
    s.mayIssue vmemW [.v (pairOf vmemW).2] = true ∧ s.ctx.pairCheck vmemW = none ∧
    InGrant s (s.lanesPending vmemW) 4 (indexedAddr (((s.srcA 3 0 vmemW).toNat + (immOf vmemW).toNat) % 2 ^ 64) 4
      (s.readLanes (pairOf vmemW).1 1)) ∧
    (s.scatterRun 3 vmemW).fault = none ∧ ((vecS 0x14 0x1000 0).scatterRun 3 vmemW).fault ≠ none := by
  unfold InGrant; decide +kernel

theorem witness_vscatadd :
    ((vecS 0x14 0xFFC 0).scatterAddRun 3 { vmemW with mod := 0 }).fault = none ∧
    ((vecS 0x14 0x40000 0).scatterAddRun 3 { vmemW with mod := 0 }).fault ≠ none := by decide +kernel

theorem witness_vspill :
    let w : Ins := { vmemW with sb := .cb 7, imm := 0x0001, mod := 0 }
    let s := vecS 0x14 0 0
    s.mayIssue w (setRes w) = true ∧ (s.opA w).toNat % 256 = 0 ∧ (s.spillRun w 0).fault = none ∧
    ((vecS 0x14 0x40000 0).spillRun w 0x40000).fault ≠ none ∧ cbOf w.sb < 8 := by decide +kernel

/-! Witnesses: ports and tiles. -/

/-- Every trip of a record 1. -/
def nestTrips : Nat := 2 ^ 160 + 2 ^ 176 + 2 ^ 192 + 2 ^ 208

/-- A write walk of `count` elements of S32 from scratchpad offset `base`. -/
def walkRec (base count : Nat) : BitVec 512 :=
  BitVec.ofNat 512 (0x41 + 0x14 * 2 ^ 22 + count * 2 ^ 48 + (2 ^ 47 + base) * 2 ^ 112 + nestTrips)

/-- Core 0 with nest 15 and a write walk at port 7. -/
def portS (record : BitVec 512) (state : PortState) : State :=
  let s := vecS 0x14 0 0
  s.setCtx { s.ctx with nests := s.ctx.nests.set 15 record, ports := s.ctx.ports.set 7 { state, gen := 0, record, next := 0, ahead := [] } }

def portW : Ins := { vecW 0x14 with sa := .p 7, sb := .v 1, sc := .absent }

theorem witness_pset :
    let w : Ins := { Ins.blank with tag := .V, sa := .p 7, sb := .g 7, sc := .n 15 }
    let s := portS (walkRec 0 64) .unbound
    s.mayIssue w = true ∧ (Nest.ofBits (s.readNest 15 4)).genOk = true ∧
    (Nest.ofBits ((portS 0 .unbound).readNest 15 4)).genOk = false := by decide +kernel

/-- Lane 63 of a walk at the grant's start, and of one that lies past its end. -/
theorem witness_vstp :
    let s := portS (walkRec 0 64) .write
    let t := portS (walkRec 0x1000 64) .write
    s.mayIssue portW [.port 7] = true ∧ s.ctx.slotCheck portW 1 0x14 = none ∧ (s.ctx.port 7).state = .write ∧
    (Nest.ofBits (s.ctx.port 7).record).dfmt = 0x14 ∧
    (match pushCells s.ctx (Nest.ofBits (s.ctx.port 7).record) 0 (s.readLanes 1 1) (s.lanePred portW) with
      | .ok _ => true | .error _ => false) = true ∧
    (match pushCells t.ctx (Nest.ofBits (t.ctx.port 7).record) 0 (t.readLanes 1 1) (t.lanePred portW) with
      | .ok _ => false | .error _ => true) = true ∧
    ((portS (walkRec 0 64) .ended).ctx.port 7).state ≠ .write := by decide +kernel

/-- A write walk of another format, a plane walk, and no walk. -/
theorem witness_vstp_traps :
    let unlike := portS (walkRec 0 64 + 2 ^ 22) .ended
    let plane := portS (walkRec 0 64 + 2 ^ 32) .read
    unlike.mayIssue portW [.port 7] = true ∧ unlike.ctx.slotCheck portW 1 0x14 = none ∧ (unlike.ctx.port 7).state ≠ .unbound ∧
    (Nest.ofBits (unlike.ctx.port 7).record).op = 0x41 ∧ (Nest.ofBits (unlike.ctx.port 7).record).dfmt = 0x15 ∧
    (Nest.ofBits (plane.ctx.port 7).record).dfmt = 0x14 ∧ (Nest.ofBits (plane.ctx.port 7).record).planeWalk = true ∧
    ((portS 0 .unbound).ctx.port 7).state = .unbound := by decide +kernel

/-- Core 0 at the turn of V with `plies` granted, FALLBACK set or not, LIMIT `limit` of z15, and z1 a pair of rank `rank`. -/
def tileS (plies limit rank : Nat) (fallback : Bool) : State :=
  let s := vecS 0x14 0 0
  s.setCtx { s.ctx with
    plyGrant := plies, factctl := if fallback then 1 else 0, spadGrant := 0x8000,
    z := (s.ctx.z.set 15 { Tile.reset with limit }).set 1 { Tile.reset with rep := if rank = 0 then 0 else 2, rank, tag := 0x1F } }

def tileW : Ins := { vecW 0x14 with pred := 0, dst := .z 15, sa := .z 1, sb := .z 1, sc := .absent }

/-- Forms 0, 1 and 2 of TZERO. -/
theorem witness_tzero :
    ∀ n ∈ [0, 1, 2], let w : Ins := { tileW with sa := .absent, sb := .absent, imm := BitVec.ofNat 32 n }
      (tileS 64 32 0 false).mayIssue w [.z (zdst w), .sys 0x002] = true ∧ bits w.imm.toNat 1 0 = n := by decide

/-- A result that fits, one above LIMIT with and without FALLBACK, and one whose plies are not free. -/
theorem witness_tileResult :
    let dense := TileVal.dense (zeros 64 64)
    PliesFor (tileS 64 32 0 false) dense.need ∧ ¬ (dense.rep.1 = 2) ∧ dense.rep.2 ≤ 32 ∧
    ((tileS 64 1 2 true).ctx.tileVal (.z 1)).rep = (2, 2) ∧ ((tileS 64 1 2 true).ctx.tile 15).limit = 1 ∧
    (tileS 64 1 2 true).ctx.fallback = true ∧ (tileS 64 1 2 false).ctx.fallback = false ∧
    (at0 { ctx0 with exposed := true, plyGrant := 63 }).ctx.freePlies < dense.need := by
  refine ⟨⟨Or.inr (Or.inr rfl), ?_⟩, ?_⟩ <;> decide +kernel

theorem witness_tileMoves :
    (tileS 64 32 1 false).mayIssue tileW [.z (zdst tileW), .sys 0x002] = true ∧ (tileS 64 32 1 false).ctx.tilesCheck tileW = none ∧
    (tileS 64 32 1 false).mayIssue tileW = true := by decide

/-- A TMMA of two vectors of S32, and a TFMUL of a pair of rank 1. -/
theorem witness_tileProducts :
    let w : Ins := { tileW with sa := .absent, sb := .absent, sc := .z 1, imm := 0 }
    let s := tileS 64 32 0 false
    s.mayIssue tileW [.z (zdst tileW), .sys 0x002, .rowpred] = true ∧ tmmaPlanes 0x14 0 = some (0x14, 32, 32) ∧
    s.ctx.slotCheck w 0 0x14 = none ∧ s.ctx.slotCheck w 1 0x14 = none ∧ s.ctx.tileCheck w 2 = none ∧ operandPort w.sc = none ∧
    PliesFor s 64 ∧ PlanesReady s w (s.readAhead w) ∧ planesRead 0x14 0 = some 32 ∧
    ((tileS 64 32 1 false).ctx.tileVal (.z 1)).rep = (2, 1) := by
  refine ⟨by decide, by decide, by decide, by decide, by decide, by decide, ⟨Or.inr (Or.inr rfl), by decide⟩,
    ⟨by decide, by decide, rfl, by decide⟩, by decide, by decide +kernel⟩

/-- Two pairs; a ZERO operand; a DENSE one. -/
theorem witness_tileSums :
    let s := tileS 64 32 16 false
    s.mayIssue tileW [.z (zdst tileW), .sys 0x003] = true ∧ s.ctx.tilesCheck tileW = none ∧ (s.ctx.tileVal tileW.sa).rep = (2, 16) ∧ 16 + 16 ≤ (s.ctx.tile (zdst tileW)).limit ∧
    ((tileS 64 32 0 false).ctx.tileVal tileW.sa).rep.1 = 0 ∧
    ((tileS 64 32 0 false).ctx.tileVal tileW.sa).rep.2 ≤ 32 ∧
    (({ Tile.reset with rep := 1 } : Tile).val).rep.1 = 1 := by decide +kernel

theorem witness_tld :
    let s := tileS 64 32 0 false
    let w : Ins := { tileW with sa := .x 1, sb := .x 2, mod := 1 }
    s.mayIssue w [.z (zdst w)] = true ∧ strideTrap (addrOf s w) (packedAlign 32) (s.opB w) = none ∧
    strideTrap 1 (packedAlign 32) 0 ≠ none ∧
    (s.loadRows 3 (isSpad w) 256 (strideAddr (addrOf s w) (s.opB w))).1 = none := by decide +kernel

theorem witness_tst :
    let s := tileS 64 32 0 false
    let w : Ins := { tileW with sa := .x 1, sb := .z 1, sc := .x 2, mod := 1 }
    s.mayIssue w [.sys 0x001] = true ∧ s.ctx.tileCheck w 1 = none ∧ strideTrap (addrOf s w) (packedAlign 32) (s.opC w) = none ∧
    (s.storeRows (isSpad w) 32 (List.replicate 4096 0) (strideAddr (addrOf s w) (s.opC w))).1 = none := by decide +kernel

/-- Row 63 of a DENSE tile from a vector; column 0 of a pair to a write walk. -/
theorem witness_tileRows :
    let w : Ins := { vecW 0x14 with pred := 0, dst := .z 15, sa := .v 1, sb := .absent, sc := .absent, imm := 63 }
    let dense : Tile := { Tile.reset with rep := 1, tag := 0x1F }
    let s := vecS 0x14 0 0
    let t := s.setCtx { s.ctx with plyGrant := 64, z := s.ctx.z.set 15 dense }
    t.mayIssue w [.z (zdst w)] = true ∧ t.ctx.slotCheck w 0 0x14 = none ∧ (t.ctx.tile 15).tag.toNat = fmtA36 ∧
    selTrap w (t.ctx.tile 15).val = none ∧ (t.ctx.tile 15).val.rep.1 ≠ 0 ∧ t.ctx.portsBefore w false = none ∧
    (t.ctx.tile 15).val.need ≤ t.ctx.freePlies ∧ (t.readAhead w).ctx.portStopped w 0 = none := by decide +kernel

/-! Witnesses: tasks, regions, retrieval instructions. -/

/-- LPDDR-6 with an identity map of the first GiB, region 0 at 0xB000, a record at 0x100, joins at 0x140 and (killed) 0x1C0, a
proxy descriptor at 0x180, a new region's block at 0x200, completion rings at 0x300 (one entry) and 0x340, code at 0x4000. -/
def worldMem : Mem :=
  [(0x15D, 0x81), (0x189, 0x10), (0x190, 16), (0x194, 1), (0x196, 1), (0x1DD, 0xC1), (0x20A, 1), (0x242, 1),
   (0x301, 0x20), (0x308, 1), (0x310, 1), (0x341, 0x20), (0x348, 1),
   (0x4000, 0x43), (0x4001, 0x56), (0x4002, 0x4C), (0x4003, 0x4B), (0x4004, 1), (0x4009, 1), (0x400C, 4), (0x4022, 16), (0x402A, 1),
   (0x8000, 0x01), (0x8001, 0x90), (0x9000, 0x1F), (0xA001, 0xB0), (0xB002, 0xFF), (0xB003, 0xFF), (0xB00A, 4)]

/-- Partition 0 over all clusters, with its tables and one region, and the memory of `worldMem`. -/
def inWorld (s : State) : State :=
  { s with die := { s.die with mem := worldMem, regions := [{ part := 0, index := 0, rcb := 0xB000, fields := [(0x02, 0xFFFF)] }],
                               parts := s.die.parts.set 0 { clusters := 0xFFFF, ptroot := 0x8000, rgntab := 0xA000, rgncnt := 4,
                                                            qbase := 0, qbytes := 0, state := .active } } }

/-- The task of `run0` in that world, x1 and x2 of S given. -/
def taskS (x1 x2 : Word) : State :=
  inWorld (mapped (withStream 0 fun t => { t with x := (t.x.set 1 x1).set 2 x2 }))

def taskW : Ins := { Ins.blank with sa := .x 1, sb := .x 2, dst := .x 3 }

/-- The state after the translation of operand a. -/
def lookedUp (s : State) (v : Word) : State := (s.translate s.focus s.asn v.toNat .read).2

theorem placeOk_some {s : State} {v : Word} {pa : Nat}
    (h : (match (s.translate s.focus s.asn v.toNat .read).1 with | .ok p => decide (p = ⟨pa, 0⟩) | .error _ => false) = true) :
    s.translate s.focus s.asn v.toNat .read = (.ok ⟨pa, 0⟩, lookedUp s v) := by
  unfold lookedUp
  generalize s.translate s.focus s.asn v.toNat .read = r at h
  obtain ⟨a, b⟩ := r
  cases a with
  | ok p => simp only [decide_eq_true_eq] at h; subst h; rfl
  | error e => simp at h

def zeroRecord : Record := { code := 0, frame := 0, succ := 0, w3 := 0 }

theorem witness_spawn :
    let s := taskS 0x100 15
    let s1 := (lookedUp s 0x100).storesOut.noteRead 0x100 32
    s.mayIssue taskW = true ∧ BlockAt s (s.opA taskW) 32 0x100 (lookedUp s 0x100) ∧ MaySpawn s1 0x100 zeroRecord ∧
    HandAt s1 0x100 zeroRecord s1 ∧ w3Join zeroRecord.w3 = 0 ∧ (s.opB taskW).toNat < 16 ∧ (s.part s.asn).clusters.getLsbD (s.opB taskW).toNat = true ∧
    16 ≤ ((taskS 0x100 16).opB taskW).toNat :=
  ⟨by decide, ⟨by decide, by decide, placeOk_some (by decide +kernel)⟩,
    ⟨by decide +kernel, rfl, rfl, by decide, by decide +kernel⟩, Or.inl ⟨rfl, rfl⟩, rfl, by decide, by decide, by decide⟩

/-- A record with JOIN 1 on a page that may be written. -/
theorem witness_spawn_waits :
    let r : Record := { zeroRecord with w3 := 1 }
    let s := { taskS 0x100 15 with die := { (taskS 0x100 15).die with mem := (0x118, 1) :: worldMem } }
    let s1 := (lookedUp s 0x100).storesOut.noteRead 0x100 32
    MaySpawn s1 0x100 r ∧ ∃ u, HandAt s1 0x100 r u :=
  ⟨⟨by decide +kernel, rfl, rfl, by decide, by decide +kernel⟩, _, Or.inr ⟨by decide, Prod.ext (by decide +kernel) rfl⟩⟩

/-- The join at 0x140 waits; a block of zeros is no join; the join at 0x1C0 is killed. -/
theorem witness_joins :
    let s := taskS 0x100 0x140
    let s1 := lookedUp s 0x100
    let t := lookedUp s1 0x140
    let s2 := (t.blockWrite 0x140).2.storesOut.noteRead 0x100 32
    BlockAt s1 (s.opB taskW) 64 0x140 t ∧ (t.blockWrite 0x140).1 = none ∧ MaySpawn s2 0x100 zeroRecord ∧ w3Jr (s2.peek (0x140 + 24) 8) = true ∧
    w3Wait (s2.peek (0x140 + 24) 8) = true ∧ w3Join (s2.peek (0x140 + 24) 8) ≠ 65535 ∧ w3Killed (s2.peek (0x140 + 24) 8) = false ∧
    w3Jr (s2.peek (0x2C0 + 24) 8) = false ∧ w3Killed (s2.peek (0x2C0 + 24) 8) = false ∧ w3Killed (s2.peek (0x1C0 + 24) 8) = true :=
  ⟨⟨by decide, by decide, placeOk_some (by decide +kernel)⟩, by decide +kernel,
    ⟨by decide +kernel, rfl, rfl, by decide, by decide +kernel⟩, by decide +kernel⟩

theorem witness_sigj :
    let s := taskS 0x140 0
    BlockAt s (s.opA taskW) 64 0x140 (lookedUp s 0x140) ∧ ((lookedUp s 0x140).blockWrite 0x140).1 = none ∧
    BlockAt (taskS 0x1C0 0) ((taskS 0x1C0 0).opA taskW) 64 0x1C0 (lookedUp (taskS 0x1C0 0) 0x1C0) ∧
    BlockAt (taskS 0x2C0 0) ((taskS 0x2C0 0).opA taskW) 64 0x2C0 (lookedUp (taskS 0x2C0 0) 0x2C0) :=
  ⟨⟨by decide, by decide, placeOk_some (by decide +kernel)⟩, by decide +kernel,
    ⟨by decide, by decide, placeOk_some (by decide +kernel)⟩, ⟨by decide, by decide, placeOk_some (by decide +kernel)⟩⟩

def readyRec : Ready :=
  { record := 0x100, part := 0, region := 0, prio := 15, launch := none, succ := 0, code := 0x4000, frame := 0, pin := false, saved := none, want := 15 }

/-- A task that may be saved, and a record of the same or a higher class at its core. -/
theorem witness_yield :
    let s := at0 { ctx0 with task := some { bareTask with saveBase := 0x10000 } }
    let t := s.setCore 0 { s.core 0 with ready := [readyRec] }
    t.ctx.task = some { bareTask with saveBase := 0x10000 } ∧ t.here.ready.head? = some readyRec ∧
    bareTask.prio ≤ readyRec.prio ∧ run0.here.ready.head? = none := by decide

theorem witness_handOver :
    w3Join zeroRecord.w3 = 0 ∧ w3Join { zeroRecord with w3 := 65535 }.w3 ≠ 0 ∧ (some 15 : Option Nat) = some 15 ∧ 15 < 16 := by decide

theorem witness_rgnnew :
    let s := taskS 0x200 0
    let s1 := ((lookedUp s 0x200).blockWrite 0x200).2.noteRead 0x200 256
    let dead := { s with die := { s.die with regions := [{ part := 0, index := 0, rcb := 0xB000, fields := [(0x02, 0xFFFF), (0x04, 3)] }] } }
    BlockAt s (s.opA taskW) 256 0x200 (lookedUp s 0x200) ∧ ((lookedUp s 0x200).blockWrite 0x200).1 = none ∧ (s.opB taskW).toNat < 0x10000 ∧
    dead.rgnDead s.asn 0 = true ∧
    s1.rgnWithin s.asn s.ownRegion (s.opB taskW).toNat = true ∧ s1.rgnDead s.asn 0 = false ∧
    (∀ f ∈ rcbSoftware, rcbRange f (s1.peek (0x200 + f.1) f.2) = true) ∧
    (∀ f ∈ rcbBounded, s1.rcbWithin s.asn 0 (s1.peek (0x200 + fOvr.1) fOvr.2) f (s1.peek (0x200 + f.1) f.2) = true) ∧
    rcbRange fCtxb (s1.peek (0x300 + fCtxb.1) fCtxb.2) = false ∧ s1.rgnWithin s.asn s.ownRegion 1 = false :=
  ⟨⟨by decide, by decide, placeOk_some (by decide +kernel)⟩, by decide +kernel⟩

/-- PRIO of region 0 at its greatest value and past it; a field of the device; an offset that starts none. -/
theorem witness_rgnset :
    let s := taskS 0 15
    fieldOf (immW 0x08) = some fPrio ∧ bit (immW 0x08).imm.toNat 8 = false ∧ (s.opB taskW).toNat = 15 ∧
    fPrio ∈ rcbSoftware ∧ rcbRange fPrio 15 = true ∧ s.rgnWithin s.asn s.ownRegion (s.opA taskW).toNat = true ∧
    s.rgnGet s.asn 0 fParent = 0xFFFF ∧ rcbRange fPrio 16 = false ∧ fieldOf (immW 0x04) = some fState ∧ fState ∉ rcbSoftware ∧
    fieldOf (immW 0x01) = none ∧ s.rgnWithin s.asn s.ownRegion 1 = false := by decide +kernel

/-- Region 1 under region 0 with a class above its parent's. -/
theorem witness_rgnset_bounded :
    let s := taskS 1 15
    let one : RegionDev := { part := 0, index := 1, rcb := 0xC000, fields := [(0x02, 0)] }
    let s1 := { s with die := { s.die with mem := worldMem ++ [(0xC00A, 1)], regions := s.die.regions ++ [one] } }
    s1.rgnWithin s1.asn s1.ownRegion 1 = true ∧ s1.rgnGet s1.asn 1 fParent = 0 ∧ fPrio ∈ rcbBounded ∧
    s1.rcbWithin s1.asn 0 0x10 fPrio 15 = false ∧ s1.rcbWithin s1.asn 0 0 fPrio 15 = true := by decide +kernel

theorem witness_proxy :
    let s := taskS 0x180 0x100
    let s1 := ((lookedUp s 0x180).blockWrite 0x180).2.storesOut.noteRead 0x180 64
    let d := s1.proxyDesc 0x180
    BlockAt s (s.opA taskW) 64 0x180 (lookedUp s 0x180) ∧ ((lookedUp s 0x180).blockWrite 0x180).1 = none ∧ (s.opB taskW).toNat < 2 ^ 48 ∧ d.ok = true ∧
    (s1.proxyOf s.asn 0x180).stopped = false ∧ bit (s1.peek (0x180 + 0x30) 8) 63 = false ∧
    (s1.peek (0x180 + 0x18) 8 + 2 ^ 64 - s1.peek (0x180 + 0x28) 8) % 2 ^ 64 ≠ d.slots ∧
    (match (s1.translate s1.focus s.asn (d.shadow + 16 * (s1.peek (0x180 + 0x18) 8 % d.slots)) .write).1 with
      | .ok p => decide (p.attr = 0) | .error _ => false) = true ∧
    (s1.proxyDesc 0x140).ok = false :=
  ⟨⟨by decide, by decide, placeOk_some (by decide +kernel)⟩, by decide +kernel⟩

/-- HEAD is 16 slots ahead of ACCEPTED. -/
theorem witness_proxy_full :
    let s := taskS 0x180 0x100
    let t := (lookedUp { s with die := { s.die with mem := s.die.mem.write 0x198 16 } } 0x180).storesOut.noteRead 0x180 64
    (t.peek (0x180 + 0x18) 8 + 2 ^ 64 - t.peek (0x180 + 0x28) 8) % 2 ^ 64 = (t.proxyDesc 0x180).slots ∧ (t.proxyDesc 0x180).ok = true := by
  decide +kernel

theorem witness_retrieve :
    let s := taskS 0x100 0x300
    s.outstanding < 256 ∧ ∃ block s1 ring s2, s.retrPlace (s.opA { taskW with sa := .x 1 }) = (.ok block, s1) ∧
      s1.retrPlace (s.opB taskW) = (.ok ring, s2) ∧ (s2.ringDesc ring).ok = true ∧ (s2.ringDesc 0x140).ok = false := by
  refine ⟨by decide, _, _, _, _, rfl, rfl, ?_, ?_⟩ <;> decide +kernel

def someCmd : RetrCmd :=
  { uid := 0, op := 0x240, task := 0, issue := 0, seq := 0, part := 0, region := 0, blockPa := 0, ringPa := 0, accepted := false,
    handle := 0, k := 1, blockNo := 0, user := 0, id := 0, out := 0, table := 0, gen := 0, hpos := 0, tablePa := 0,
    outPas := [], vas := [], query := none, killed := false, result := none }

theorem witness_retrieve_waits :
    let s := { run0 with retr := { Retr.reset with cmds := List.replicate 256 someCmd } }
    256 ≤ s.outstanding ∧ ((taskS 1 0).opA taskW).toNat % 64 ≠ 0 ∧ (taskS 1 0).outstanding < 256 := by decide +kernel

/-- The ring at 0x300 holds an entry, the one at 0x340 none. -/
theorem witness_rpop :
    ∃ pa s1, (taskS 0x300 0).retrPlace ((taskS 0x300 0).opA taskW) = (.ok pa, s1) ∧ (s1.ringDesc pa).ok = true ∧
      s1.peek (pa + 0x18) 8 < s1.peek (pa + 0x10) 8 ∧ (s1.ringDesc 0x340).ok = true ∧
      s1.peek (0x340 + 0x10) 8 ≤ s1.peek (0x340 + 0x18) 8 ∧ bit (immW 1).imm.toNat 0 = true ∧ bit (immW 0).imm.toNat 0 = false ∧
      (taskS 0x300 0).ctx.target 0 taskW.dst = some (.x 0 3) ∧ (s1.ringDesc 0x140).ok = false := by
  refine ⟨_, _, rfl, ?_⟩
  decide +kernel

def someIndex : Index :=
  { part := 0, region := 0, rights := 3, efmt := 0x0F, dim := 64, home := 0, batchUs := 0, arenaBase := 0, arenaLen := 0x100000,
    traceBase := 0, traceSlots := 1, logPages := 1, threshold := 0, budget := 0, resize := none, gen := 1, hposNext := 0, log := [],
    versions := [], objects := [], counters := Vector.replicate 13 0, pass := none, asked := [], paused := false, dying := false,
    logFpns := [] }

theorem witness_rstat :
    let s := taskS 1023 0
    let t := { s with retr := { Retr.reset with indexes := [(1023, someIndex)] } }
    t.usableIdx (t.opA taskW) = some someIndex ∧ (immW 12).imm.toNat < 13 ∧ 13 ≤ (immW 13).imm.toNat ∧
    s.usableIdx (s.opA taskW) = none := by decide +kernel

/-! Witnesses: engines. -/

/-- A copy of one byte of S8 from scratchpad offset 0 to `dst`, for ring 1; `op` in place of 1 for another operation. -/
def copyRec (dst op : Nat) : BitVec 512 :=
  BitVec.ofNat 512 (op + 0x0F * 2 ^ 16 + 0x0F * 2 ^ 22 + 2 ^ 28 + 2 ^ 48 + 2 ^ 47 * 2 ^ 64 + (2 ^ 47 + dst) * 2 ^ 112 + nestTrips)

/-- Core 0 at the start of a cycle with one record in slot 63, ring 1 holding `filled` of two, and next unit `unit`. -/
def engineS (record : BitVec 512) (state : SlotState) (filled unit : Nat) : State :=
  at0 { ctx0 with
    spadGrant := 0x1000, rings := ctx0.rings.set 1 { slots := 2, rp := 0, wp := 0, filled }
    seq := { ctx0.seq with unit, slots := ctx0.seq.slots.set 63 { record, state, order := 0, checked := false, invalid := false } } } 0

theorem engineS_may (record : BitVec 512) (filled unit : Nat) :
    EngineMay (engineS record .released filled unit) 0 ∧ EngineMay (engineS record .running filled unit) 0 :=
  ⟨⟨by decide, rfl, rfl, rfl, rfl, rfl⟩, ⟨by decide, rfl, rfl, rfl, rfl, rfl⟩⟩

/-- A record that starts, one whose ring is full, and one that is none of the table. -/
theorem witness_recordStart :
    let r := Nest.ofBits (copyRec 1 1)
    (engineS (copyRec 1 1) .released 1 0).ctx.seqNextStart = some 63 ∧ r.recordOk = true ∧ r.closes = false ∧ r.op ≠ 8 ∧
    ((engineS (copyRec 1 1) .released 1 0).ctx.ring r.ring).filled ≠ 2 ∧
    ((engineS (copyRec 1 1) .released 2 0).ctx.ring r.ring).filled = 2 ∧ r.op ≠ 0 ∧
    (engineS (copyRec 1 10) .released 0 0).ctx.seqNextStart = some 63 ∧ (Nest.ofBits (copyRec 1 10)).recordOk = false ∧
    ((engineS (copyRec 1 10) .released 0 0).ctx.slotAt 63).checked = false := by decide +kernel

/-- The only unit of a running copy, inside the grant and outside. -/
theorem witness_sequencerUnit :
    let s := engineS (copyRec 0xFFF 1) .running 0 0
    let r := Nest.ofBits (copyRec 0xFFF 1)
    let t := engineS (copyRec 0x1000 1) .running 0 0
    s.ctx.seqRunning = some 63 ∧ r.units = 1 ∧
    (match s.unitCells r 0 with | (.ok us, s1) => decide ((s1.performUnit r us).2 = []) | (.error _, _) => false) = true ∧
    (match (t.unitCells (Nest.ofBits (copyRec 0x1000 1)) 0).1 with | .ok _ => false | .error _ => true) = true := by decide +kernel

theorem witness_recordComplete :
    let s := engineS (copyRec 1 1) .running 0 1
    s.ctx.seqRunning = some 63 ∧ (Nest.ofBits (copyRec 1 1)).units ≤ s.ctx.seq.unit ∧ s.ctx.seq.held = [] ∧ (Nest.ofBits (copyRec 1 1)).mayOverlap = false ∧
    (engineS 9 .running 0 0).ctx.seqRunning = some 63 ∧ (Nest.ofBits 9).closes = true ∧ (Nest.ofBits 9).units = 0 ∧
    (Nest.ofBits 9).mayOverlap = false ∧ (Nest.ofBits 9).ring < 16 := by decide +kernel

theorem witness_engineWaits : (run0.core 0).turn ≠ 0 := by decide

/-- An LDLK of the second stream that waits, its lock bit clear and set. -/
theorem witness_lockRetry :
    let f := { flightOf (.command (.lock 8 (.x 1 1))) with stream := 1 }
    let s := at0 { ctx0 with flights := [f] } 0
    waitingLock s.ctx 1 = some f ∧ (s.core 0).locks.getLsbD (lockBit 8) = false ∧
    ((s.setCore 0 { s.core 0 with locks := BitVec.twoPow 512 (lockBit 8) }).core 0).locks.getLsbD (lockBit 8) = true ∧
    waitingLock s.ctx 0 = none := by decide +kernel

/-- Line 0x80 of a mapped page, and a line of an unmapped one. -/
theorem witness_icacheFill :
    let s := taskS 0 0
    (∃ code s1, s.codeBytes 0 s.asn (128 * 0x80) 128 = (.ok code, s1)) ∧
    ∃ cause s1, s.codeBytes 0 s.asn (128 * 0x1000000) 128 = (.error cause, s1) :=
  ⟨exists_ok (by decide +kernel), exists_error (by decide +kernel)⟩

theorem witness_blockCacheFill :
    let b : BlockTag := { asn := 0, first := 0, count := 2, complete := false, age := 0, plines := [0, 1] }
    let l : BlockLine := { pline := 0, data := List.replicate 128 0, dirty := 0, stale := false, writers := [] }
    let k : Core := { Core.reset with blocks := [b], lines := [l] }
    k.blocks.find? (fun b => k.nextFill b = some 1) = some b ∧ (k.lineOf 0).isSome = true ∧
    Core.reset.blocks.find? (fun b => Core.reset.nextFill b = some 1) = none := by decide

theorem witness_generatorRead :
    ((portS (walkRec 0 64) .read).ctx.port 7).ahead.length < (Nest.ofBits (walkRec 0 64)).maxAhead ∧
    (portS (walkRec 0 64) .read).ctx.moves = true ∧ (State.reset.runCtx 0).moves = false ∧
    (Nest.ofBits (walkRec 0 64)).maxAhead ≤ (List.replicate 4 (PortEntry.tile [])).length := by decide +kernel

/-- The array may start the step in the cycle after its issue, and not before. -/
theorem witness_matrixStep :
    let c := { ctx0 with array := [(0, 8, 9)], cycle := 10 }
    max c.arrayFree (9 + 1) ≤ c.coreCycle ∧ ({ c with cycle := 9 } : Ctx).coreCycle < max c.arrayFree (9 + 1) := by decide

theorem witness_noCore : 128 ≤ 128 ∧ 8 ≤ 8 := by decide

/-! Witnesses: pre-emption, placement, records. -/

def saveTask : Task := { bareTask with margin := 15, saveBase := 0x10000 }

theorem witness_preempt :
    let s := at0 { ctx0 with task := some saveTask } 0
    let t := s.setCore 0 { s.core 0 with ready := [readyRec] }
    t.ctx.task = some saveTask ∧ (t.core 0).ready.head? = some readyRec ∧ saveTask.margin ≠ 0 ∧ saveTask.saveBase ≠ 0 ∧
    saveTask.prio + saveTask.margin ≤ readyRec.prio ∧ saveTask.preempt = false ∧ (run0.core 0).ready.head? = none := by decide

theorem witness_contextSave :
    let s := at0 { ctx0 with task := some { saveTask with preempt := true } } 0
    (s.core 0).turn = 0 ∧ s.ctx.moves = true ∧ s.ctx.faults = [] ∧ s.ctx.lockS = none ∧ s.ctx.lockL = none ∧ s.ctx.handler = false ∧
    s.capture.1 = true ∧ s.capture.2.ctx.task = some { saveTask with preempt := true } ∧ (run0.core 0).turn ≠ 0 := by decide +kernel

/-- An empty core 0 with a record in its list. -/
def listS (r : Ready) : State := inWorld (State.reset.setCore 0 { Core.reset with ready := [r] })

theorem witness_placement :
    (match (listS readyRec).nextPlaced 0 with
      | some (r, .place j slot _ recs) => decide (r = readyRec ∧ j < 2 ∧ slot = 0 ∧ recs = []) | _ => false) = true ∧
    (match (listS { readyRec with code := 0x5000 }).nextPlaced 0 with
      | some (_, .reject reason) => decide (reason = 1) | _ => false) = true ∧
    (State.reset.nextPlaced 0).isNone = true ∧ (State.reset.savedFor 0).isNone = true := by decide +kernel

/-- A saved context that core 0 takes back in its first slot. -/
theorem witness_restore :
    let x : Saved := { base := 0x10000, ctx := ctx0, marks := [] }
    let r := { readyRec with saved := some x }
    let s := listS r
    s.savedFor 0 = some (0, r) ∧ s.restorable 0 r = some 0 ∧ x.ctx.task = some bareTask := by decide +kernel

/-- A record of the highest class in the queues of cluster 15. -/
theorem witness_recordMove :
    let s := State.reset.setCluster 15 { Cluster.reset with queues := Cluster.reset.queues.set 15 [readyRec] }
    (s.cluster 15).oldest = some readyRec ∧ s.emptiest 15 = some 120 ∧ (State.reset.cluster 15).oldest = none := by decide +kernel

/-! Witnesses: debug, slices, gangs. -/

theorem witness_debugAt :
    DebugAt run0 0 0 ∧ (run0.ctxAt 127 1).task = none ∧ 1 ≤ 1 ∧ 2 ^ 32 - 1 < 2 ^ 32 ∧ 2 ^ 32 ≤ 2 ^ 32 :=
  ⟨⟨by decide, by decide, rfl, by decide⟩, by decide⟩

/-- A halt, an armed cycle and a STEP's cycle that have come. -/
theorem witness_debugStop :
    let s := at0 { ctx0 with dbg := { ctx0.dbg with halt := true } } 0
    let c := { ctx0 with cycle := 7, dbg := { ctx0.dbg with cycle := some 7 } }
    (s.core 0).turn = 0 ∧ s.ctx.moves = true ∧ s.ctx.faults = [] ∧ s.ctx.dbg.halt = true ∧ s.capture.1 = true ∧
    c.dbg.cycle = some 7 ∧ ({ c with dbg := { c.dbg with step := some 7 } } : Ctx).dbg.step = some 7 ∧ 7 ≤ c.cycle ∧ (run0.core 0).turn ≠ 0 := by decide +kernel

theorem witness_debugAccess :
    let s := at0 { ctx0 with spadGrant := 0x1000, dbg := { ctx0.dbg with stopped := true } }
    s.linkFree 0 = true ∧ (∀ k < 16, s.linkFree k = true) ∧ (s.ctxAt 0 0).dbg.stopped = true ∧ 63 < (s.ctxAt 0 0).spadGrant ∧ 0x20 ≤ 0x20 ∧ 0x20 ≠ 0x1F ∧ 0x20 < 0x21 ∧
    (run0.ctxAt 0 0).dbg.stopped = false := by decide

/-- Four bytes at the end of a line that code may be fetched from; a page that is not there. -/
theorem witness_patch :
    let s := taskS 0 0
    0x407C % 4 = 0 ∧ 0x407C % 128 + 4 = 128 ∧ s.codePlace 0 0x407C = some 0x407C ∧ s.die.poisonIn 0x407C 4 = none ∧
    s.codePlace 0 0x8000000000 = none ∧ 0x407D % 4 ≠ 0 := by decide +kernel

theorem witness_llcOperation :
    State.reset.die.poisonIn 0x5F_FFFF_FFE0 32 = none ∧ 0x5F_FFFF_FFE0 < 0x60_0000_0000 ∧ bit 1 0 = true ∧ bit 0 0 = false ∧
    bit 2 1 = true ∧ bit 1 1 = false := by decide

theorem witness_tlbinv :
    let full := { State.reset with die := { Die.reset with tlbQueue := List.replicate 16 0 } }
    State.reset.die.tlbQueue.length < 16 ∧ 16 ≤ full.die.tlbQueue.length ∧ State.reset.die.tlbQueue = [] ∧
    full.die.tlbQueue = 0 :: List.replicate 15 0 := by decide

/-- An invalidation of all of partition 0 while a store of its task to memory is in flight, and while none is. -/
theorem witness_tlbInvalidation :
    let s := at0 { ctx0 with flights := [flightOf (.store false (storedCells 0x1000 0x1000 1 0))] }
    s.oldAccess (2 ^ 63) = true ∧ run0.oldAccess (2 ^ 63) = false := by decide +kernel

/-- One part of gang 3, in a phase, on cluster 1 and core 8. -/
def gangPart (phase : PartPhase) (core : Option Nat) : GangPart := { part := 0, record := 0x100, ready := some readyRec, cluster := 1, core, phase, kept := none }
def gangOf (parts : List GangPart) (sent start : Option Nat) : Gang := { queue := 0, launch := 3, parts, sent, start, fabric := none }

/-- A world with the gang, and the reserved task of its part on core 8. -/
def gangS (g : Gang) (time : Nat) : State :=
  let s := inWorld { State.reset with time := time * timeUnit }
  let t : Task := { bareTask with record := 0x100, gated := true }
  { s with die := { s.die with gangs := [g] } }.setCore 8 { Core.reset with ctx := Core.reset.ctx.set 0 { Ctx.reset with task := some t } }

theorem witness_reserve :
    let g := gangOf [gangPart .idle none] none none
    let s := { inWorld State.reset with die := { (inWorld State.reset).die with gangs := [g] } }
    s.linkFree 1 = true ∧ s.reserving = some g ∧ g.failure = none ∧ s.reservePart g 1 = some (0, gangPart .idle none) ∧
    State.reset.reserving = none := by decide +kernel

theorem witness_reserve_place :
    let p : GangPart := { gangPart .idle none with record := 0x1000100 }
    let g := gangOf [p] none none
    let s := { inWorld State.reset with die := { (inWorld State.reset).die with mem := worldMem ++ [(0x1000101, 0x40)], gangs := [g] } }
    s.reserving = some g ∧ s.reservePart g 1 = some (0, p) ∧
    (match s.partCheck p with
      | .ok x => (s.reserveCore p x 1).isSome | .error _ => false) = true := by decide +kernel

/-- All reserved: a start 2 µs away, and a nanosecond less. -/
theorem witness_commit :
    let g := gangOf [gangPart .reserved (some 8)] (some 0) none
    let s := gangS g 0
    s.gang 3 = some g ∧ g.allReserved = true ∧ s.now + 2000 ≤ 2000 ∧ 1999 < s.now + 2000 ∧ g.start = none ∧
    s.reserving.map (·.launch) = some 3 ∧
    g.first (fun p => p.phase = .reserved && p.cluster = 1) = some (0, gangPart .reserved (some 8)) := by decide +kernel

/-- Of three parts one has failed, two are reserved. -/
theorem witness_rollback :
    let g := gangOf [gangPart .reserved (some 8), gangPart .reserved (some 8), gangPart (.failed 1) none] (some 0) none
    let s := gangS g 0
    s.gang 3 = some g ∧ g.failure.isSome = true ∧
    g.first (fun p => p.phase = .reserved && p.cluster = 1) = some (0, gangPart .reserved (some 8)) ∧
    s.gatedSlot (gangPart .reserved (some 8)) = some (8, 0) ∧ (s.ctxAt 8 0).task.isSome = true ∧
    (g.setPart 0 { gangPart .reserved (some 8) with phase := .idle, core := none, kept := none }).parts.any (fun p => p.phase = .reserved) = true ∧
    (gangOf [gangPart .idle none] none none).failure = none := by decide +kernel

/-- The start instant has come; it has not; there is no gang. -/
theorem witness_gangStart :
    let p := gangPart .committed (some 8)
    let g := gangOf [p] (some 0) (some 2000)
    (gangS g 2000).gang 3 = some g ∧ 2000 ≤ (gangS g 2000).now ∧ g.first (fun p => p.phase = .committed && p.cluster = 1) = some (0, p) ∧
    (gangS g 2000).gatedSlot p = some (8, 0) ∧ ((gangS g 2000).ctxAt 8 0).task.isSome = true ∧ (gangS g 1999).now < 2000 ∧
    State.reset.gang 3 = none := by decide +kernel

/-- A part has waited for 10 ms; for a nanosecond less. -/
theorem witness_gangTimeout :
    let g := gangOf [gangPart .waiting none] (some 0) none
    (gangS g 10000000).gang 3 = some g ∧ g.start = none ∧ g.failure = none ∧ g.sent = some 0 ∧ 10000000 ≤ (gangS g 10000000).now ∧
    g.first (fun p => p.phase = .waiting) = some (0, gangPart .waiting none) ∧ (gangS g 9999999).now < 10000000 := by decide +kernel

/-! Witnesses: retrieval events, proxies. -/

/-- A world with index 1023 of controller 15 and some commands; `mem` holds the command block at 0x500. -/
def retrS (x : Index) (cmds : List RetrCmd) (mem : Mem) : State :=
  let s := inWorld State.reset
  { s with die := { s.die with mem := mem ++ worldMem.filter (fun c => 0x1000 ≤ c.1) },
           retr := { Retr.reset with indexes := [(1023, x)], cmds } }

def sentCmd : RetrCmd := { someCmd with op := 0x243, blockPa := 0x500, ringPa := 0x340, handle := 1023 }

/-- A KVF block of handle 1023, one that breaks the table, one of handle 1022, and a poisoned one. -/
theorem witness_commandAccept :
    let good : Mem := [(0x500, 0xFF), (0x501, 0x03)]
    let s := retrS someIndex [sentCmd] good
    s.retr.cmds.find? (fun c => !c.accepted) = some sentCmd ∧ s.die.poisonIn 0x500 64 = none ∧
    (CmdBlock.ofBytes (s.die.mem.load 0x500 64)).bad 0x243 = false ∧
    (CmdBlock.ofBytes ((retrS someIndex [] [(0x502, 1)]).die.mem.load 0x500 64)).bad 0x243 = true ∧
    s.idx 1022 = none ∧ s.idx 1023 = some someIndex ∧ ({ s.die with poison := [0x520] } : Die).poisonIn 0x500 64 ≠ none ∧
    State.reset.retr.cmds.find? (fun c => !c.accepted) = none := by decide +kernel

theorem witness_oneUid : OneUid (retrS someIndex [sentCmd] []) sentCmd := by
  intro d hd _
  exact List.mem_singleton.1 hd

/-- The fetch of an object that is there with its pages read, of one that is not there, of a killed command, and of an object whose
page is still being read. -/
theorem witness_kvfFetch :
    let x := { someIndex with home := 15, objects := [{ id := 7, block := 0, gen := 1, contents := some [1], fpns := [0] }] }
    let c := { sentCmd with accepted := true, id := 7, gen := 1 }
    let s := retrS x [c] []
    let reading (s : State) (c : RetrCmd) : Bool := s.retr.reads.any fun r => r.kind = .object && r.cmds = [c.uid]
    let due (s : State) (c : RetrCmd) : Bool := c.op = 0x243 && c.accepted && c.result.isNone && ((s.idx c.handle).any fun x => x.home = 15) &&
      (c.killed || !reading s c)
    let r : FlashRead := { handle := 1023, version := 0, fpn := 0, level := 0, kind := .object, cmds := [0], seq := 0 }
    let busy (s : State) : State := { s with retr := { s.retr with reads := [r] } }
    let k := { c with killed := true }
    (s.retr.cmds.filter (due s))[0]? = some c ∧ s.idx c.handle = some x ∧ c.killed = false ∧ x.objectAt c.id c.blockNo c.gen = some ([1], [0]) ∧
    s.die.poisonIn c.tablePa 16 = none ∧ x.objectAt c.id c.blockNo 0 = none ∧ ((busy s).retr.cmds.filter (due (busy s)))[0]? = none ∧
    ((busy (retrS x [k] [])).retr.cmds.filter (due (busy (retrS x [k] []))))[0]? = some k ∧ k.killed = true := by decide +kernel

/-- A completion with room in its ring. -/
theorem witness_completionWrite :
    let c := { sentCmd with accepted := true, result := some { status := 0, gen := 1, aux := 0 } }
    let s := retrS { someIndex with home := 15 } [c] [(0x341, 0x20), (0x348, 1)]
    let ready (c : RetrCmd) : Bool := c.result.isSome && s.ctlOf c = 15 && s.ringRoom c
    s.retr.cmds.find? ready = some c ∧
    (s.ctlPlace c.part ((s.ringDesc c.ringPa).base + 32 * (s.peek (c.ringPa + 0x10) 8 % (s.ringDesc c.ringPa).slots)) .write).1 =
      some 0x2000 ∧ s.die.poisonIn (c.ringPa + 0x10) 8 = none ∧ State.reset.retr.cmds.find? ready = none := by decide +kernel

def someRead (kind : ReadKind) (level : Nat) : FlashRead :=
  { handle := 1023, version := 1, fpn := 0xF000_0000, level, kind, cmds := [], seq := 0 }

theorem witness_flashReads :
    let s (r : FlashRead) : State := { State.reset with retr := { Retr.reset with reads := [r], decoded := [r] } }
    let mine (r : FlashRead) : Bool := pageCtl r.fpn = 15
    (s (someRead (.page 0 0) 6)).retr.reads.find? mine = some (someRead (.page 0 0) 6) ∧
    (s (someRead (.prefetch 0) 7)).retr.reads.find? mine = some (someRead (.prefetch 0) 7) ∧
    (s (someRead .darn 0)).retr.reads.find? mine = some (someRead .darn 0) ∧
    (s (someRead (.log 0) 0)).retr.reads.find? mine = some (someRead (.log 0) 0) ∧
    (s { someRead .object 7 with cmds := [0] }).retr.reads.find? mine = some { someRead .object 7 with cmds := [0] } ∧
    (s (someRead (.page 0 0) 0)).retr.decoded.find? mine = some (someRead (.page 0 0) 0) ∧
    (retrS { someIndex with pass := some { cut := 0, reads := 1, cmds := [] } } [] []).idx 1023 ≠ none ∧
    State.reset.retr.reads.find? mine = none ∧ State.reset.retr.decoded.find? mine = none ∧
    State.reset.retr.batches.find? (State.reset.batchDue 15) = none := by decide +kernel

/-- A batch of 64 queries on a pocket of one page. -/
theorem witness_batchRelease :
    let p : Pocket := { number := 3, fromGen := 1, radsq := 0, seams := [], centre := [], pages := [{ fpn := 0xF000_0000, fromGen := 1, members := [] }], place := 0 }
    let x := { someIndex with batchUs := 1000, versions := [{ fromGen := 1, cut := 0, root := none, nodes := [], pockets := [p] }] }
    let b : Batch := { handle := 1023, version := 1, pocket := 3, since := 0, cmds := List.range 64 }
    let s := retrS x [] []
    let t := { s with retr := { s.retr with batches := [b] } }
    t.retr.batches.find? (t.batchDue 15) = some b ∧ t.batchPocket b = some p ∧ p.pages = { fpn := 0xF000_0000, fromGen := 1, members := [] } :: [] ∧
    t.retr.buffered.contains (b.handle, 0xF000_0000) = false := by decide +kernel

theorem witness_offer :
    let a : Candidate := { dist := 1, id := 1, source := 0, gen := 1 }
    let b : Candidate := { dist := 1, id := 2, source := 0, gen := 1 }
    [a, b].Pairwise (fun a b => a.before b = true) ∧ (∃ x ∈ [a, b], x.id = 2) ∧ ∀ x ∈ [a, b], x.id ≠ 3 := by decide

/-- An accepted append, a threshold that is passed, a pass whose reads are done with seven versions live. -/
theorem witness_indexEvents :
    let e : HemEntry := { hpos := 0, id := 5, vec := none, gen := none }
    let v : Version := { fromGen := 1, cut := 0, root := none, nodes := [], pockets := [] }
    let x := { someIndex with log := [e], threshold := 0, asked := [1], versions := List.replicate 7 v }
    let y := { x with pass := some { cut := 0, reads := 0, cmds := [] }, asked := [] }
    (retrS x [] []).idx 1023 = some x ∧ x.log.find? (fun e => e.gen.isNone) = some e ∧ x.pass = none ∧ x.asked ≠ [] ∧
    (x.paused = false ∧ 0 < x.unabsorbed) ∧ y.pass = some { cut := 0, reads := 0, cmds := [] } ∧ y.versions.length < 8 ∧
    8 ≤ (List.replicate 8 v).length ∧ someIndex.log.find? (fun e => e.gen.isNone) = none ∧ someIndex.asked = [] ∧
    someIndex.threshold = 0 ∧ State.reset.idx 1023 = none := by decide +kernel

/-- A full batch of one entry, and a queue with nothing pushed. -/
theorem witness_proxyForward :
    let s := inWorld State.reset
    let x : Proxy := { part := 0, desc := 0x180, pushed := [0], sent := [0], batch := [], flush := none, stopped := false }
    let t := { s with die := { s.die with proxies := [x] }, time := 10000000 * 720720 }
    s.proxyPlace 0 0x180 = some 0x180 ∧ (s.proxyDesc 0x180).batch = 1 ∧ t.proxyOf 0 0x180 = x ∧ x.pushed = 0 :: [] ∧
    0 + 10000000 * 720720 ≤ t.time ∧ (s.proxyOf 0 0x180).pushed = [] ∧ (s.proxyOf 0 0x180).sent = [] ∧
    s.vaLook 0 ((s.proxyDesc 0x180).shadow + 16 * 0) .read = some 0x1000 ∧ State.reset.proxyPlace 0 0x180 = none := by decide +kernel

/-- A record, a join that waits, a killed one, and one that is no join. -/
theorem witness_proxyAccept :
    let s := inWorld State.reset
    s.partOfCluster 15 = some 0 ∧ s.readRecord 0 0x100 = some zeroRecord ∧ zeroRecord.bad 0x100 = false ∧
    s.rgnLive 0 (w3Region zeroRecord.w3) = true ∧ (s.readRecord 0 0x140).map (fun r => (w3Killed r.w3, w3Jr r.w3, w3Wait r.w3)) =
      some (false, true, true) ∧ (s.readRecord 0 0x1C0).map (fun r => w3Killed r.w3) = some true ∧ w3Jr zeroRecord.w3 = false ∧
    w3Wait zeroRecord.w3 = false ∧ w3Killed zeroRecord.w3 = false ∧ 0x140 % 64 = 0 ∧ 0x120 % 64 ≠ 0 := by decide +kernel

/-! Witnesses: registers and packets of the host. -/

/-- The windows 0 and 5 of BAR2; register writes that name none; a doorbell of the last queue. -/
theorem witness_hostRegisters :
    (2 ^ 64 - 1 : Nat) < 2 ^ 64 ∧ bits (5 * 2 ^ 36) 38 36 < 6 ∧ 6 ≤ bits (6 * 2 ^ 36) 38 36 ∧
    (0x04 : Nat) ∉ [0x00, 0x08, 0x10, 0x18, 0x20, 0x28, 0x30, 0x38, 0x40, 0x48] ∧ 0x04 < 0x1_0000 + 8 * 0 ∧
    State.reset.host.mgmtAccepted = 0 ∧ (64 + 2 ^ 64 - 0) % 2 ^ 64 ≤ 64 ∧ 64 < (65 + 2 ^ 64 - 0) % 2 ^ 64 ∧
    ({ Host1.reset with crown := 1 } : Host1).crown = 1 ∧ bit 1 0 = true ∧ Host1.reset.crown ≠ 1 ∧
    PartState.resettable .active = true ∧ (State.reset.queueOf 1023).isNone = true ∧
    0x5F_FFFF_FFF8 + 8 ≤ 0x60_0000_0000 ∧ 0x60_0000_0000 < 0x5F_FFFF_FFF9 + 8 ∧ State.reset.die.poisonIn 0x5F_FFFF_FFF8 8 = none ∧
    (({ Die.reset with poison := [0x5F_FFFF_FFE0] } : Die).poisonIn 0x5F_FFFF_FFF8 8).isSome = true := by decide +kernel

/-- The header word of a packet. -/
def pktHead (kind len arg : Nat) : Nat := kind + 2 ^ 8 * len + 2 ^ 32 * arg

/-- Queue 1023 of partition 0 over host memory, running, with a window of some packet words and `wptr` past them. -/
def queueS (words : List Nat) (wptr : Nat) (progress : Progress) (mitten : Bool) : State :=
  let l : Level := { kind := .ring, host := true, start := 0, stop := 0, pos := 0, passes := 0, window := none }
  let x : Queue :=
    { part := 0, host := true, base := 0, size := 4096, gauntlet := 0, mapped := true, state := .running, rptr := 0, wptr,
      levels := [l], windows := [(0, { host := true, start := 0, bytes := words.flatMap (natBytes 8) })], skip := 0, began := some 0,
      progress, completed := 0, lastCause := 0, lastGrade := 0 }
  let s := inWorld State.reset
  { s with host := { s.host with crown := 1, mitten, queues := [(1023, x)] } }

/-- The next packet of the queue, if there is one, as type, ARG and first word. -/
def nextOf (s : State) : Option (Nat × Nat × Nat) :=
  match s.queueOf 1023 with
  | none => none
  | some x => (match s.queueNext x with
    | .packet p => if s.host.mitten = false || mittenPacket p then some (p.kind, p.arg, p.word 0) else none
    | _ => none)

theorem nextOf_some {s : State} {v : Nat × Nat × Nat} (h : nextOf s = some v) :
    ∃ x p, NextPacket s 1023 x p ∧ (p.kind, p.arg, p.word 0) = v := by
  unfold nextOf at h
  split at h
  · simp at h
  · next x hx =>
    split at h
    · next p hp =>
      split at h
      · next hm => exact ⟨x, p, ⟨by decide, hx, hp, by simpa using hm⟩, by simpa using h⟩
      · simp at h
    · simp at h

/-- One packet of each type is next: NOP, FETCHFENCE, IB, LOOP (0 and 2 passes), PRED, WAITMEM, WRITEMEM, SIGNAL with and without
a store, TIMESTAMP. -/
theorem witness_packets :
    (∃ x p, NextPacket (queueS [pktHead 0 1 0] 8 .none true) 1023 x p ∧ (p.kind, p.arg, p.word 0) = (0, 0, 0)) ∧
    (∃ x p, NextPacket (queueS [pktHead 9 1 0] 8 .none false) 1023 x p ∧ (p.kind, p.arg, p.word 0) = (9, 0, 0)) ∧
    (∃ x p, NextPacket (queueS [pktHead 2 3 0, 2 ^ 63, 1048576] 24 .none false) 1023 x p ∧ (p.kind, p.arg, p.word 0) = (2, 0, 2 ^ 63)) ∧
    (∃ x p, NextPacket (queueS [pktHead 4 2 0, 8 * 2 ^ 32] 24 .none false) 1023 x p ∧ (p.kind, p.arg, p.word 0) = (4, 0, 8 * 2 ^ 32)) ∧
    (∃ x p, NextPacket (queueS [pktHead 4 2 0, 8 * 2 ^ 32 + 2] 24 .none false) 1023 x p ∧ (p.kind, p.arg, p.word 0) = (4, 0, 8 * 2 ^ 32 + 2)) ∧
    (∃ x p, NextPacket (queueS [pktHead 3 4 0x105, 2 ^ 63, 0, 0, pktHead 0 1 0] 40 .none false) 1023 x p ∧ (p.kind, p.arg, p.word 0) = (3, 0x105, 2 ^ 63)) ∧
    (∃ x p, NextPacket (queueS [pktHead 5 4 5, 2 ^ 63, 0, 0] 32 .none false) 1023 x p ∧ (p.kind, p.arg, p.word 0) = (5, 5, 2 ^ 63)) ∧
    (∃ x p, NextPacket (queueS [pktHead 6 3 1, 2 ^ 63, 7] 24 .none false) 1023 x p ∧ (p.kind, p.arg, p.word 0) = (6, 1, 2 ^ 63)) ∧
    (∃ x p, NextPacket (queueS [pktHead 7 3 0x7FF, 2 ^ 63, 7] 24 .none false) 1023 x p ∧ (p.kind, p.arg, p.word 0) = (7, 0x7FF, 2 ^ 63)) ∧
    (∃ x p, NextPacket (queueS [pktHead 7 1 0x3FF] 8 .none false) 1023 x p ∧ (p.kind, p.arg, p.word 0) = (7, 0x3FF, 0)) ∧
    (∃ x p, NextPacket (queueS [pktHead 8 2 0, 2 ^ 63] 16 .none false) 1023 x p ∧ (p.kind, p.arg, p.word 0) = (8, 0, 2 ^ 63)) := by
  refine ⟨nextOf_some ?_, nextOf_some ?_, nextOf_some ?_, nextOf_some ?_, nextOf_some ?_, nextOf_some ?_, nextOf_some ?_,
    nextOf_some ?_, nextOf_some ?_, nextOf_some ?_, nextOf_some ?_⟩ <;> decide +kernel

/-- What the packets read and write: host memory, device memory that is there, and that is not. -/
theorem witness_packetMemory :
    let s := queueS [] 0 .none false
    (match (s.pktRead 0 (2 ^ 63) 8).1 with | .ok m => decide (m = 0) | .error _ => false) = true ∧
    (match (s.pktRead 0 0x8000000000 8).1 with | .ok _ => false | .error _ => true) = true ∧
    (s.pktWrite 0 0x2000 8 1).1 = none ∧ (s.pktWrite 0 0x8000000000 8 1).1 ≠ none ∧ funcHolds 0 0 0 0 = true ∧ funcHolds 1 0 0 0 = false ∧
    hostAddr (2 ^ 63) := by unfold hostAddr; decide +kernel

/-- A PRED that does not hold skips the packet after it. -/
theorem witness_predSkips :
    let s := queueS [pktHead 3 4 0x101, 2 ^ 63, 0, 0, pktHead 0 1 0] 40 .none false
    (match s.queueOf 1023 with
      | some x => (match (s.skipRun { x with skip := 1 } (x.after 0 32) 1).1 with | .past _ => true | _ => false)
      | none => false) = true := by decide +kernel

/-- A queue with nothing to do; one whose packet the Mitten holds; one that must fetch, waits for more, and cannot. -/
theorem witness_windowFetch :
    let fetches (s : State) : Bool := match s.queueOf 1023 with
      | some x => decide (s.queueNext x = .fetch)
      | none => false
    let finds (s : State) : Option FetchRes := (s.queueOf 1023).map fun x => (s.fetchAt x 0).1
    let s := queueS [] 8 .none false
    let t := { s with host := { s.host with mem := [(1, 1)] } }
    let mh := queueS [pktHead 3 4 0x101, 2 ^ 63, 0, 0] 32 .none true
    ((queueS [] 0 .none false).queueOf 1023).map (fun x => decide ((queueS [] 0 .none false).queueNext x = .none)) = some true ∧
    (match mh.queueOf 1023 with
      | some x => (match mh.queueNext x with | .packet p => !mittenPacket p | _ => false)
      | none => false) = true ∧
    fetches s = true ∧ finds s = some (.stop 0x54) ∧ fetches t = true ∧ (finds t).map (fun r => match r with | .window _ => 1 | _ => 0) = some 1 ∧
    finds (queueS [] 4 .none false) = some .wait := by decide +kernel

/-- A packet that breaks the table is found in the window. -/
theorem witness_windowBad :
    let s := queueS [pktHead 9 1 1] 8 .none false
    (s.queueOf 1023).map (fun x => (decide (s.queueNext x = .fetch), x.packet.isSome)) = some (true, true) := by decide +kernel

/-- Queue 1023 inside levels above its ring, the innermost window at its position. -/
def queueIn (words : List Nat) (levels : List Level) (windows : List (Nat × PktWindow)) : State :=
  let s := queueS words 64 .none false
  { s with host := { s.host with queues := s.host.queues.map fun p =>
    (p.1, { p.2 with levels := levels ++ p.2.levels, windows := windows ++ p.2.windows }) } }

/-- An IB in the second buffer, a LOOP in a loop's body, and a LOOP of the ring whose body is not there yet. -/
theorem witness_packetLevels :
    let b : Level := { kind := .ib, host := true, start := 0x100, stop := 0x140, pos := 0x100, passes := 1, window := none }
    let w (words : List Nat) : PktWindow := { host := true, start := 0x100, bytes := words.flatMap (natBytes 8) }
    let ib := queueIn [] [b, b] [(2, w [pktHead 2 3 0, 2 ^ 63, 8])]
    let l : Level := { kind := .loop, host := true, start := 0, stop := 0x20, pos := 0, passes := 2,
                       window := some { host := true, start := 0, bytes := [pktHead 4 2 0, 8 * 2 ^ 32].flatMap (natBytes 8) } }
    let loop := queueIn [] [l] []
    nextOf ib = some (2, 0, 2 ^ 63) ∧ (ib.queueOf 1023).map (fun x => x.depth) = some 2 ∧
    nextOf loop = some (4, 0, 8 * 2 ^ 32) ∧ (loop.queueOf 1023).map (fun x => x.top.kind) = some .loop ∧
    nextOf (queueS [pktHead 4 2 0, 8 * 2 ^ 32] 16 .none false) = some (4, 0, 8 * 2 ^ 32) ∧
    nextOf (queueS [pktHead 5 4 0, 2 ^ 63, 0, 0] 32 (.waitmem 0) false) = some (5, 0, 2 ^ 63) := by decide +kernel

/-! Witnesses: launches, resets, management, links, steps. -/

/-- Another state of partition 0. -/
def stateS (s : State) (st : PartState) : State := s.setPart 0 { s.part 0 with state := st }

/-- A LAUNCH of the record at 0x100, fresh, in a partition that drains, and waiting for one that goes on or has ended; of a record
that may not be handed over; of a gang of two parts. -/
theorem witness_launch :
    let s := queueS [pktHead 1 4 0, 0, 0, 0x100] 32 .none false
    let w := queueS [pktHead 1 4 16, 0, 0, 0x100] 32 (.launch 5) false
    let l : Launch1 := { ident := 5, queue := 1023, packet := 0, part := 0, report := 0, wait := true, gang := false, parts := [] }
    nextOf s = some (1, 0, 0) ∧ (s.part 0).state = .active ∧ nextOf (stateS s .draining) = some (1, 0, 0) ∧
    (stateS s .draining).part 0 = { s.part 0 with state := .draining } ∧ nextOf w = some (1, 16, 0) ∧ w.host.launches.find? (fun l => l.ident = 5) = none ∧
    [l].find? (fun l => l.ident = 5) = some l ∧ l.ended = true ∧
    ({ l with parts := [{ record := 0x100, handed := true, outcome := none }] } : Launch1).ended = false ∧
    s.handFault 0 0x100 false = none ∧ s.readRecord 0 0x100 = some zeroRecord ∧ s.handFault 0 0x1C0 false ≠ none ∧
    nextOf (queueS [pktHead 1 5 1, 0, 0, 0x100, 0x100] 40 .none false) = some (1, 1, 0) ∧ s.handFault 0 0x100 true = none ∧
    nextOf (queueS [pktHead 1 4 0, 0, 5, 0x100] 32 .none false) = some (1, 0, 0) ∧ s.recordFault 0 0x100 = none ∧
    s.recordFault 0 0x8000000000 ≠ none := by decide +kernel

/-- A host at 2 ms with the Crown in a state. -/
def crownS (h : Host1) (ms : Nat) : State := { State.reset with host := h, time := ms * 1000000 * timeUnit }

/-- A Crown that serves and has not beaten for 2 ms, or has just beaten; one the Mitten serves for; one that is gone; a mirror. -/
theorem witness_crown :
    let h := { Host1.reset with crown := 1, mirrorBase := 0x1001 }
    Host1.reset.lastBeat + 2000000 ≤ (crownS h 2).now ∧ h.crown = 1 ∧ h.mitten = false ∧ bit h.mirrorBase 0 = true ∧
    ¬ h.lastBeat + 900000 ≤ (crownS h 0).now ∧ (crownS h 0).now < h.lastBeat + 2000000 ∧ Host1.reset.crown = 0 ∧ Host1.reset.ladder ≠ 3 ∧
    bit Host1.reset.mirrorBase 0 = false := by decide +kernel

/-- A packet that began 2 ms ago with a Gauntlet of 1 ms, and with none. -/
theorem witness_gauntlet :
    let s := queueS [pktHead 0 1 0] 8 .none false
    let late (g : Nat) : State := { s with time := 2000000 * timeUnit, host := { s.host with queues := s.host.queues.map fun p => (p.1, { p.2 with gauntlet := g }) } }
    let isLate (s : State) : Bool := (s.queueOf 1023).any fun x => x.state = .running && x.gauntlet ≠ 0 && x.began = some 0 && 1000 * x.gauntlet ≤ s.now
    isLate (late 1000) = true ∧ ((late 1000).queueOf 1023).map (fun x => x.part) = some 0 ∧ ((late 1000).part 0).state.resettable = true ∧
    isLate (late 0) = false ∧ s.queueOf 1022 = none := by decide +kernel

theorem witness_resets :
    let s := stateS (inWorld { State.reset with time := 10000000 * timeUnit }) .resetting
    let t := s.setPstat 0 { s.pstat 0 with resetAt := some 0 }
    (t.part 0).state = .resetting ∧ (t.pstat 0).resetAt = some 0 ∧ 0 + 10000000 ≤ t.now ∧ (State.reset.part 7).state ≠ .resetting ∧
    (stateS (inWorld State.reset) .draining).isDrained 0 = true ∧ (inWorld State.reset).isDrained 0 = false ∧
    Host1.reset.crown = 0 ∧ Host1.reset.ladder ≠ 3 ∧ Link.reset.state = .down ∧ ({ Host1.reset with ladder := 3 } : Host1).ladder = 3 := by
  decide +kernel

/-- An entry of the management ring. -/
def mgmtOf (w1 w2 w3 w4 w5 w6 w7 : Nat) : Mgmt := { w0 := 0, w1, w2, w3, w4, w5, w6, w7 }

/-- A descriptor of all clusters in host memory. -/
def descMem : Mem := [(0x100, 0xFF), (0x101, 0xFF), (0x109, 0x80), (0x111, 0xA0), (0x118, 4), (0x12A, 0x10)]

theorem witness_partitions :
    let s := inWorld State.reset
    let p := mgmtOf 0 0x100 0 0 0 0 0
    let t := { State.reset with host := { Host1.reset with mem := descMem } }
    (p.w1 < 8 ∧ zeroFrom p 3 = true) ∧ (mgmtOf 8 0 0 0 0 0 0).w1 = 8 ∧ zeroFrom (mgmtOf 0 0 1 0 0 0 0) 3 = false ∧
    descriptorOf (t.host.mem.load 0x100 128) = some { clusters := 0xFFFF, ptroot := 0x8000, rgntab := 0xA000, rgncnt := 4, qbase := 0, qbytes := 0x100000, state := .unconfigured } ∧
    (∀ q < 8, q ≠ 0 → (t.part q).clusters &&& 0xFFFF = 0) ∧ (t.part 0).state = .unconfigured ∧
    descriptorOf (State.reset.host.mem.load 0x100 128) = none ∧ (s.part 0).state = .active ∧
    ((stateS t .drained).part 0).state = .drained ∧ ((stateS t .draining).part 0).state = .draining ∧
    PartState.resettable .active = true ∧ PartState.resettable .unconfigured = false := by decide +kernel

/-- A root region: a block that fits, one that is not aligned, one that is not mapped, and a table that is full. -/
theorem witness_rgnroot :
    let s := inWorld State.reset
    let full := s.setPart 0 { s.part 0 with rgncnt := 1 }
    let p := mgmtOf 0 0x200 0 0 0 0 0
    (p.w1 < 8 ∧ zeroFrom p 4 = true ∧ p.w2 < 2 ^ 48 ∧ p.w2 % 256 = 0) ∧ (mgmtOf 0 0x201 0 0 0 0 0).w2 % 256 ≠ 0 ∧
    s.vaLook 0 0x200 .write = some 0x200 ∧ s.vaLook 0 0x8000000000 .write = none ∧
    (∀ f ∈ rcbSoftware, rcbRange f (s.peek (0x200 + f.1) f.2) = true) ∧ (s.regionNew 0 0x200 0xFFFF).1 = some 1 ∧
    (full.regionNew 0 0x200 0xFFFF).1 = none := by decide +kernel

/-- The last queue number with the least and the largest ring; a queue that works, one that rests, one that has stopped, in each
state of its partition. -/
theorem witness_queueCommands :
    let p := mgmtOf 1023 7 (2 ^ 63 + 4096) (2 ^ 24) (2 ^ 32 - 1) 1 0
    let s := queueS [pktHead 0 1 0] 8 .none false
    let stop (st : QState) (q : PartState) : State :=
      stateS { s with host := { s.host with queues := s.host.queues.map fun x => (x.1, { x.2 with state := st }) } } q
    (p.w1 < 1024 ∧ p.w2 < 8 ∧ wordAligned p.w3 4096 = true ∧ (∃ k, 12 ≤ k ∧ k ≤ 24 ∧ p.w4 = 2 ^ k) ∧ p.w5 < 2 ^ 32 ∧ p.w6 < 2 ∧ p.w7 = 0) ∧
    State.reset.queueOf 1023 = none ∧ (s.queueOf 1023).map (fun x => x.working) = some true ∧
    ((stop .idle .active).queueOf 1023).map (fun x => x.working) = some false ∧
    ((stop .stopped .active).queueOf 1023).map (fun x => x.state) = some .stopped ∧
    ((stop .stopped .resetting).part 0).state = .resetting ∧ zeroFrom (mgmtOf 1023 0xFFFF_FFFF_FFFF_FFFF 0 0 0 0 0) 3 = true ∧
    zeroFrom (mgmtOf 1023 0xFFFF_FFF8 0 0 0 0 0) 3 = true ∧ (0xFFFF_FFF8 % 8 = 0) ∧ zeroFrom (mgmtOf 1023 0 0 0 0 0 0) 2 = true :=
  ⟨⟨by decide, by decide, by decide, ⟨24, by decide, by decide, by decide⟩, by decide, by decide, by decide⟩, by decide +kernel⟩

/-- A window of the largest size with its version just before it or after it, or inside; a window that is there; an entry to post. -/
theorem witness_windows :
    let fits (p : Mgmt) : Bool := p.w1 < 1024 && p.w2 < 8 && p.w3 % 4096 = 0 && p.w4 % 4096 = 0 && 4096 ≤ p.w4 && p.w4 ≤ 2 ^ 30 && p.w5 % 8 = 0 &&
      (p.w5 + 8 ≤ p.w3 || p.w3 + p.w4 ≤ p.w5) && zeroFrom p 6
    let w : Window := { part := 0, base := 0, len := 4096, verAddr := 4096, version := 0 }
    let s := { State.reset with host := { Host1.reset with windows := [(1023, w)], mgmtAccepted := 1 } }
    fits (mgmtOf 1023 7 4096 (2 ^ 30) 4088 0 0) = true ∧ fits (mgmtOf 1023 7 0 4096 4096 0 0) = true ∧ fits (mgmtOf 1023 7 0 4096 4088 0 0) = false ∧
    (∃ x ∈ s.host.windows, x.1 = 1023) ∧ s.publishing 1023 = false ∧ s.winBusy 1023 = false ∧
    (at0 { ctx0 with flights := [flightOf (.store false (storedCells 0 (hostWinBase + 1023 * 2 ^ 30) 1 0))] }).winBusy 1023 = true ∧ State.reset.host.windows = [] ∧
    s.host.mgmtAccepted ≠ s.host.mgmtDone ∧ State.reset.host.mgmtAccepted = State.reset.host.mgmtDone := by decide +kernel

/-- IDXCREATE at its least dimension; a flash that is full; a handle that is live, that a command holds, and that is free. -/
theorem witness_indexCommands :
    let p := mgmtOf 1023 (0x0F * 2 ^ 32) 0 0 65536 0 0
    let q := mgmtOf 1023 (0x0F * 2 ^ 32 + 2 ^ 40) 0 0 65536 0 (2 ^ 21 - 1)
    let s := retrS someIndex [] []
    let c := { sentCmd with accepted := true }
    (mgmtIndex q).valid = true ∧ bits q.w3 31 8 = 0 ∧ bit q.w7 63 = false ∧ (mgmtIndex p).valid = false ∧ State.reset.idx 1023 = none ∧
    State.reset.flashTaken 1023 + (mgmtIndex q).logPages + (mgmtIndex q).budget ≤ State.reset.flashPages ∧
    ({ State.reset with host := { Host1.reset with retiredBlocks := 2 ^ 32 } } : State).flashPages <
      State.reset.flashTaken 1023 + (mgmtIndex q).logPages + (mgmtIndex q).budget ∧
    s.idx 1023 = some someIndex ∧ (∃ x ∈ (retrS someIndex [c] []).retr.cmds, x.accepted = true ∧ x.handle = 1023) ∧ s.retr.cmds = [] ∧
    zeroFrom (mgmtOf 1023 0 65535 0 0 0 0) 5 = true ∧ zeroFrom (mgmtOf 1023 1 1 0 0 0 0) 4 = true ∧ zeroFrom (mgmtOf 1023 0 0 0 0 0 0) 2 = true ∧
    s.flashTaken 1023 + 1 + 1 ≤ s.flashPages ∧ ({ s with host := { s.host with retiredBlocks := 2 ^ 32 - 1 } } : State).flashPages < s.flashTaken 1023 + 1 + 1 := by
  decide +kernel

/-- Without a key no image is accepted and no request is signed. (With one, both rest on free values of Config, so no state that
accepts one can be shown.) -/
theorem witness_firmware :
    zeroFrom (mgmtOf 3 0 0 0 0 0 0) 3 = true ∧ (∀ i < 4, vget [] State.reset.host.fuses.keys i = []) ∧ (mgmtOf 4 0 0 0 0 0 0).w1 = 4 := by
  decide

/-- A schedule of 1 and of 4,096 entries, of none and of one too many, and a poisoned status word. -/
theorem witness_lsgo :
    let s (m : Mem) : State := { State.reset with die := { Die.reset with mem := m } }
    (s [(0x48, 1)]).peek (0x40 + 8) 8 = 1 ∧ (s [(0x49, 0x10)]).peek (0x40 + 8) 8 = 4096 ∧ (s [(0x48, 1), (0x49, 0x10)]).peek (0x40 + 8) 8 = 4097 ∧
    0x40 + 32 + 32 * 4096 ≤ 0x60_0000_0000 ∧ 0x60_0000_0000 < 0x5F_FFFF_FFE0 + 32 + 32 * 1 ∧
    (s []).peek (0x40 + 8) 8 = 0 ∧ (s []).peek (0x40 + 24) 8 = 0 ∧ (s [(0x58, 1)]).peek (0x40 + 24) 8 = 1 ∧ (s []).die.poisonIn (0x40 + 16) 8 = none ∧
    State.reset.host.sched = none := by decide

/-- An entry for link 15 with operation `op` and 64 elements of S8, its BUF given. -/
def linkBlock (op buf : Nat) : List Byte := natBytes 32 (op * 2 ^ 64 + 0xFF * 2 ^ 72 + 64 * 2 ^ 96 + buf * 2 ^ 128)

/-- The schedule of the block at 0x40 with that one entry. -/
def linkS (op : Nat) (k : Link) (t0 : Nat) : State :=
  { State.reset with
    host := { Host1.reset with links := Host1.reset.links.set 15 k,
                               sched := some { pa := 0x40, t0, n := 1, next := 0, block := linkBlock op 0 } } }

theorem witness_runEntry :
    let e (op : Nat) : LinkEntry := LinkEntry.ofBytes (((linkBlock op 0).drop (32 * 0)).take 32)
    let far : LinkEntry := LinkEntry.ofBytes (((linkBlock 0 0x5F_FFFF_FFC1).drop (32 * 0)).take 32)
    let m : LinkMsg := { nfmt := 0x0F, elems := List.replicate 64 0 }
    (e 0).link = 15 ∧ (e 0).op = 0 ∧ (e 1).op = 1 ∧ (e 2).op = 2 ∧ (e 2).req = false ∧ (e 3).ok = false ∧ (e 0).nfmt = 0x0F ∧ (e 0).ok = true ∧ (e 0).inMemory = true ∧ far.inMemory = false ∧
    0 + (e 0).t ≤ (linkS 0 Link.reset 0).now ∧ ¬ 1 + (e 0).t ≤ (linkS 0 Link.reset 1).now ∧
    (linkS 1 { Link.reset with state := .up, rx := [m] } 0).linkOf 15 = { Link.reset with state := .up, rx := [m] } ∧ m.elems.length = (e 0).count ∧
    Link.reset.state = .down ∧ Link.reset.rx = [] ∧ (linkS 0 Link.reset 0).die.poisonIn (0x40 + 16) 8 = none := by decide +kernel

/-- A proxy queue with an entry sent. -/
theorem witness_proxyAccepted :
    (inWorld State.reset).proxyPlace 0 0x180 = some 0x180 ∧ (inWorld State.reset).die.poisonIn (0x180 + 0x28) 8 = none := by decide +kernel

/-- A well-formed instruction of code, its opcode and its bytes. -/
theorem witness_roundTrip :
    let w := { fields .b8 .L with dst := .x 3, sa := .x 3, imm := 0x40 }
    (Instr.addi w).code? = some (0x021, w) ∧ (Instr.addi w).wellFormed = true ∧ (match decode (leBytes 4 0x04EE) with
      | .ok i => i.code?.isSome
      | .error _ => false) = true := by decide

/-- A state that stands before an instruction, one in which the core's stream may pass it, an event, and an agenda that is empty. -/
theorem witness_step :
    let s := State.reset.withFetchWord 32 0x04EE
    let t : State := { s with agenda := [], focus := 0 }
    decodeTableWord 32 0x04EE ≠ none ∧ s.agenda = .core 0 :: [] ∧ t.ctx.moves = true ∧ t.ctx.unknownDevice = none ∧ t.here.turn = 0 + 1 ∧
    t.ctx.holdsStream 0 = false ∧ (match (t.fetch (t.ctx.stream 0).pc).1 with
      | .bytes bs => decide (bs.take 4 = leBytes 4 0x04EE) && !isEret bs
      | _ => false) = true ∧ (t.ctx.stream 0).straddles 4 = false ∧ t.ctx.awaits 0 = false ∧ (match decodeHead (leBytes 12 0xFF03) with
      | .ok (tag, _) => decide (tag = .S)
      | .error _ => false) = true ∧ (match decode (leBytes 12 0xFF03) with
      | .ok _ => false
      | .error _ => true) = true ∧
    State.reset.agenda = [] ∧ State.reset.autoMove = none ∧ (inWorld (crownS { Host1.reset with crown := 1 } 2)).autoMove.isSome = true := by
  decide +kernel

/-- The reset state meets the invariant of memories and steps to a next state. -/
theorem witness_keepsMemories :
    State.reset.memWf = true ∧ (match step State.reset with | .next _ => true | _ => false) = true := by decide +kernel

/-- An instruction of code, an event at a place that is there and at one that is not, and an access to no device register. -/
theorem witness_answers :
    (Instr.modei Ins.blank).code?.isSome = true ∧ (Instr.runEntry 15).placed = true ∧ (Instr.runEntry 16).code? = none ∧
    (Instr.runEntry 16).placed = false := by decide

/-! Words from the spec's encodings (R49 to R63, R69 to R72): those the chapters spell out, and one for each family, put together
field by field as R52 and R61 lay them out. -/

/-- ADDI x3, x3, 64 on L, the worked encoding of chapter 02, in its 8 bytes and its 12. -/
theorem test_decode_addi :
    decode (leBytes 8 0x0040_0027_3000_1425) = .ok (.addi { fields .b8 .L with tok := ⟨false, false, false, true⟩, dst := .x 3, sa := .x 3, imm := 0x40 }) := by rfl

theorem test_decode_addi12 :
    decode (leBytes 12 0x2000_0040_00FF_FF13_2600_108B) = .ok (.addi { fields .b12 .L with tok := ⟨false, false, false, true⟩, dst := .x 3, sa := .x 3, imm := 0x40 }) := by rfl

/-- MODEX and MODEI in 4 bytes (chapter 04). -/
theorem test_decode_modex :
    decode (leBytes 4 0x0000_04EE) = .ok (.modex (fields .b4 .A)) := by rfl

theorem test_decode_modei :
    decode (leBytes 4 0x0000_04FE) = .ok (.modei (fields .b4 .A)) := by rfl

/-- LOOP. -/
theorem test_decode_loop :
    decode (leBytes 12 0xE004_000E_00FF_FFFF_0200_2603) = .ok (.loop { fields .b12 .A with imm := 0x0004_000E }) := by rfl

/-- BT and BF. -/
theorem test_decode_bt :
    decode (leBytes 12 0xE000_0005_00FF_FF59_0200_2483) = .ok (.bt { fields .b12 .A with sa := .b 1, imm := 5 }) := by rfl

theorem test_decode_bf :
    decode (leBytes 12 0xFFFF_FFFC_00FF_FF59_0200_2503) = .ok (.bf { fields .b12 .A with sa := .b 1, imm := 0xFFFF_FFFC }) := by rfl

/-- BRK 7 on V. -/
theorem test_decode_brk :
    decode (leBytes 12 0x6000_0007_00FF_FFFF_0200_2903) = .ok (.brk { fields .b12 .V with imm := 7 }) := by rfl

/-- VFMA (chapter 06). -/
theorem test_decode_vfma :
    decode (leBytes 12 0x6000_0000_5D23_2221_4864_8183) = .ok (.vfma { fields .b12 .V with pred := 2, lat := 3, dst := .v 4, sa := .v 1, sb := .v 2, sc := .v 3, fmt := 0x1D, mod := 1 }) := by rfl

/-- VSCATADD. -/
theorem test_decode_vscatadd :
    decode (leBytes 12 0x6000_0000_1D8A_2612_0328_9B03) = .ok (.vscatadd { fields .b12 .V with pred := 4, lat := 9, sa := .x 2, sb := .v 6, sc := .cb 2, fmt := 0x1D }) := by rfl

/-- VST. -/
theorem test_decode_vst :
    decode (leBytes 12 0x6000_0000_14FF_2114_0222_9883) = .ok (.vst { fields .b12 .V with pred := 1, lat := 1, sa := .x 4, sb := .v 1, fmt := 0x14 }) := by rfl

/-- TMMA and TFADD (chapter 07). -/
theorem test_decode_tmma :
    decode (leBytes 12 0x4000_0000_0F32_4140_6560_C003) = .ok (.tmma { fields .b12 .M with lat := 11, dst := .z 2, sa := .p 0, sb := .p 1, sc := .z 2, fmt := 0x0F }) := by rfl

theorem test_decode_tfadd :
    decode (leBytes 12 0x4000_0000_00FF_3632_6460_C103) = .ok (.tfadd { fields .b12 .M with lat := 3, dst := .z 2, sa := .z 2, sb := .z 6 }) := by rfl

/-- SPAWNJ (chapter 12). -/
theorem test_decode_spawnj :
    decode (leBytes 12 0x0000_0000_00FF_1415_02A1_0083) = .ok (.spawnj { fields .b12 .S with lat := 5, sa := .x 5, sb := .x 4 }) := by rfl

/-- SRCH and KVF (chapter 15). -/
theorem test_decode_srch :
    decode (leBytes 12 0x0000_0000_00FF_1312_32A1_2003) = .ok (.srch { fields .b12 .S with lat := 5, dst := .x 9, sa := .x 2, sb := .x 3 }) := by rfl

theorem test_decode_kvf :
    decode (leBytes 12 0x0000_0000_00FF_1D1C_02A1_2183) = .ok (.kvf { fields .b12 .S with lat := 5, sa := .x 12, sb := .x 13 }) := by rfl

/-- A load on L, a store on W, an atomic on S (0x036, 0x03A, 0x040). -/
theorem test_decode_ld64 :
    decode (leBytes 12 0x3FFF_FFF8_00FF_FF12_2280_1B03) = .ok (.ld64 { fields .b12 .L with lat := 4, dst := .x 1, sa := .x 2, imm := 0xFFFF_FFF8 }) := by rfl

theorem test_decode_st64 :
    decode (leBytes 12 0x8000_0008_00FF_0312_0220_1D03) = .ok (.st64 { fields .b12 .W with lat := 1, sa := .x 2, sb := .q 3, imm := 8 }) := by rfl

theorem test_decode_amoadd :
    decode (leBytes 12 0x0000_0000_00FF_1312_2320_2003) = .ok (.amoadd { fields .b12 .S with lat := 9, dst := .x 1, sa := .x 2, sb := .x 3 }) := by rfl

/-- A compare into b3 under not b2, a sum of the payload and IMM (0x01B, 0x001). -/
theorem test_decode_cmpeq :
    decode (leBytes 12 0x0000_0000_00FF_9212_B614_0D83) = .ok (.cmpeq { fields .b12 .S with pred := 10, dst := .b 3, sa := .x 2, sb := .zero }) := by rfl

theorem test_decode_add :
    decode (leBytes 12 0x6000_0005_00FF_9190_0000_00A3) = .ok (.add { fields .b12 .V with tok := ⟨false, true, false, false⟩, dst := .q, sa := .tk, sb := .imm, imm := 5 }) := by rfl

/-- MFSR, POST, ACQ.S, XSTAT (0x053, 0x058, 0x062, 0x075). -/
theorem test_decode_mfsr :
    decode (leBytes 12 0x0000_0003_00FF_FFFF_2220_2983) = .ok (.mfsr { fields .b12 .S with lat := 1, dst := .x 1, imm := 3 }) := by rfl

theorem test_decode_post :
    decode (leBytes 12 0x4000_0000_00FF_FFBF_0200_2C03) = .ok (.post { fields .b12 .M with sa := .e 31 }) := by rfl

theorem test_decode_acqS :
    decode (leBytes 12 0x0000_0000_00FF_FF11_02A0_3103) = .ok (.acqS { fields .b12 .S with lat := 5, sa := .x 1 }) := by rfl

theorem test_decode_xstat :
    decode (leBytes 12 0x0000_0000_00FF_FF6F_2220_3A83) = .ok (.xstat { fields .b12 .S with lat := 1, dst := .x 1, sa := .h 15 }) := by rfl

/-- KAND, PSET, NLD (0x12A, 0x13B, and the nest loads). -/
theorem test_decode_kand :
    decode (leBytes 12 0x6000_0000_00FF_5752_A200_9503) = .ok (.kand { fields .b12 .V with dst := .k 1, sa := .k 2, sb := .k 7 }) := by rfl

/-! Encodings that the checks turn away, each by name (R48, R49, R10, R53 to R58, R61, R62, R68), and for each check a term that is
not well-formed. -/

/-- What the decoder says of some bytes. -/
def refusal (bs : List Byte) : Option Reject :=
  match decode bs with
  | .ok _ => none
  | .error r => some r

theorem test_refuses_words :
    refusal [] = some .short ∧ refusal [0x0F] = some .reservedLength ∧ refusal (leBytes 4 0x0A) = some .reservedTag ∧
    refusal (leBytes 12 (3 + 0x3FF * 2 ^ 7)) = some .unassigned ∧ refusal (leBytes 4 (0x4E * 2 ^ 4)) = some .tagNotAllowed ∧
    refusal (leBytes 16 (0x17 + 2 ^ 32 * (7 + 0x4E * 2 ^ 7 + 2 ^ 25 + 2 ^ 56 - 2 ^ 32))) = some .wideReserved ∧
    refusal (leBytes 16 (0x07 + 2 ^ 32 * (7 + 0x4E * 2 ^ 7 + 2 ^ 25 + 2 ^ 56 - 2 ^ 32))) = none ∧
    -- a destination code from 2 to 15, code 0x93 as a source
    refusal (leBytes 4 (0x0F * 2 ^ 4 + 2 ^ 17)) = some .dstSlot ∧ refusal (leBytes 12 (3 + 0x0F * 2 ^ 7 + 0x11 * 2 ^ 25 + 0xFFFF93 * 2 ^ 32)) = some .saSlot := by
  decide

theorem test_refuses_fields :
    let add : Ins := { Ins.blank with dst := .x 1, sa := .x 2, sb := .x 3 }
    let ill (i : Instr) : Bool := !i.wellFormed
    (Instr.add add).wellFormed = true ∧
    ill (.add { add with tag := .A }) = true ∧ ill (.add { add with dst := .absent }) = true ∧ ill (.add { add with sa := .v 1 }) = true ∧
    ill (.add { add with sb := .absent }) = true ∧ ill (.add { add with sc := .x 1 }) = true ∧ ill (.add { add with pred := 8 }) = true ∧
    ill (.add { add with tag := .L, pred := 1 }) = true ∧ ill (.add { add with tok := ⟨true, false, false, false⟩ }) = true ∧
    ill (.add { add with tag := .L, tok := ⟨false, true, false, false⟩ }) = true ∧ ill (.add { add with tag := .V, sa := .tk }) = true ∧
    ill (.add { add with fmt := 1 }) = true ∧ ill (.add { add with mod := 1 }) = true ∧ ill (.add { add with imm := 1 }) = true ∧
    ill (.mul add) = true ∧ (Instr.mul { add with lat := 2 }).wellFormed = true ∧ ill (.add { add with len := .b4, dst := .absent }) = true ∧
    ill (.addi { add with sb := .absent, len := .b8, imm := 0x8000 }) = true ∧
    (Instr.addi { add with sb := .absent, len := .b8, imm := 0x7FFF }).wellFormed = true := by decide

theorem test_refuses_rules :
    let v : Ins := { Ins.blank with tag := .V }
    let ill (i : Instr) : Bool := !i.wellFormed
    -- R17, R130, R181, R192, R195, R207
    ill (.bt { Ins.blank with tag := .A, sa := .x 1 }) = true ∧ ill (.tksend { v with sa := .x 1 }) = true ∧
    ill (.vcomp { v with dst := .v 1, sa := .v 2, sb := .k 1, fmt := 0x0F, lat := 4, pred := 1 }) = true ∧
    ill (.kmov { v with dst := .x 1, sa := .x 2 }) = true ∧
    ill (.vscat { v with sa := .x 2, sb := .v 5, sc := .cb 0, fmt := 0x1D, lat := 5 }) = true ∧
    ill (.tmma { Ins.blank with tag := .M, lat := 15, dst := .z 0, sa := .p 0, sb := .p 1, sc := .zero, fmt := 0x0F, imm := 2 ^ 18 }) = true ∧
    -- a row that is no code names places that exist
    ill (.taskComplete 128) = true ∧ (Instr.taskComplete 127).wellFormed = true := by decide

/-! Witnesses: landings of stores and commands. -/

/-- Core 0 of a world at the start of a cycle, one flight of its context due. -/
def landF (c : Ctx) (f : Flight) : State := inWorld (mapped (at0 { c with flights := [f] } 0))
def landC (c : Ctx) (k : Command) : State := landF c (flightOf (.command k))

theorem landF_alone (c : Ctx) (f : Flight) (hm : ({ c with flights := [f] } : Ctx).moves = true) (ha : c.array = [])
    (hd : ({ c with flights := [f] } : Ctx).due f = true) : LandsAlone (landF c f) 0 f [] [] :=
  ⟨by decide, rfl, hm, ha, rfl, hd, by simp, .inr (by simp), by simp⟩

theorem landC_alone (c : Ctx) (k : Command) (hm : ({ c with flights := [flightOf (.command k)] } : Ctx).moves = true) (ha : c.array = []) :
    LandsAlone (landC c k) 0 (flightOf (.command k)) [] [] :=
  landF_alone c _ hm ha (by simp [Ctx.due, flightOf])

/-- A store performed before its landing, one that is not, and one to a host window. -/
theorem witness_landStore :
    let f := flightOf (.store true (storedCells 0 0 2 0x1234))
    let h := flightOf (.store false (storedCells 0 0x3E00_0000_0000 1 1))
    LandsAlone (landF ctx0 f) 0 f [] [] ∧ LandsAlone (landF ctx0 { f with done := true }) 0 { f with done := true } [] [] ∧
    LandsAlone (landF ctx0 h) 0 h [] [] ∧ f.done = false ∧ f.eff.toHost = false ∧ h.eff.toHost = true :=
  ⟨landF_alone _ _ rfl rfl (by decide), landF_alone _ _ rfl rfl (by decide), landF_alone _ _ rfl rfl (by decide), rfl, by decide, by decide⟩

/-- Into slot 63: a record that waits for its stage, one that is released, one that breaks the table. -/
theorem witness_landXsched :
    let stage (r : BitVec 512) : BitVec 512 := r + BitVec.ofNat 512 (2 ^ 32)
    (∀ r ∈ [stage (copyRec 1 1), copyRec 1 1, copyRec 1 10],
      LandsAlone (landC ctx0 (.xsched 63 [r])) 0 (flightOf (.command (.xsched 63 [r]))) [] []) ∧
    63 + 1 ≤ 64 ∧ ctx0.handler = false ∧ ctx0.slotsIn (· = .faulted) = [] ∧ ctx0.seq.stage = 0 ∧
    (Nest.ofBits (stage (copyRec 1 1))).stage = 1 ∧ (Nest.ofBits (copyRec 1 1)).stage = 0 ∧
    (Nest.ofBits (copyRec 1 1)).recordOk = true ∧ (Nest.ofBits (copyRec 1 10)).stage = 0 ∧ (Nest.ofBits (copyRec 1 10)).recordOk = false :=
  ⟨fun _ _ => landC_alone _ _ rfl rfl, by decide +kernel⟩

/-- A stage the counter has reached, and one it has not, with a loaded record. -/
theorem witness_landXstage :
    let c : Ctx := { ctx0 with seq := { ctx0.seq with slots := ctx0.seq.slots.set 63 { slotIn .loaded with record := copyRec 1 1 } } }
    LandsAlone (landC c (.xstage 0)) 0 (flightOf (.command (.xstage 0))) [] [] ∧
    LandsAlone (landC c (.xstage 4095)) 0 (flightOf (.command (.xstage 4095))) [] [] ∧
    0 ≤ c.seq.stage ∧ c.seq.stage < 4095 ∧ ((List.range 64).all fun i => !decide ((c.slotAt i).state = .loaded) || (c.slotAt i).nest.recordOk) = true :=
  ⟨landC_alone _ _ rfl rfl, landC_alone _ _ rfl rfl, by decide +kernel⟩

theorem witness_landGuards :
    let c := { ctx0 with guards := heldX, lockL := some 0xFF8 }
    LandsAlone (landC c (.unlock 0xFF8)) 0 (flightOf (.command (.unlock 0xFF8))) [] [] ∧
    LandsAlone (landC ctx0 (.acquired 64 64 true (some (.x 0 1)) 7)) 0 (flightOf (.command (.acquired 64 64 true (some (.x 0 1)) 7))) [] [] ∧
    LandsAlone (landC c (.release 64)) 0 (flightOf (.command (.release 64))) [] [] ∧
    c.holdsGuard 64 = some { addr := 64, pa := 64, excl := true } ∧
    ((landC c (.release 64)).setCtx c).forceDie.die.poisonIn 64 8 = none :=
  ⟨landC_alone _ _ rfl rfl, landC_alone _ _ rfl rfl, landC_alone _ _ rfl rfl, by decide +kernel, by decide +kernel⟩

/-- A partition with a free region 1, and one whose only region is live; PRIO of region 0, and REASON. -/
theorem witness_landRegions :
    let s := landC ctx0 (.rgnNew 0x200 0 (some (.x 0 1)))
    let full := { s with die := { s.die with parts := s.die.parts.set 0 { s.part 0 with rgncnt := 1 } } }
    let t := landC ctx0 (.rgnSet 0 0x08 15)
    (∀ k ∈ [Command.rgnNew 0x200 0 (some (.x 0 1)), .rgnSet 0 0x08 15, .rgnSet 0 0x05 0],
      LandsAlone (landC ctx0 k) 0 (flightOf (.command k)) [] []) ∧
    LandsAlone full 0 (flightOf (.command (.rgnNew 0x200 0 (some (.x 0 1))))) [] [] ∧
    1 < min (s.part 0).rgncnt 0xFFFF ∧ s.rgnLive 0 1 = false ∧ s.rgnLive 0 0 = true ∧ min (full.part 0).rgncnt 0xFFFF = 1 ∧
    full.rgnLive 0 0 = true ∧ fPrio ∈ rcbSoftware ∧ fPrio.1 = 0x08 ∧ t.vaLook 0 (t.rgnEntry 0 0 + fPrio.1) .write = some 0xB008 ∧
    t.die.poisonIn 0xB008 1 = none ∧ fReason.1 = 0x05 :=
  ⟨fun _ _ => landC_alone _ _ rfl rfl, ⟨by decide, rfl, rfl, rfl, rfl, rfl, by simp, .inr (by simp), by simp⟩, by decide +kernel⟩

/-- A kill of the task's own region, of one it does not stand in, and while a killed task runs on core 127. -/
theorem witness_landKill :
    let killed : Task := { bareTask with killed := true }
    let wait := (landC ctx0 (.killing 0 [0])).setCore 127 { Core.reset with ctx := Core.reset.ctx.set 1 { Ctx.reset with task := some killed } }
    (∀ k ∈ [Command.rgnKill 0, .rgnKill 1, .killing 0 [0], .killing 1 [1]], LandsAlone (landC ctx0 k) 0 (flightOf (.command k)) [] []) ∧
    LandsAlone wait 0 (flightOf (.command (.killing 0 [0]))) [] [] ∧ bareTask.region = 0 ∧ bareTask.part = wait.asn ∧
    (wait.ctxAt 127 1).task = some killed ∧ bareTask.gated = false ∧
    ((List.range 128).all fun m => (List.range 2).all fun k => (m == 0 && k == 0) || ((landC ctx0 (.rgnKill 0)).ctxAt m k).task.isNone) = true :=
  ⟨fun _ _ => landC_alone _ _ rfl rfl, ⟨by decide, rfl, rfl, rfl, rfl, rfl, by simp, .inr (by simp), by simp⟩, by decide +kernel⟩

/-- ICFLUSH in each scope; loads of TLBINVST, LSGO and a counter of the last slice; stores to TLBINV and CTRL. -/
theorem witness_landDevices :
    let s := landC ctx0 (.icflush 0x1000 128 1)
    (∀ k ∈ [Command.icflush 0x1000 128 1, .icflush 0 (2 ^ 48) 3, .deviceLoad 0x3F00_0000_0008 8 false (.x 0 1),
        .deviceLoad 0x3F00_0000_0104 4 false (.x 0 1), .deviceLoad (0x3F00_0001_0000 + 128 * 127 + 8 * 15) 8 false (.x 0 1),
        .deviceStore 0x3F00_0000_0000 8 (2 ^ 63), .deviceStore (0x3F00_0001_0000 + 128 * 127 + 0x78) 8 1],
      LandsAlone (landC ctx0 k) 0 (flightOf (.command k)) [] []) ∧
    0x3F00_0000_0104 / 8 * 8 = 0x3F00_0000_0100 ∧ (∃ u, exec (.tlbinv (2 ^ 63)) s = .next u) ∧ (∃ u, exec (.tlbinvst 2) s = .next u) ∧
    (∃ u, exec (.lsgo 0 0x40) s = .next u) ∧ ∃ u, exec (.ctrl 127 1) s = .next u :=
  ⟨fun _ _ => landC_alone _ _ rfl rfl, by decide, ⟨_, rfl⟩, ⟨_, rfl⟩, ⟨_, rfl⟩, _, rfl⟩

/-- ACCEPTED at the HEAD waited for, and behind it; a shadow ring with room and a full one. -/
theorem witness_landProxy :
    let s := landC ctx0 (.proxyPush 0x180 0x180 0x1000 16 7)
    (∀ k ∈ [Command.proxyFlush 0x180 0, .proxyFlush 0x180 1, .proxyPush 0x180 0x180 0x1000 16 7, .proxyPush 0x180 0x180 0x1000 0 7],
      LandsAlone (landC ctx0 k) 0 (flightOf (.command k)) [] []) ∧
    (s.peek (0x180 + 0x28) 8 + 2 ^ 64 - 0) % 2 ^ 64 < 2 ^ 63 ∧ ¬ (s.peek (0x180 + 0x28) 8 + 2 ^ 64 - 1) % 2 ^ 64 < 2 ^ 63 ∧
    (s.peek (0x180 + 0x18) 8 + 2 ^ 64 - s.peek (0x180 + 0x28) 8) % 2 ^ 64 = 0 ∧
    (match (s.translate 0 0 (0x1000 + 16 * (s.peek (0x180 + 0x18) 8 % 16)) .write).1 with
      | .ok p => decide (p = ⟨0x1000, 0⟩) | .error _ => false) = true :=
  ⟨fun _ _ => landC_alone _ _ rfl rfl, by decide +kernel⟩

theorem witness_landPop :
    let s := landC ctx0 (.pop 0x300 (.x 0 1))
    LandsAlone s 0 (flightOf (.command (.pop 0x300 (.x 0 1)))) [] [] ∧
    LandsAlone (landC ctx0 (.pop 0x340 (.x 0 1))) 0 (flightOf (.command (.pop 0x340 (.x 0 1)))) [] [] ∧
    s.peek (0x300 + 0x18) 8 < s.peek (0x300 + 0x10) 8 ∧ s.die.poisonIn (0x300 + 0x18) 8 = none ∧
    s.peek (0x340 + 0x10) 8 ≤ s.peek (0x340 + 0x18) 8 :=
  ⟨landC_alone _ _ rfl rfl, landC_alone _ _ rfl rfl, by decide +kernel⟩

/-! Witnesses: stores performed, translations, poison. -/

/-- A task of partition 0 with host window 5 of 4 KiB. -/
def windowS : State :=
  let w : Window := { part := 0, base := 0x8000, len := 4096, verAddr := 0, version := 0 }
  { run0 with host := { Host1.reset with windows := [(5, w)] } }

/-- The last two bytes of one line and the first two of the next, at two lines of LPDDR-6; and a store of an earlier issue that covers
one of them. -/
theorem witness_storePerformed :
    let cs := storedCells 0x107E 0x207E 4 0x11223344
    PlainCells run0 cs ∧ (flightOf (.store false cs)).eff = .store false cs ∧ dirtyAt run0 0 0 = false ∧
    dirtyAt (run0.setCore 0 { run0.core 0 with lines := [{ pline := 0, data := List.replicate 128 0, dirty := 1, stale := false, writers := [] }] }) 0 0 = true := by
  unfold PlainCells; decide +kernel

theorem witness_hostStore :
    let at_ (i : Nat) (v : Byte) : StoreCell := ⟨0x1000 + i, 0x3E00_0000_0000 + 5 * 2 ^ 30 + 4094 + i, v, 0xFF⟩
    let cs := [at_ 0 0x22, at_ 1 0x11]
    (∀ c ∈ cs, 0x3E00_0000_0000 ≤ c.pa ∧ c.pa < 0x3F00_0000_0000 ∧ c.mask = 0xFF ∧ ∃ a, InWindow windowS c.pa 1 a) ∧
    ∀ c ∈ cs, ∀ d ∈ cs, ∀ a, InWindow windowS c.pa 1 a → InWindow windowS d.pa 1 a → c = d := by
  refine ⟨?_, ?_⟩
  · intro c hc
    rcases List.mem_cons.1 hc with rfl | hc
    · exact ⟨by decide, by decide, rfl, _, 5, _, rfl, rfl, by decide, rfl⟩
    · obtain rfl := List.mem_singleton.1 hc
      exact ⟨by decide, by decide, rfl, _, 5, _, rfl, rfl, by decide, rfl⟩
  · rintro c hc d hd a ⟨_, _, h1, -, -, ha⟩ ⟨_, _, h2, -, -, hb⟩
    rcases List.mem_cons.1 hc with rfl | hc <;> rcases List.mem_cons.1 hd with rfl | hd <;>
      (try obtain rfl := List.mem_singleton.1 hc) <;> (try obtain rfl := List.mem_singleton.1 hd) <;>
      simp [windowS] at h1 h2 <;> obtain ⟨-, rfl⟩ := h1 <;> obtain ⟨-, rfl⟩ := h2 <;> simp at ha hb ⊢ <;> omega

/-- A task with no translation held, ea given; the tables of `worldMem`, one entry of which may be changed. -/
def tableS (ea : Word) (mem : Mem) (poison : List Nat) : State :=
  let s := inWorld (withStream 0 fun t => { t with x := t.x.set 1 ea })
  { s with die := { s.die with mem, poison } }

def tableW : Ins := { Ins.blank with sa := .x 1, dst := .x 2 }

/-- The world's 1 GiB page at the walk's second level, which permits reads and writes. -/
theorem witness_maps :
    TlbMiss (tableS 0x1008 worldMem []) 0 0 0x1008 ∧ LeafAt (tableS 0x1008 worldMem []) 0 0x1008 1 0x1F ∧
    Maps (tableS 0x1008 worldMem []) 0 0x1008 .write 0x1008 0 := by
  have leaf : LeafAt (tableS 0x1008 worldMem []) 0 0x1008 1 0x1F :=
    ⟨by decide, by decide, 0x9000, ⟨0x8000, rfl, by decide +kernel, by decide +kernel, by unfold EntryInvalid; decide +kernel, by decide +kernel, by decide +kernel⟩,
      by decide +kernel, fun h => absurd h (by decide), by decide +kernel, by decide, by unfold EntryInvalid; decide, by decide⟩
  exact ⟨by unfold TlbMiss; decide +kernel,
    leaf, 1, 0x1F, leaf, by show bit 0x1F 3 = true; decide, by decide, by decide, Or.inl ⟨rfl, by decide⟩⟩

/-- An address past 48 bits; an entry that is not there; one that is poisoned; one with a reserved bit; a write to a page that does not
permit it. -/
theorem witness_unmapped :
    Unmapped (tableS (2 ^ 48) worldMem []) 0 (2 ^ 48) .read 0x0A ∧
    Unmapped (tableS (2 ^ 39) worldMem []) 0 (2 ^ 39) .read 0x0A ∧
    Unmapped (tableS 0x1008 worldMem [0x8000]) 0 0x1008 .read 0x31 ∧
    Unmapped (tableS 0x1008 (worldMem.write 0x9001 1) []) 0 0x1008 .read 0x30 ∧
    Unmapped (tableS 0x1008 (worldMem.write 0x9000 0x07) []) 0 0x1008 .write 0x0B := by
  refine ⟨.inl ⟨Nat.le_refl _, rfl⟩, .inr (.inl ⟨by decide, 0, by decide, 0x8000, rfl, .inr ⟨by decide +kernel, fun h => absurd h (by decide), .inl ⟨by decide +kernel, rfl⟩⟩⟩),
    .inr (.inl ⟨by decide, 0, by decide, 0x8000, rfl, .inl ⟨by decide +kernel, rfl⟩⟩),
    .inr (.inl ⟨by decide, 1, by decide, 0x9000, ?_, .inr ⟨by decide +kernel, fun h => absurd h (by decide), .inr ⟨by decide +kernel, by unfold EntryInvalid; decide +kernel, rfl⟩⟩⟩),
    .inr (.inr ⟨1, 0x07, ⟨by decide, by decide, 0x9000, ?_, by decide +kernel, fun h => absurd h (by decide), by decide +kernel, by decide, by unfold EntryInvalid; decide, by decide⟩,
      .inl ⟨by show ¬ bit 0x07 3 = true; decide, rfl⟩⟩)⟩ <;>
  exact ⟨0x8000, rfl, by decide +kernel, by decide +kernel, by unfold EntryInvalid; decide +kernel, by decide +kernel, by decide +kernel⟩

/-- Tables of four levels with a group of sixteen entries at 0xB000, each marked CONTIG, for the run of pages from 0x10000. -/
def contigMem : Mem :=
  [(0x8000, 0x01), (0x8001, 0x90), (0x9000, 0x01), (0x9001, 0xA0), (0xA000, 0x01), (0xA001, 0xB0)] ++
    (List.range 16).flatMap fun i => [(0xB000 + 8 * i, 0x07)] ++ (if i = 0 then [] else [(0xB001 + 8 * i, BitVec.ofNat 8 (16 * i))]) ++
      [(0xB002 + 8 * i, 1), (0xB007 + 8 * i, 4)]

theorem witness_contig :
    let s := tableS 0xFFFF contigMem []
    NodeAt s 0 0xFFFF 3 0xB000 ∧
    (∀ i < 16, let ea := entryAddr 0xB000 0xFFFF 3 / 128 * 128 + 8 * i
      let e := s.peek ea 8
      s.die.poisonIn ea 8 = none ∧ bit e 0 = true ∧ ¬ EntryInvalid e 3 ∧ bit e 58 = true ∧ bits e 45 12 = 16 * 1 + i ∧
      bits e 4 2 = 1 ∧ bits e 57 56 = 0) := by
  refine ⟨⟨0xA000, ⟨0x9000, ⟨0x8000, rfl, ?_⟩, ?_⟩, ?_⟩, ?_⟩
  all_goals first
    | exact ⟨by decide +kernel, by decide +kernel, by unfold EntryInvalid; decide +kernel, by decide +kernel, by decide +kernel⟩
    | (intro i hi; unfold EntryInvalid; revert i; decide +kernel)

/-- A TLB's entry that permits reads and not writes. -/
theorem witness_tlbHit :
    let t : TlbEntry := { asn := 0, va := 0, size := 0x1000, pa := 0x5F_FFFF_F000, r := true, w := false, x := true, attr := 0 }
    let s := run0.setCore 0 { run0.core 0 with tlb := [t] }
    ((s.core 0).tlb.find? fun t => t.maps 0 0xFFF) = some t ∧ t.permits .read = true ∧ t.permits .write = false ∧
    Placed (t.pa + (0xFFF - t.va)) t.attr := ⟨by decide, by decide, by decide, Or.inl ⟨rfl, by decide⟩⟩

theorem witness_scalarUnmapped :
    let s := tableS 0x8000000000 worldMem []
    s.mayIssue tableW = true ∧ tableW.mod ≠ 1 ∧ addrOf s tableW = 0x8000000000 ∧ addrOf s tableW % 8 = 0 ∧
    TlbMiss s s.focus s.asn (addrOf s tableW) ∧ ∃ c s1, s.translate s.focus s.asn (addrOf s tableW) .write = (.error c, s1) :=
  ⟨by decide, by decide, by decide, by decide,
    by unfold TlbMiss; decide +kernel,
    exists_error (by decide +kernel)⟩

/-- A load of the last word of a poisoned one, which the core holds no newer. -/
theorem witness_poisonedRead :
    let s := tableS 0x1018 worldMem [0x1000]
    s.mayIssue tableW = true ∧ addrOf s tableW % 8 = 0 ∧ ∃ ph s1, s.translate s.focus s.asn (addrOf s tableW) .read = (.ok ph, s1) ∧
      ph.attr = 0 ∧ ph.pa % 8 = 0 ∧ (s1.core s1.focus).linePlace s1.asn (addrOf s tableW / 128) (ph.pa / 128) = ph.pa / 128 ∧
      (∀ x ∈ s1.die.poison, x % 32 = 0) ∧ ph.pa / 32 * 32 ∈ s1.die.poison ∧ ∀ i < 8, dirtyAt s1 s1.focus (ph.pa + i) = false := by
  refine ⟨by decide, by decide, _, _, rfl, ?_⟩
  decide +kernel

/-- A page of host window 5, whose last byte is there and the next is not. -/
theorem witness_hostPage :
    let t : TlbEntry := { asn := 0, va := 0, size := 0x10000, pa := 0x3E00_0000_0000 + 5 * 2 ^ 30, r := true, w := true, x := false, attr := 2 }
    let s := windowS.setCore 0 { windowS.core 0 with tlb := [t] }
    s.mayIssue (immW 0xFF8) = true ∧ attrAt s 0xFF8 .read = some 2 ∧ attrAt s 0xFF8 .write = some 2 ∧
    InWindow s (0x3E00_0000_0000 + 5 * 2 ^ 30 + 0xFF8) 8 (0x8000 + 0xFF8) ∧
    ∀ a, ¬ InWindow s (0x3E00_0000_0000 + 5 * 2 ^ 30 + 0x1000) 8 a := by
  refine ⟨by decide, by decide +kernel, by decide +kernel, ⟨5, _, rfl, rfl, by decide, by decide⟩, ?_⟩
  rintro a ⟨k, win, h, -, hl, -⟩
  simp [windowS] at h
  obtain ⟨-, rfl⟩ := h
  revert hl; decide

/-! Witnesses: areas of registers, sums, ranks. -/

/-- Core 0 at the turn of V with a scratchpad grant of 32 KiB at base 0x100, its scratchpad given, x1 of V the area. -/
def areaS (mem : Mem) (x1 : Word) : State :=
  let s := vecS 0x14 x1 0
  let t := s.setCtx { s.ctx with spadGrant := 0x8000, spbase := 0x100 }
  t.setCore 0 { t.core 0 with spad := mem }

def areaW : Ins := { vmemW with sb := .cb 7, imm := 0x8001 }

/-- The area ends the grant; both tags are formats; the tag of v15 is A36's, the first register before it. -/
theorem witness_fillArea :
    let a := 0x7F00 - 0x1000
    let s := areaS [] (BitVec.ofNat 64 a)
    let t := areaS [(0x100 + a + 4096 + 15, 0x1F)] (BitVec.ofNat 64 a)
    let set (s : State) : List Nat := (List.range 16).filter fun j => areaW.imm.toNat.testBit j && !(s.readCb (cbOf areaW.sb) 1).getLsbD j
    let good (s : State) (j : Nat) : Bool := spadElem s 3 1 (a + 4096 + j) ≤ 0x20 && spadElem s 3 1 (a + 4096 + j) != 0x1F
    s.mayIssue areaW = true ∧ s.mayIssue areaW (setRes areaW) = true ∧ (s.opA areaW).toNat = a ∧ a % 256 = 0 ∧ areaW.mod = 1 ∧
    a + 4112 ≤ min s.ctx.spadGrant 0x20_0000 ∧ fmtOf areaW ≠ fmtA36 ∧ cbOf areaW.sb < 8 ∧ set s = [0, 15] ∧
    (set s).all (good s) = true ∧ set t = [0, 15] ∧ good t 0 = true ∧ good t 15 = false ∧
    spadElem s 3 1 0 ≤ 0x20 ∧ (vecW 0x1F).fmt.toNat = 0x1F := by decide +kernel

/-- Two lanes that name the same element of the scratchpad, and lane 63 alone at an element of memory. -/
theorem witness_scatterSums :
    let s := vecS 0x14 0xFFC 0
    let t := vecS 0x14 0x2000 0
    let w : Ins := { vmemW with mod := 0 }
    s.mayIssue vmemW [.v (pairOf vmemW).2] = true ∧ s.ctx.pairCheck vmemW = none ∧ fmtByteWidth (fmtOf vmemW) = true ∧
    t.lanesPending w = BitVec.twoPow 64 63 ∧
    indexedAddr (((t.srcA 3 0 w).toNat + (immOf w).toNat) % 2 ^ 64) 4 (t.readLanes (pairOf w).1 1) 63 = 0x2000 ∧
    (let before := t.forceStores fun x => x.stream = 3
     match before.translate 0 0 0x2000 .read with
     | (.ok _, s1) => (match s1.translate 0 0 0x2000 .write with
       | (.ok p, s2) => decide (p = ⟨0x2000, 0⟩ ∧ 0x2000 ∉ (s2.writeBack 0 fun l => l = 0x40).die.poison)
       | _ => false)
     | _ => false) = true := by decide +kernel

theorem witness_scatterSums_inGrant :
    let s := vecS 0x14 0xFFC 0
    InGrant s (s.lanesPending vmemW) 4 (indexedAddr (((s.srcA 3 0 vmemW).toNat + (immOf vmemW).toNat) % 2 ^ 64) 4
      (s.readLanes (pairOf vmemW).1 1)) := by
  unfold InGrant; decide +kernel

/-- A stride store of a format of 4 bits, and of A36. -/
theorem witness_vsts_formats :
    fmtByteWidth (fmtOf { vmemW with fmt := 0x11 }) = false ∧ fmtOf { vmemW with fmt := 0x11 } ≠ fmtA36 ∧
    fmtOf { vmemW with fmt := 0x1F } = fmtA36 ∧ (vecS 0x11 0 0).ctx.slotCheck { vmemW with fmt := 0x11 } 1 0x11 = none ∧
    (vecS 0x14 0 0).mayIssue { vmemW with fmt := 0x1F } (setRes { vmemW with fmt := 0x1F }) = true ∧
    (vecS 0x14 0 0).mayIssue { vmemW with fmt := 0x1F } [.v (pairOf { vmemW with fmt := 0x1F }).2] = true := by decide +kernel

/-- A pair of rank 2 where the LIMIT is 1, with FALLBACK and without; two pairs of rank 2 and 1; a DENSE tile and no other. -/
theorem witness_tileRanks :
    let w : Ins := { tileW with sb := .absent, imm := 0 }
    let s (fallback : Bool) := tileS 64 1 2 fallback
    (s true).mayIssue w [.z (zdst w), .sys 0x002, .rowpred] = true ∧ planesRead 0x14 (bits w.imm.toNat 5 0) = some 32 ∧
    (s true).ctx.tileCheck w 0 = none ∧ (s true).ctx.slotCheck w 1 (fmtOf w) = none ∧ ((s true).ctx.tileVal w.sa).rep = (2, 2) ∧
    ((s true).ctx.tile (zdst w)).limit = 1 ∧ (s true).ctx.fallback = true ∧ (s false).ctx.fallback = false ∧
    PliesFor (s true) 64 ∧ PlanesReady (s true) w ((s true).readAhead w) ∧
    ((s true).mayIssue tileW [.z (zdst tileW), .sys 0x003] = true ∧ ((s true).ctx.tileVal tileW.sa).rep.1 ≠ 1) := by
  refine ⟨by decide, by decide, by decide, by decide, by decide +kernel, by decide, by decide, by decide,
    ⟨Or.inr (Or.inr rfl), by decide⟩, ⟨by decide, by decide, rfl, by decide⟩, by decide, by decide +kernel⟩

/-! Witnesses: regions, proxies, links, gangs, copies. -/

/-- Partition 0 with its table's second entry the last of LPDDR-6, and past it. -/
theorem witness_rgnTable :
    let at_ (tab : Nat) : State := (taskS 0x200 0).setPart 0 { (taskS 0x200 0).part 0 with rgntab := tab }
    let entry (s : State) : Option Nat := ((List.range (min (s.part 0).rgncnt 0xFFFF)).find? fun i => !s.rgnLive 0 i).map fun i => (s.part 0).rgntab + 8 * i
    let near := at_ (0x60_0000_0000 - 16)
    let far := at_ (0x60_0000_0000 - 8)
    entry near = some 0x5F_FFFF_FFF8 ∧ entry far = some 0x60_0000_0000 ∧ far.mayIssue taskW = true ∧
    ((lookedUp far 0x200).blockWrite 0x200).1 = none ∧
    BlockAt far (far.opA taskW) 256 0x200 (lookedUp far 0x200) :=
  ⟨by decide +kernel, by decide +kernel, by decide, by decide +kernel, ⟨by decide, by decide, placeOk_some (by decide +kernel)⟩⟩

/-- PRIO 15 in region 0, which has no parent; in region 1 under it, past its parent's class and not. -/
theorem witness_rgnset_fits :
    let one : RegionDev := { part := 0, index := 1, rcb := 0xC000, fields := [(0x02, 0)] }
    let s := taskS 1 15
    let t := { s with die := { s.die with mem := worldMem ++ [(0xC00A, 1)], regions := s.die.regions ++ [one] } }
    s.rgnGet 0 0 fParent = 0xFFFF ∧ t.rgnGet 0 1 fParent = 0 ∧ fPrio ∈ rcbBounded ∧ fPrio ≠ fOvr ∧ rcbRange fPrio 15 = true ∧
    t.rcbWithin 0 0 (t.rgnGet 0 1 fOvr) fPrio 15 = true ∧ t.rcbWithin 0 0 0x10 fPrio 15 = false ∧ 15 < 2 ^ (8 * fPrio.2) := by decide +kernel

/-- A flush of a queue whose entries are accepted, and of one whose HEAD is ahead of ACCEPTED. -/
theorem witness_pxflush :
    let s := taskS 0x180 0
    let ahead := { s with die := { s.die with mem := s.die.mem.write 0x198 1 } }
    let seen (s : State) : State := (lookedUp s 0x180).storesOut.noteRead 0x180 64
    BlockAt s (s.opA taskW) 64 0x180 (lookedUp s 0x180) ∧ ((seen s).proxyDesc 0x180).ok = true ∧
    ((seen s).peek (0x180 + 0x28) 8 + 2 ^ 64 - (seen s).peek (0x180 + 0x18) 8) % 2 ^ 64 < 2 ^ 63 ∧
    ¬ ((seen ahead).peek (0x180 + 0x28) 8 + 2 ^ 64 - (seen ahead).peek (0x180 + 0x18) 8) % 2 ^ 64 < 2 ^ 63 :=
  ⟨⟨by decide, by decide, placeOk_some (by decide +kernel)⟩, by decide +kernel⟩

/-- The SHADOW entry that a batch reads first. -/
theorem witness_shadowEntry : Maps (inWorld State.reset) 0 (((inWorld State.reset).proxyDesc 0x180).shadow + 16 * (0 % 16)) .read 0x1000 0 :=
  ⟨1, 0x1F, ⟨by decide +kernel, by decide, 0x9000, ⟨0x8000, rfl, by decide +kernel, by decide +kernel, by unfold EntryInvalid; decide +kernel, by decide +kernel, by decide +kernel⟩,
    by decide +kernel, fun h => absurd h (by decide), by decide +kernel, by decide, by unfold EntryInvalid; decide, by decide⟩,
    by show bit 0x1F 2 = true; decide, by decide +kernel, by decide, Or.inl ⟨rfl, by decide⟩⟩

/-- A completion whose slot is mapped, its ring read once. -/
theorem witness_completionPlace :
    let c := { sentCmd with accepted := true, result := some { status := 0, gen := 1, aux := 0 } }
    let s := retrS { someIndex with home := 15 } [c] [(0x341, 0x20), (0x348, 1)]
    ∃ s1, (s.noteRead c.ringPa 64).ctlPlace c.part ((s.ringDesc c.ringPa).base + 32 * (s.peek (c.ringPa + 0x10) 8 % (s.ringDesc c.ringPa).slots)) .write =
      (some 0x2000, s1) := ⟨_, Prod.ext (by decide +kernel) rfl⟩

/-- Links with a command on its way, permits left and none. -/
theorem witness_linkHeld :
    let s (permits : Nat) : State := State.reset.setCluster 15 { Cluster.reset with permits, link := [.dbgStep 127 0 1] }
    (s 7).linkFree 15 = false ∧ ((s 7).cluster 15).permits ≠ 0 ∧ (s 0).linkFree 15 = false ∧ ((s 0).cluster 15).permits = 0 ∧
    State.reset.linkFree 15 = true := by decide

/-- Three parts: a start that the second COMMIT repeats or moves, and one that waits for a part not committed. -/
theorem witness_gangSecond :
    let g := gangOf [gangPart .committed (some 8), gangPart .reserved (some 8)] (some 0) (some 2000)
    let f : Fabric := { ident := 1, modules := 2, ready := [], told := none, failed := none }
    g.allReserved = true ∧ g.fabric = none ∧ g.start = some 2000 ∧ ¬ 2000 < (gangS g 0).now + 2000 ∧ 2000 < (gangS g 1).now + 2000 ∧
    ¬ 2001 < (gangS g 1).now + 2000 ∧ ({ g with fabric := some f } : Gang).fabric.isSome = true ∧ (gangS g 0).linkFree 1 = true ∧
    (gangS g 0).gang 3 = some g ∧ ((gangS { g with fabric := some f } 0).gang 3) = some { g with fabric := some f } ∧
    g.parts.any (fun p => p.phase = .reserved) = true ∧ (gangOf [gangPart .idle none] none none).allReserved = false := by decide +kernel

/-- The placement of a record once its code object has been read. -/
theorem witness_placementRead :
    let read (s : State) : State := s.readList 0 (s.core 0).ready
    (match (read (listS readyRec)).nextPlaced 0 with
      | some (r, .place j slot _ recs) => decide (r.record = 0x100 ∧ r.kept.isSome = true ∧ j < 2 ∧ slot = 0 ∧ recs = []) | _ => false) = true ∧
    (match (read (listS { readyRec with code := 0x5000 })).nextPlaced 0 with
      | some (_, .reject reason) => decide (reason = 1) | _ => false) = true ∧ (listS readyRec).mayPlace 0 = true ∧
    (State.reset.nextPlaced 0).isNone = true ∧
    (State.reset.setCluster 0 { Cluster.reset with retired := true }).mayPlace 0 = false := by decide +kernel

/-- A fault log with its last entry taken. -/
theorem witness_mirrorLog :
    let log : List (Nat × List Byte) := [(253, List.replicate 32 1)]
    (∀ e ∈ log, e.1 < 254 ∧ e.2.length = 32) ∧ (log.map (·.1)).Nodup := by decide

/-- An index whose latest version has one node and one header: two copies that lie apart, in LPDDR-6. -/
theorem witness_copiesRemade :
    let p : Pocket := { number := 3, fromGen := 1, radsq := 0, seams := [], centre := [], pages := [], place := 0x40000 }
    let n : TreeNode := { number := 1, level := 1, fromGen := 1, children := [], fpns := [], place := 0x20000 }
    let v : Version := { fromGen := 1, cut := 0, root := some 1, nodes := [n], pockets := [p] }
    let s : State := { State.reset with retr := { Retr.reset with indexes := [(1023, { someIndex with versions := [v] })] } }
    let copies := s.retr.persist.indexes.flatMap fun p => p.2.areaBytes
    copies.length = 2 ∧ copies.Pairwise (fun c d => c.1 + c.2.length ≤ d.1 ∨ d.1 + d.2.length ≤ c.1) ∧
    ∀ c ∈ copies, c.1 + c.2.length ≤ 0x60_0000_0000 ∧ s.die.poisonIn c.1 c.2.length = none := by decide +kernel

/-- A root region's table entry that is the last of LPDDR-6, and one past it. -/
theorem witness_rgnrootTable :
    let s (tab : Nat) : State := (inWorld State.reset).setPart 0 { (inWorld State.reset).part 0 with rgntab := tab }
    (s (0x60_0000_0000 - 16)).part 0 ≠ (s (0x60_0000_0000 - 8)).part 0 ∧
    ((((s (0x60_0000_0000 - 16)).walked 0 0x200 .write).noteRead 0x200 256).regionNew 0 0x200 0xFFFF).1 = some 1 := by decide +kernel

/-- The old accesses an invalidation waits for: a device access in flight, an acquire that waits, an accepted retrieval command. -/
theorem witness_oldAccesses :
    let c := { sentCmd with accepted := true, vas := [0x340] }
    (at0 { ctx0 with flights := [flightOf (.command (.acquire 0x1000 0x1000 true none))] }).oldAccess (2 ^ 63) = true ∧
    (retrS someIndex [c] []).oldAccess (2 ^ 63) = true := by decide +kernel

end Sys2Proof.Tests
end

section
/-! SUPPORT. The canonical form of every memory of a state (R3, R149, R362, R403): what of a state it speaks of, and that the
operations of the last-level cache, of translation and of the block cache keep it. -/

namespace Sys2Proof.Machine

/-- Every scratchpad of some cores stands in canonical form. -/
def spadsWf (cores : Vector Core 128) : Bool := cores.toList.all fun k => k.spad.wf
theorem spadsWf_iff {cores : Vector Core 128} : spadsWf cores = true ↔ ∀ i (hi : i < 128), cores[i].spad.wf = true := by
  simp [spadsWf]

theorem spadsWf_set {cores : Vector Core 128} {n : Nat} {k : Core} (hn : n < 128) (h : spadsWf cores = true)
    (hk : k.spad.wf = true) : spadsWf (cores.set n k hn) = true := by
  refine spadsWf_iff.2 fun i hi => ?_
  rw [Vector.getElem_set]
  split
  · exact hk
  · exact spadsWf_iff.1 h i hi

/-- A change of every core that leaves each scratchpad as it is. -/
theorem spadsWf_map {cores : Vector Core 128} {f : Core → Core} (hf : ∀ k, (f k).spad = k.spad)
    (h : spadsWf cores = true) :
    spadsWf (cores.map f) = true :=
  spadsWf_iff.2 fun i hi => by rw [Vector.getElem_map, hf]; exact spadsWf_iff.1 h i hi

theorem spadsWf_ofFn {f : Fin 128 → Core} (hf : ∀ i, (f i).spad.wf = true) : spadsWf (Vector.ofFn f) = true :=
  spadsWf_iff.2 fun i hi => by rw [Vector.getElem_ofFn]; exact hf ⟨i, hi⟩
@[simp] theorem State.memWf_mk (c : Vector Core 128) (d : Die)
    (h : Host1) (r : Retr) (t : Nat) (a : List Move) (f n : Nat) :
    (State.mk c d h r t a f n).memWf = (d.mem.wf && h.mem.wf && spadsWf c) := rfl
theorem State.memWf_iff {s : State} :
    s.memWf = true ↔ s.die.mem.wf = true ∧ s.host.mem.wf = true ∧ spadsWf s.cores = true := by
  rw [State.memWf, Bool.and_eq_true, Bool.and_eq_true, and_assoc]; rfl
@[simp] theorem State.die_mem_wf {s : State} (h : s.memWf = true) : s.die.mem.wf = true := (State.memWf_iff.1 h).1
@[simp] theorem State.host_mem_wf {s : State} (h : s.memWf = true) : s.host.mem.wf = true := (State.memWf_iff.1 h).2.1
@[simp] theorem State.cores_spadsWf {s : State} (h : s.memWf = true) :
    spadsWf s.cores = true := (State.memWf_iff.1 h).2.2
@[simp] theorem State.core_spad_wf {s : State} (n : Nat) (h : s.memWf = true) : (s.core n).spad.wf = true :=
  spadsWf_iff.1 (State.cores_spadsWf h) _ _
@[simp] theorem Mem.wf_store {m : Mem} (a : Nat) (bs : List Byte) (h : m.wf = true) :
    (m.store a bs).wf = true := Mem.store_wf h a bs
@[simp] theorem Mem.wf_writeBits {m : Mem} (a : Nat) (b k : Byte) (h : m.wf = true) : (m.writeBits a b k).wf = true :=
  Mem.writeBits_wf h a b k
@[simp] theorem State.memWf_ite (c : Prop) [Decidable c] (s t : State) :
    (if c then s else t).memWf = if c then s.memWf else t.memWf := apply_ite _ _ _ _

/-- A fold of steps that each keep the canonical form keeps it. -/
theorem foldl_memWf {α : Type} {f : State → α → State} {s : State} (l : List α) (h : s.memWf = true)
    (hf : ∀ t x, t.memWf = true → (f t x).memWf = true) : (l.foldl f s).memWf = true :=
  List.foldlRecOn (motive := fun t => t.memWf = true) l f h fun t ht x _ => hf t x ht

/-! The parts of a state -/

@[simp] theorem State.setCore_memWf {s : State} (n : Nat) {k : Core} (h : s.memWf = true) (hk : k.spad.wf = true) :
    (s.setCore n k).memWf = true := by
  simp [State.setCore, h, hk, spadsWf_set]

@[simp] theorem State.setCtxAt_memWf {s : State} (n i : Nat) (x : Ctx) (h : s.memWf = true) :
    (s.setCtxAt n i x).memWf = true := by
  simp [State.setCtxAt, h]
@[simp] theorem State.setRunCtx_memWf {s : State} (n : Nat) (x : Ctx) (h : s.memWf = true) :
    (s.setRunCtx n x).memWf = true := by
  simp [State.setRunCtx, h]
@[simp] theorem State.here_spad_wf {s : State} (h : s.memWf = true) : s.here.spad.wf = true := State.core_spad_wf _ h
@[simp] theorem State.setHere_memWf {s : State} {k : Core} (h : s.memWf = true) (hk : k.spad.wf = true) :
    (s.setHere k).memWf = true := State.setCore_memWf _ h hk
@[simp] theorem State.setCtx_memWf {s : State} (x : Ctx) (h : s.memWf = true) : (s.setCtx x).memWf = true :=
  State.setRunCtx_memWf _ _ h
@[simp] theorem State.setPart_memWf (s : State) (p : Nat) (x : Partition) : (s.setPart p x).memWf = s.memWf := rfl
@[simp] theorem State.setCluster_memWf (s : State) (k : Nat) (x : Cluster) : (s.setCluster k x).memWf = s.memWf := rfl

theorem State.onCore_memWf {s : State} (n : Nat) {f : State → State} (h : s.memWf = true)
    (hf : ∀ t, t.memWf = true → (f t).memWf = true) : (s.onCore n f).memWf = true :=
  hf { s with focus := n } h

/-! The last-level cache -/

@[simp] theorem Die.count_mem (d : Die) (slice c n : Nat) : (d.count slice c n).mem = d.mem := by
  simp only [Die.count]
  split
  · rfl
  · split <;> rfl

@[simp] theorem Die.refuse_mem (d : Die) (word : Nat) : (d.refuse word).mem = d.mem := by simp [Die.refuse, Die.errAddr]
@[simp] theorem Die.ite_mem (c : Prop) [Decidable c] (d e : Die) :
    (if c then d else e).mem = if c then d.mem else e.mem :=
  apply_ite _ _ _ _
@[simp] theorem Die.llcOp_mem (d : Die) (line : Nat) (write full : Bool) (before : Nat) :
    (d.llcOp line write full before).mem = d.mem := by simp [Die.llcOp]
@[simp] theorem Die.read_mem (d : Die) (pa n : Nat) : (d.read pa n).2.mem = d.mem :=
  List.foldlRecOn (motive := fun e : Die => e.mem = d.mem) _ _ rfl fun e he l _ => (Die.llcOp_mem e l _ _ _).trans he
@[simp] theorem foldl_refuse_mem (words : List Nat) (d : Die) : (words.foldl Die.refuse d).mem = d.mem :=
  List.foldlRecOn (motive := fun e : Die => e.mem = d.mem) _ _ rfl fun e he _ _ => (Die.refuse_mem e _).trans he

@[simp] theorem Die.writeLine_mem_wf {d : Die} (line : Nat) (cs : List DieCell) (h : d.mem.wf = true) :
    (d.writeLine line cs).1.mem.wf = true := by
  simp [Die.writeLine, h]

@[simp] theorem Die.write_mem_wf {d : Die} (cs : List DieCell) (h : d.mem.wf = true) : (d.write cs).1.mem.wf = true :=
  List.foldlRecOn (motive := fun r : Die × List Nat => r.1.mem.wf = true) _ _ h fun _ hr l _ => Die.writeLine_mem_wf l _ hr
@[simp] theorem State.dieRead_memWf {s : State} (pa n : Nat) (h : s.memWf = true) :
    (s.dieRead pa n).2.memWf = true := by
  simp [State.dieRead, h]
@[simp] theorem State.dieWrite_memWf {s : State} (cs : List DieCell) (h : s.memWf = true) :
    (s.dieWrite cs).1.memWf = true := by
  simp [State.dieWrite, h]
@[simp] theorem State.dieNat_memWf {s : State} (pa n : Nat) (h : s.memWf = true) : (s.dieNat pa n).2.memWf = true :=
  State.dieRead_memWf pa n h
@[simp] theorem State.diePut_memWf {s : State} (pa n v : Nat) (h : s.memWf = true) : (s.diePut pa n v).memWf = true :=
  State.dieWrite_memWf _ h
@[simp] theorem State.dieChange_memWf {s : State} (pa n : Nat) (f : Nat → Nat) (h : s.memWf = true) :
    (s.dieChange pa n f).1.memWf = true := State.dieWrite_memWf _ h
@[simp] theorem State.noteRead_memWf {s : State} (pa n : Nat) (h : s.memWf = true) : (s.noteRead pa n).memWf = true :=
  State.dieRead_memWf pa n h

/-! Translation -/

@[simp] theorem Die.walkFrom_mem (d : Die) (asn va : Nat) (acc : Acc) (node level k : Nat) :
    (d.walkFrom asn va acc node level k).2.mem = d.mem := by
  induction k generalizing d node level with
  | zero => rfl
  | succ k ih =>
    simp only [Die.walkFrom]
    repeat' split
    all_goals simp [ih]

@[simp] theorem State.walk_memWf {s : State} (asn va : Nat) (acc : Acc) (h : s.memWf = true) :
    (s.walk asn va acc).2.memWf = true := by
  simp [State.walk, h]

@[simp] theorem State.tlbFill_memWf {s : State} (core : Nat) (t : TlbEntry) (second : Bool) (h : s.memWf = true) :
    (s.tlbFill core t second).memWf = true := by
  simp [State.tlbFill, h]

@[simp] theorem State.translate_memWf {s : State} (core asn va : Nat) (acc : Acc) (h : s.memWf = true) :
    (s.translate core asn va acc).2.memWf = true := by
  have hw := State.walk_memWf asn va acc h
  unfold State.translate
  repeat' split
  all_goals simp_all

@[simp] theorem State.translateDie_memWf {s : State} (asn va : Nat) (acc : Acc) (h : s.memWf = true) :
    (s.translateDie asn va acc).2.memWf = true := by
  have hw := State.walk_memWf asn va acc h
  unfold State.translateDie
  repeat' split
  all_goals simp_all

@[simp] theorem State.tlbDropMatching_memWf {s : State} (v : Nat) (h : s.memWf = true) :
    (s.tlbDropMatching v).memWf = true := by
  simp [State.tlbDropMatching, h, spadsWf_map]

end Sys2Proof.Machine
end

section
/-! SUPPORT. The block cache, virtual memory as a core sees it, regions and gangs keep every memory in canonical form. -/

namespace Sys2Proof.Machine

/-! The block cache: a core's lines and blocks are no memory of their own -/

/-- A fold of steps on a core that each leave its scratchpad as it is leaves it so. -/
theorem Core.foldl_spad {α : Type} {f : Core → α → Core} (hf : ∀ k x, (f k x).spad = k.spad) (l : List α) (k : Core) :
    (l.foldl f k).spad = k.spad :=
  List.foldlRecOn (motive := fun c : Core => c.spad = k.spad) l f rfl fun c hc x _ => (hf c x).trans hc

@[simp] theorem Core.putLine_spad (k : Core) (l : BlockLine) : (k.putLine l).spad = k.spad := rfl

@[simp] theorem Core.blameWord_spad (k : Core) (ls : List BlockLine) (word : Nat) :
    (k.blameWord ls word).spad = k.spad := by
  unfold Core.blameWord
  repeat' split
  all_goals rfl

@[simp] theorem Core.foldl_blameWord_spad (k : Core) (ls : List BlockLine) (words : List Nat) :
    (words.foldl (fun k w => k.blameWord ls w) k).spad = k.spad :=
  Core.foldl_spad (fun c w => c.blameWord_spad ls w) words k

@[simp] theorem Core.pokeByte_spad (k : Core) (who : Option Writer) (pa : Nat) (v mask : Byte) :
    (k.pokeByte who pa v mask).spad = k.spad := by
  unfold Core.pokeByte
  split <;> rfl

@[simp] theorem Core.foldl_pokeByte_spad (k : Core) (who : Option Writer) (cs : List StoreCell) :
    (cs.foldl (fun k x => k.pokeByte who x.pa x.val x.mask) k).spad = k.spad :=
  Core.foldl_spad (fun c x => c.pokeByte_spad who x.pa x.val x.mask) cs k

@[simp] theorem State.writeBack_memWf {s : State} (core : Nat) (sel : Nat → Bool) (h : s.memWf = true) :
    (s.writeBack core sel).memWf = true := by
  simp [State.writeBack, h]

@[simp] theorem State.writeBackAll_memWf {s : State} (core : Nat) (h : s.memWf = true) :
    (s.writeBackAll core).memWf = true :=
  State.writeBack_memWf core _ h
@[simp] theorem State.markStale_memWf {s : State} (core : Nat) (h : s.memWf = true) :
    (s.markStale core).memWf = true := by
  simp [State.markStale, h]

@[simp] theorem State.evictBlock_memWf {s : State} (core : Nat) (t : BlockTag) (h : s.memWf = true) :
    (s.evictBlock core t).memWf = true := by
  grind [State.evictBlock, State.writeBack_memWf, State.setCore_memWf, State.core_spad_wf]

@[simp] theorem State.fillLine_memWf {s : State} (core pline : Nat) (h : s.memWf = true) :
    (s.fillLine core pline).memWf = true := by
  grind [State.fillLine, State.dieRead_memWf, Core.putLine_spad, State.setCore_memWf, State.core_spad_wf]

@[simp] theorem State.fillBlock_memWf {s : State} (core : Nat) (t : BlockTag) (h : s.memWf = true) :
    (s.fillBlock core t).memWf = true := by
  have hf := foldl_memWf (f := fun s p => if ((s.core core).lineOf p).isSome then s else s.fillLine core p) t.plines h
    fun u p hu => by simp [hu]
  simp [State.fillBlock, hf]

@[simp] theorem State.makeRoom_memWf {s : State} (core n k : Nat) (h : s.memWf = true) :
    (s.makeRoom core n k).memWf = true := by
  induction k generalizing s with
  | zero => exact h
  | succ k ih =>
    grind [State.makeRoom, State.evictBlock_memWf, State.fillBlock_memWf]

@[simp] theorem State.allocBlock_memWf {s : State} (core asn first : Nat) (plines : List Nat) (complete : Bool)
    (h : s.memWf = true) : (s.allocBlock core asn first plines complete).memWf = true := by
  grind [State.allocBlock, State.makeRoom_memWf, State.setCore_memWf, State.core_spad_wf]

@[simp] theorem State.completeBlock_memWf {s : State} (core asn vline : Nat) (h : s.memWf = true) :
    (s.completeBlock core asn vline).memWf = true := by
  unfold State.completeBlock
  split <;> simp [h]

@[simp] theorem State.touchLine_memWf {s : State} (core asn vline pline : Nat) (load : Bool) (h : s.memWf = true) :
    (s.touchLine core asn vline pline load).memWf = true := by
  grind [State.touchLine, State.completeBlock_memWf, State.allocBlock_memWf, State.fillLine_memWf, State.setCore_memWf,
    State.core_spad_wf]

@[simp] theorem State.cacheRead_memWf {s : State} (core asn va pa k n : Nat) (h : s.memWf = true) :
    (s.cacheRead core asn va pa k n).2.memWf = true := by
  induction k generalizing s va pa n with
  | zero => exact h
  | succ k ih =>
    unfold State.cacheRead
    split
    · exact h
    · exact ih _ _ _ (State.touchLine_memWf _ _ _ _ _ h)

@[simp] theorem State.writeLine_memWf {s : State} (core asn : Nat) (who : Option Writer) (cs : List StoreCell) (vline : Nat)
    (h : s.memWf = true) : (s.writeLine core asn who cs vline).memWf = true := by
  unfold State.writeLine
  dsimp only
  split
  · exact h
  · have ht (pline : Nat) (load : Bool) := State.touchLine_memWf core asn vline pline load h
    exact State.setCore_memWf core (ht _ _) (by simp [ht])

@[simp] theorem State.cacheWrite_memWf {s : State} (core asn : Nat) (cs : List StoreCell) (who : Option Writer)
    (h : s.memWf = true) : (s.cacheWrite core asn cs who).1.memWf = true := by
  unfold State.cacheWrite
  split
  · exact foldl_memWf _ h fun t l ht => State.writeLine_memWf _ _ _ _ l ht
  · have hd (words : List Nat) : (words.foldl (fun d a => d.refuse (a / 32 * 32)) s.die).mem = s.die.mem :=
      List.foldlRecOn (motive := fun e : Die => e.mem = s.die.mem) _ _ rfl fun e he _ _ => (e.refuse_mem _).trans he
    simp [hd, h]

@[simp] theorem State.translateRange_memWf {s : State} (core asn va : Nat) (acc : Acc) (k n : Nat)
    (h : s.memWf = true) :
    (s.translateRange core asn va acc k n).2.memWf = true := by
  induction k generalizing s va n with
  | zero => exact h
  | succ k ih =>
    grind [State.translateRange, State.translate_memWf]

@[simp] theorem State.readPiece_memWf {s : State} (core asn : Nat) (p : Piece) (h : s.memWf = true) :
    (s.readPiece core asn p).2.memWf = true := by
  unfold State.readPiece
  repeat' split
  all_goals simp [h]

@[simp] theorem State.readPieces_memWf {s : State} (core asn : Nat) (ps : List Piece) (h : s.memWf = true) :
    (s.readPieces core asn ps).2.memWf = true := by
  induction ps generalizing s with
  | nil => exact h
  | cons p ps ih => exact ih (State.readPiece_memWf core asn p h)

@[simp] theorem State.performCells_memWf {s : State} (core asn : Nat) (cs : List StoreCell) (who : Option Writer)
    (h : s.memWf = true) : (s.performCells core asn cs who).1.memWf = true := by
  have hc := State.cacheWrite_memWf core asn (cs.filter fun c => c.pa < lpddrEnd && c.mask ≠ 0) who h
  unfold State.performCells
  dsimp only
  split
  · exact hc
  · refine foldl_memWf _ hc fun t c ht => ?_
    split <;> simp [ht]

@[simp] theorem State.declareBlock_memWf {s : State} (core asn first : Nat) (plines : List Nat) (h : s.memWf = true) :
    (s.declareBlock core asn first plines).memWf = true := by
  unfold State.declareBlock
  dsimp only
  split
  · simp [h]
  · refine State.allocBlock_memWf _ _ _ _ _ (foldl_memWf _ h fun t u ht => ?_)
    split <;> simp [ht]

@[simp] theorem Mem.foldl_writeBits_wf {m : Mem} (cs : List (Nat × Byte × Byte)) (h : m.wf = true) :
    (cs.foldl (fun (m : Mem) x => m.writeBits x.1 x.2.1 x.2.2) m).wf = true :=
  List.foldlRecOn (motive := fun m : Mem => m.wf = true) _ _ h fun _ hm _ _ => Mem.writeBits_wf hm _ _ _

@[simp] theorem State.spadWrite_memWf {s : State} (core : Nat) (cs : List (Nat × Byte × Byte)) (h : s.memWf = true) :
    (s.spadWrite core cs).memWf = true := by
  exact State.setCore_memWf core h (Mem.foldl_writeBits_wf cs (State.core_spad_wf core h))

@[simp] theorem State.spadPut_memWf {s : State} (core off : Nat) (bs : List Byte) (h : s.memWf = true) :
    (s.spadPut core off bs).memWf = true := by
  exact State.setCore_memWf core h (Mem.wf_store off bs (State.core_spad_wf core h))

/-! Regions -/

@[simp] theorem State.walked_memWf {s : State} (part va : Nat) (acc : Acc) (h : s.memWf = true) :
    (s.walked part va acc).memWf = true := State.translateDie_memWf part va acc h

@[simp] theorem State.visit_memWf {s : State} (part va n : Nat) (h : s.memWf = true) :
    (s.visit part va n).memWf = true := by
  unfold State.visit
  split <;> simp [h]

@[simp] theorem State.vaPut_memWf {s : State} (part va n v : Nat) (h : s.memWf = true) :
    (s.vaPut part va n v).memWf = true := by
  unfold State.vaPut
  split <;> simp [h]

@[simp] theorem State.rgnPut_memWf {s : State} (part i off n v : Nat) (h : s.memWf = true) :
    (s.rgnPut part i off n v).memWf = true := by
  simp [State.rgnPut, h]

@[simp] theorem State.rgnSetField_memWf {s : State} (part i : Nat) (f : RcbField) (v : Nat) (h : s.memWf = true) :
    (s.rgnSetField part i f v).memWf = true := by
  simp [State.rgnSetField, h]

@[simp] theorem State.visitPath_memWf {s : State} (part : Nat) (path : List Nat) (h : s.memWf = true) :
    (s.visitPath part path).memWf = true :=
  foldl_memWf path h fun _ _ ht => State.visit_memWf _ _ _ ht

@[simp] theorem State.rgnCharge_memWf {s : State} (part i : Nat) (f : RcbField) (n : Nat) (h : s.memWf = true) :
    (s.rgnCharge part i f n).memWf = true :=
  foldl_memWf _ h fun _ _ ht => State.rgnSetField_memWf _ _ _ _ ht

@[simp] theorem State.rgnReturn_memWf {s : State} (part i : Nat) (f : RcbField) (n : Nat) (h : s.memWf = true) :
    (s.rgnReturn part i f n).memWf = true :=
  foldl_memWf _ h fun _ _ ht => State.rgnSetField_memWf _ _ _ _ ht

@[simp] theorem State.rgnCount_memWf {s : State} (part i : Nat) (f : RcbField) (h : s.memWf = true) :
    (s.rgnCount part i f).memWf = true :=
  foldl_memWf _ h fun _ _ ht => State.rgnSetField_memWf _ _ _ _ ht

@[simp] theorem State.tablePut_memWf {s : State} (part i v : Nat) (h : s.memWf = true) :
    (s.tablePut part i v).memWf = true := by
  simp [State.tablePut, h]
@[simp] theorem State.rgnFree_memWf {s : State} (part i : Nat) (h : s.memWf = true) :
    (s.rgnFree part i).memWf = true := by
  simp [State.rgnFree, h]

@[simp] theorem State.rgnOpen_memWf {s : State} (part i rcb : Nat) (h : s.memWf = true) :
    (s.rgnOpen part i rcb).memWf = true := by
  have ht := State.tablePut_memWf part i rcb h
  simp [State.rgnOpen, ht]
  exact spadsWf_map (fun _ => rfl) (State.cores_spadsWf ht)

@[simp] theorem State.rgnLiveUp_memWf {s : State} (part i : Nat) (h : s.memWf = true) :
    (s.rgnLiveUp part i).memWf = true :=
  foldl_memWf _ h fun t j ht => by simp [ht]

@[simp] theorem State.rgnLiveDown_memWf {s : State} (part i : Nat) (keepRoots : Bool) (h : s.memWf = true) :
    (s.rgnLiveDown part i keepRoots).memWf = true :=
  foldl_memWf _ h fun t j ht => by simp [ht]

/-! Gangs -/

@[simp] theorem State.setGang_memWf (s : State) (g : Gang) : (s.setGang g).memWf = s.memWf := rfl
@[simp] theorem State.dropGang_memWf (s : State) (launch : Nat) : (s.dropGang launch).memWf = s.memWf := rfl

@[simp] theorem State.startPart_memWf {s : State} (launch cluster : Nat) (h : s.memWf = true) :
    (s.startPart launch cluster).memWf = true := by
  unfold State.startPart
  dsimp only
  repeat' split
  all_goals simp [h]

@[simp] theorem State.startGangs_memWf {s : State} (h : s.memWf = true) : s.startGangs.memWf = true :=
  foldl_memWf _ h fun _ _ ht => foldl_memWf _ ht fun _ _ hu => State.startPart_memWf _ _ hu

end Sys2Proof.Machine
end

section
/-! SUPPORT. The issue of an instruction of code keeps every memory in canonical form: its waits and traps, its tokens and effects, the
profile snapshot, and the stores that memory operations force. -/

namespace Sys2Proof.Machine
open Sys2Proof

/-- The state an issue's body goes on in, if any, has its memories in canonical form. -/
def IssueRes.memWf : IssueRes → Bool
  | .wait => true
  | .trap _ => true
  | .trapIn s _ => s.memWf
  | .stay s => s.memWf
  | .ok s _ _ _ => s.memWf

/-- The state a control transfer goes on in, if any, has its memories in canonical form. -/
def Flow.memWf : Flow → Bool
  | .wait => true
  | .trap _ _ => true
  | .seq s _ => s.memWf
  | .skip s _ => s.memWf
  | .jump s _ => s.memWf
  | .stop _ => true

/-- The next state an outcome answers, if any, has its memories in canonical form. -/
def outMemWf : Host.Outcome State Fault Refusal → Bool
  | .next s => s.memWf
  | .fault _ => true
  | .refused _ => true
@[simp] theorem outMemWf_next (s : State) : outMemWf (.next s) = s.memWf := rfl

/-! The end of a core cycle, faults, and what an issue enters -/

@[simp] theorem State.passTurn_memWf {s : State} (st : Nat) (h : s.memWf = true) : (s.passTurn st).memWf = true :=
  State.setHere_memWf h (State.here_spad_wf h)
@[simp] theorem State.askBanks_memWf {s : State} (req : Nat) (spans : List (Nat × Nat)) (h : s.memWf = true) :
    (s.askBanks req spans).memWf = true := State.setCtx_memWf _ h
@[simp] theorem State.raiseNotices_memWf {s : State} (wraps : List Nat) (h : s.memWf = true) :
    (s.raiseNotices wraps).memWf = true := by
  simp [State.raiseNotices, h]
@[simp] theorem State.endProfile_memWf {s : State} (h : s.memWf = true) : s.endProfile.memWf = true := by
  simp [State.endProfile, h]

@[simp] theorem State.askSave_memWf {s : State} (core : Nat) (spans : List (Nat × Nat)) (h : s.memWf = true) :
    (s.askSave core spans).memWf = true := by
  simp [State.askSave, h]

@[simp] theorem State.addFault_memWf {s : State} (f : Fault1) (h : s.memWf = true) : (s.addFault f).memWf = true :=
  State.setCtx_memWf _ h

@[simp] theorem State.raise_memWf {s : State} (st : Nat) (iw : IWord) (t : Trap) (redo : Option Redo)
    (h : s.memWf = true) :
    (s.raise st iw t redo).memWf = true := by
  simp [State.raise, h]

@[simp] theorem Die.endCycle_mem (d : Die) : d.endCycle.mem = d.mem := by
  unfold Die.endCycle
  split
  · rfl
  · exact List.foldlRecOn (motive := fun e : Die => e.mem = d.mem) d.clears Die.clearNow rfl fun _ he _ _ => he

@[simp] theorem State.passCycle_memWf {s : State} (h : s.memWf = true) : s.passCycle.memWf = true :=
  State.startGangs_memWf (by simp [h])

@[simp] theorem State.rotate_memWf {s : State} (h : s.memWf = true) : s.rotate.memWf = true := by
  unfold State.rotate
  dsimp only
  split
  · exact State.passCycle_memWf h
  · split
    · exact State.passCycle_memWf h
    · exact h

@[simp] theorem State.frozen_memWf {s : State} (h : s.memWf = true) : s.frozen.memWf = true :=
  State.rotate_memWf (State.setCtx_memWf _ (State.endProfile_memWf h))

@[simp] theorem State.commitIssue_memWf {s : State} (st : Nat) (iw : IWord) (w : Ins) (redo : Option Redo)
    (ops : Word × Word × Word) (effs : List Effect) (payload : Word) (lat : Nat) (h : s.memWf = true) :
    (s.commitIssue st iw w redo ops effs payload lat).1.memWf = true := by
  have hf : State.memWf { s with freeCount := s.freeCount + 1 } = true := h
  exact State.passTurn_memWf st (State.setCtx_memWf _ hf)

/-! The profile snapshot -/

@[simp] theorem State.putBytes_memWf {s : State} (core asn va : Nat) (bs : List Byte) (h : s.memWf = true) :
    (s.putBytes core asn va bs).memWf = true := by
  grind [State.putBytes, State.translateRange_memWf, State.performCells_memWf]

@[simp] theorem State.snapshot_memWf {s : State} (stop : Nat) (h : s.memWf = true) :
    (s.snapshot stop).memWf = true := by
  grind [State.snapshot, State.putBytes_memWf, State.setCtx_memWf]

@[simp] theorem profileHook_memWf {s : State} (st : Nat) (popped : List LoopEntry) (h : s.memWf = true) :
    (profileHook s st popped).memWf = true := by
  unfold profileHook
  split
  · exact h
  · split
    · exact h
    · exact foldl_memWf _ h fun u p hu => by simp [hu]

/-! The issue of an instruction -/

@[simp] theorem State.issued_memWf {s s1 : State} (i : Instr) (w : Ins) (effs : List Effect) (payload : Word) (lat : Nat)
    (h : s1.memWf = true) : (s.issued s1 i w effs payload lat).memWf = true :=
  profileHook_memWf _ _ (State.commitIssue_memWf _ _ _ _ _ _ _ _ h)

@[simp] theorem State.trapped_memWf {s s1 : State} (i : Instr) (w : Ins) (t : Trap) (h : s1.memWf = true) :
    (s.trapped s1 i w t).memWf = true :=
  State.raise_memWf _ _ _ _ (State.setCtx_memWf _ h)

/-- An issue keeps the canonical form where its body does. -/
theorem State.issue_memWf {s : State} {i : Instr} {w : Ins} {extra : List Res} {early : State → Option Trap} {ready : State → Bool}
    {body : State → Nat → Word → IssueRes} (h : s.memWf = true) (hb : (body s (s.streamOf w) (s.popped w)).memWf = true) :
    (s.issue i w profileHook extra early ready body).memWf = true := by
  rcases State.issue_cases s i w extra early ready body with
    ⟨-, hu⟩ | hu | ⟨-, hu⟩ | ⟨t, -, hu⟩ | hr | ⟨t, -, hu⟩ | ⟨s1, t, hr, hu⟩ | ⟨s1, effs, payload, lat, hr, hu⟩
  · rw [hu]; exact State.frozen_memWf h
  · rw [hu]; exact State.passTurn_memWf _ h
  · rw [hu]; exact State.issued_memWf _ _ _ _ _ h
  · rw [hu]; exact State.raise_memWf _ _ _ _ h
  · rw [hr] at hb; exact hb
  · rw [hu]; exact State.trapped_memWf _ _ _ h
  · rw [hr] at hb; rw [hu]; exact State.trapped_memWf _ _ _ hb
  · rw [hr] at hb; rw [hu]; exact State.issued_memWf _ _ _ _ _ hb

theorem State.run_memWf {s : State} {i : Instr} {w : Ins} {early : State → Option Trap} {body : State → Nat → Word → IssueRes}
    (h : s.memWf = true) (hb : (body s (s.streamOf w) (s.popped w)).memWf = true) : outMemWf (s.run i w early body) = true :=
  State.issue_memWf h hb

theorem State.alu_memWf {s : State} {i : Instr} {w : Ins} {f : Word → Word → Word → Word} (h : s.memWf = true) :
    outMemWf (s.alu i w f) = true := State.run_memWf h h

/-! Loads, and the stores that are performed ahead of their landing -/

@[simp] theorem State.loadVirt_memWf {s : State} (st va n : Nat) (h : s.memWf = true) :
    (s.loadVirt st va n).2.memWf = true := by
  grind [State.loadVirt, State.translateRange_memWf, State.readPieces_memWf]

@[simp] theorem State.storeCells_memWf {s : State} (va : Nat) (bs : List (Byte × Byte)) (h : s.memWf = true) :
    (s.storeCells va bs).2.memWf = true := by
  grind [State.storeCells, State.translateRange_memWf]

@[simp] theorem State.spadPerform_memWf {s : State} (req : Nat) (cs : List StoreCell) (h : s.memWf = true) :
    (s.spadPerform req cs).memWf = true := State.askBanks_memWf _ _ (State.spadWrite_memWf _ _ h)

@[simp] theorem State.performFor_memWf {s : State} (who : Writer) (seq req : Nat) (spad : Bool) (cs : List StoreCell)
    (h : s.memWf = true) : (s.performFor who seq req spad cs).1.memWf = true := by
  grind [State.performFor, State.setCtx_memWf, State.spadPerform_memWf, State.performCells_memWf]

@[simp] theorem State.performStore_memWf {s : State} (f : Flight) (h : s.memWf = true) :
    (s.performStore f).memWf = true := by
  grind [State.performStore, State.performFor_memWf, State.addFault_memWf]
@[simp] theorem State.forceList_memWf {s : State} (fs : List Flight) (h : s.memWf = true) :
    (s.forceList fs).memWf = true :=
  State.setCtx_memWf _ (foldl_memWf fs h fun _ f ht => State.performStore_memWf f ht)
@[simp] theorem State.forceStores_memWf {s : State} (sel : Flight → Bool) (h : s.memWf = true) :
    (s.forceStores sel).memWf = true :=
  State.forceList_memWf _ h
@[simp] theorem State.forceHost_memWf {s : State} (st seq : Nat) (h : s.memWf = true) :
    (s.forceHost st seq).memWf = true :=
  State.forceList_memWf _ h
@[simp] theorem State.landStore_memWf {s : State} (f : Flight) (h : s.memWf = true) : (s.landStore f).memWf = true := by
  simp [State.landStore, h]

theorem State.memWf_of_dieWrite {s t : State} {cs : List DieCell} {bad : List Nat} (h : s.memWf = true)
    (e : s.dieWrite cs = (t, bad)) : t.memWf = true := by
  simpa [e] using State.dieWrite_memWf cs h

@[simp] theorem State.homeUpdate_memWf {s : State} (st pa n : Nat) (op : Nat → Nat) (h : s.memWf = true) :
    (s.homeUpdate st pa n op).2.2.memWf = true := by
  have hw := State.writeBack_memWf s.focus (fun l => l = pa / 128) h
  unfold State.homeUpdate
  dsimp only
  split
  · next heq => exact State.memWf_of_dieWrite hw heq
  · next s2 heq =>
    have h2 : s2.memWf = true := State.memWf_of_dieWrite hw heq
    refine State.setCtx_memWf _ ?_
    split
    · refine State.setHere_memWf h2 ?_
      rw [Core.foldl_spad fun k x => by split <;> rfl]
      exact State.here_spad_wf h2
    · exact h2

/-! Scalar memory accesses -/

theorem State.scalarLoad_memWf {s : State} (i : Instr) (w : Ins) (n : Nat) (signed : Bool) (h : s.memWf = true) :
    outMemWf (s.scalarLoad i w n signed) = true :=
  State.run_memWf h (by grind [IssueRes.memWf, State.loadVirt_memWf, State.askBanks_memWf])

theorem State.scalarStore_memWf {s : State} (i : Instr) (w : Ins) (n : Nat) (h : s.memWf = true) :
    outMemWf (s.scalarStore i w n) = true :=
  State.run_memWf h (by grind [IssueRes.memWf, State.storeCells_memWf])

theorem execLdlk_memWf {s : State} (w : Ins) (h : s.memWf = true) : outMemWf (execLdlk w s) = true :=
  State.run_memWf h (by grind [IssueRes.memWf])
theorem execStul_memWf {s : State} (w : Ins) (h : s.memWf = true) : outMemWf (execStul w s) = true :=
  State.run_memWf h (by grind [IssueRes.memWf])
theorem execLdblk_memWf {s : State} (w : Ins) (h : s.memWf = true) : outMemWf (execLdblk w s) = true :=
  State.run_memWf h (by grind [IssueRes.memWf, State.translateRange_memWf, State.declareBlock_memWf])

theorem State.atomic_memWf {s : State} (i : Instr) (w : Ins) (op : AtomicOp) (h : s.memWf = true) :
    outMemWf (s.atomic i w op) = true :=
  State.run_memWf h (by grind [IssueRes.memWf, State.translate_memWf, State.forceStores_memWf, State.homeUpdate_memWf])

/-! Control transfers -/

/-- A control transfer keeps the canonical form where its body does. -/
theorem State.control_memWf {s : State} {i : Instr} {w : Ins} {body : State → Nat → Flow} (h : s.memWf = true)
    (hb : (body s (s.streamOf w)).memWf = true) : outMemWf (s.control i w body) = true := by
  have hp {t : State} (ht : t.memWf = true) (c : Ctx) (popped : List LoopEntry) : (profileHook
      (({ t with freeCount := t.freeCount + 1 }.setCtx c).passTurn (s.streamOf w)) (s.streamOf w) popped).memWf = true :=
    profileHook_memWf _ _ (State.passTurn_memWf _ (State.setCtx_memWf _ ht))
  unfold State.control
  dsimp only [outMemWf]
  split
  · split
    · exact State.frozen_memWf h
    · exact State.passTurn_memWf _ h
  · split <;> rename_i heq <;> rw [heq] at hb
    · exact State.passTurn_memWf _ h
    · exact State.raise_memWf _ _ _ _ h
    · split
      · exact hp hb _ _
      · exact hp hb _ _
    · exact hp hb _ _
    · exact hp hb _ _
    · exact State.passTurn_memWf _ (State.setCtx_memWf _ h)

theorem takeJump_memWf (s : State) (target : Nat) (h : s.memWf = true) : (takeJump s target).memWf = true := by
  unfold takeJump
  split
  · exact h
  · rfl

theorem execBr_memWf {s : State} (w : Ins) (h : s.memWf = true) : outMemWf (execBr w s) = true :=
  State.control_memWf h (takeJump_memWf s _ h)

theorem State.branch_memWf {s : State} (i : Instr) (w : Ins) (reads : List Res) (resolve : State → Except Trap (Bool × Nat))
    (h : s.memWf = true) : outMemWf (s.branch i w reads resolve) = true :=
  State.control_memWf h (by grind [Flow.memWf, State.setCtx_memWf])

theorem execLoop_memWf {s : State} (w : Ins) (h : s.memWf = true) : outMemWf (execLoop w s) = true :=
  State.control_memWf h (by grind [Flow.memWf])
theorem execEret_memWf {s : State} (w : Ins) (h : s.memWf = true) : outMemWf (execEret w s) = true :=
  State.control_memWf h (by grind [Flow.memWf])

end Sys2Proof.Machine
end

section
/-! SUPPORT. The host log and reports, device registers and link schedules, system registers and events, guards, fences and
publication, and the ports keep every memory in canonical form. -/

namespace Sys2Proof.Machine
open Sys2Proof

@[simp] theorem State.setHost_memWf {s : State} {x : Host1} (h : s.memWf = true) (hx : x.mem.wf = true) :
    (s.setHost x).memWf = true := by
  simp [State.setHost, h, hx]

@[simp] theorem State.hostPut_memWf {s : State} (a n v : Nat) (h : s.memWf = true) : (s.hostPut a n v).memWf = true :=
  State.setHost_memWf h (Mem.wf_store a _ (State.host_mem_wf h))
@[simp] theorem State.setPstat_memWf {s : State} (p : Nat) (x : PStat) (h : s.memWf = true) :
    (s.setPstat p x).memWf = true :=
  State.setHost_memWf h (State.host_mem_wf h)

@[simp] theorem State.logFault_memWf {s : State} (scope cause : Nat) (part : Option Nat) (queue region ident addr : Nat)
    (h : s.memWf = true) : (s.logFault scope cause part queue region ident addr).memWf = true := by
  unfold State.logFault
  extract_lets g w1 x place entry s1 _ s2
  have h1 : s1.memWf = true := by
    unfold s1
    split
    · exact State.hostPut_memWf _ _ _ (State.setHost_memWf h (Mem.wf_store _ _ (State.host_mem_wf h)))
    · exact h
  have h2 : s2.memWf = true := State.setHost_memWf h1 (State.host_mem_wf h1)
  split
  · exact State.setPstat_memWf _ _ h2
  · exact h2

@[simp] theorem State.setQueue_memWf {s : State} (q : Nat) (x : Queue) (h : s.memWf = true) :
    (s.setQueue q x).memWf = true :=
  State.setHost_memWf h (State.host_mem_wf h)
@[simp] theorem State.pktRead_memWf {s : State} (part w n : Nat) (h : s.memWf = true) :
    (s.pktRead part w n).2.memWf = true := by
  grind [State.pktRead, State.translateDie_memWf, State.die_mem_wf, State.dieNat_memWf]

@[simp] theorem State.pktWrite_memWf {s : State} (part w n v : Nat) (h : s.memWf = true) :
    (s.pktWrite part w n v).2.memWf = true := by
  grind [State.pktWrite, State.hostPut_memWf, State.translateDie_memWf, State.dieWrite_memWf]

@[simp] theorem State.queueCause_memWf {s : State} (q cause : Nat) (h : s.memWf = true) :
    (s.queueCause q cause).memWf = true := by
  grind [State.queueCause, State.setQueue_memWf]

@[simp] theorem State.stopQueue_memWf {s : State} (q : Nat) (state : QState) (cause addr : Nat) (h : s.memWf = true) :
    (s.stopQueue q state cause addr).memWf = true := by
  grind [State.stopQueue, State.setQueue_memWf, State.logFault_memWf]

@[simp] theorem State.dropLaunch_memWf {s : State} (ident : Nat) (h : s.memWf = true) :
    (s.dropLaunch ident).memWf = true := by
  simp [State.dropLaunch, h]

@[simp] theorem State.reportFault_memWf {s : State} (l : Launch1) (cause : Nat) (h : s.memWf = true) :
    (s.reportFault l cause).memWf = true := by
  grind [State.reportFault, State.stopQueue_memWf]

@[simp] theorem State.putReport_memWf {s : State} (l : Launch1) (h : s.memWf = true) :
    (s.putReport l).2.memWf = true := by
  grind [State.putReport, State.pktWrite_memWf]
@[simp] theorem State.reportLaunch_memWf {s : State} (l : Launch1) (h : s.memWf = true) :
    (s.reportLaunch l).memWf = true := by
  grind [State.reportLaunch, State.queueCause_memWf, State.putReport_memWf, State.dropLaunch_memWf, State.reportFault_memWf]

@[simp] theorem State.launchEnd_memWf {s : State} (launch : Option Nat) (record outcome cause reason : Nat)
    (h : s.memWf = true) :
    (s.launchEnd launch record outcome cause reason).memWf = true := by
  unfold State.launchEnd
  split
  · exact h
  · split
    · exact h
    · split
      · exact h
      · extract_lets cause' l' _ s1
        have h1 : s1.memWf = true := State.setHost_memWf h (State.host_mem_wf h)
        split
        · exact State.reportLaunch_memWf l' h1
        · exact h1

@[simp] theorem State.queueInval_memWf {s : State} (v : Nat) (h : s.memWf = true) : (s.queueInval v).memWf = true := by
  simp [State.queueInval, h]
@[simp] theorem State.clearDrop_memWf {s : State} (v : Nat) (h : s.memWf = true) : (s.clearDrop v).memWf = true := by
  simp [State.clearDrop, h]
@[simp] theorem State.dropBlocks_memWf {s : State} (v : Nat) (h : s.memWf = true) : (s.dropBlocks v).memWf = true :=
  foldl_memWf _ h fun _ n ht => foldl_memWf _ ht fun _ t hu => State.evictBlock_memWf n t hu

@[simp] theorem State.invalidate_memWf {s : State} (h : s.memWf = true) : (s.invalidate).memWf = true := by
  grind [State.invalidate, State.die_mem_wf, State.dropBlocks_memWf, State.tlbDropMatching_memWf, State.host_mem_wf,
    State.memWf_mk, State.cores_spadsWf]

theorem execTlbinv_memWf (value : Nat) {s : State} (h : s.memWf = true) : outMemWf (execTlbinv value s) = true := by
  simp [execTlbinv, h]
theorem execTlbinvst_memWf (value : Nat) {s : State} (h : s.memWf = true) : outMemWf (execTlbinvst value s) = true := by
  simp [execTlbinvst, h]
theorem execTlbInvalidation_memWf {s : State} (h : s.memWf = true) : outMemWf (execTlbInvalidation s) = true := by
  simp [execTlbInvalidation, h]
@[simp] theorem State.writeCtrl_memWf {s : State} (slice v : Nat) (h : s.memWf = true) :
    (s.writeCtrl slice v).memWf = true := by
  simp [State.writeCtrl, Die.clearCounters, h]
theorem execCtrl_memWf (slice value : Nat) {s : State} (h : s.memWf = true) :
    outMemWf (execCtrl slice value s) = true := by
  grind [execCtrl, outMemWf, State.writeCtrl_memWf]
@[simp] theorem Die.corrected_mem (d : Die) (word : Nat) (memory : Bool) : (d.corrected word memory).mem = d.mem := by
  simp [Die.corrected]
@[simp] theorem Die.uncorrected_mem (d : Die) (word : Nat) (memory : Bool) :
    (d.uncorrected word memory).mem = d.mem := by
  simp [Die.uncorrected, Die.errAddr]
@[simp] theorem Die.ofMemory_mem (d : Die) (memory : Bool) : (d.ofMemory memory).mem = d.mem := by
  simp [Die.ofMemory]

@[simp] theorem State.sliceOp_memWf {s : State} (addr : Nat) (write : Option (List Byte)) (h : s.memWf = true) :
    (s.sliceOp addr write).1.memWf = true := by
  cases write with
  | none => exact State.dieRead_memWf _ _ h
  | some bs => exact State.dieWrite_memWf _ h

theorem execLlcOperation_memWf {s : State} (addr : Nat) (access : LlcAccess) (h : s.memWf = true) :
    outMemWf (execLlcOperation addr access s) = true := by
  unfold execLlcOperation
  split
  · rfl
  · dsimp only
    split
    · exact State.sliceOp_memWf addr _ h
    · exact State.sliceOp_memWf addr _ (by simp [h])
    · next memory =>
      have hs : State.memWf ({ s with die := s.die.poisoned (addr / 32 * 32) }.sliceOp addr access.write).1 = true :=
        State.sliceOp_memWf addr _ h
      simp [hs]

@[simp] theorem State.schedDone_memWf {s : State} (pa : Nat) (error : Option Nat) (done : Nat) (h : s.memWf = true) :
    (s.schedDone pa error done).memWf = true := by
  simp [State.schedDone, h]

@[simp] theorem State.startLinks_memWf {s : State} (part pa : Nat) (h : s.memWf = true) :
    (s.startLinks part pa).memWf = true := by
  grind [State.startLinks, State.host_mem_wf, State.setHost_memWf, State.dieRead_memWf, State.schedDone_memWf]

theorem execLsgo_memWf (part value : Nat) {s : State} (h : s.memWf = true) :
    outMemWf (execLsgo part value s) = true := by
  grind [execLsgo, outMemWf, State.startLinks_memWf]
@[simp] theorem State.loadLsgo_memWf {s : State} (h : s.memWf = true) : (s.loadLsgo).2.memWf = true := by
  simp [State.loadLsgo, h]
theorem execLsgoLoad_memWf {s : State} (h : s.memWf = true) : outMemWf (execLsgoLoad s) = true := by
  grind [execLsgoLoad, outMemWf, State.loadLsgo_memWf, State.setHost_memWf, State.host_mem_wf]
@[simp] theorem State.linkRead_memWf {s : State} (pa w n : Nat) (h : s.memWf = true) :
    (s.linkRead pa w n).2.memWf = true := by
  simp [State.linkRead, h]
@[simp] theorem State.linkWrite_memWf {s : State} (pa w : Nat) (vs : List Nat) (h : s.memWf = true) :
    (s.linkWrite pa w vs).memWf = true := State.dieWrite_memWf _ h
@[simp] theorem State.setLink_memWf {s : State} (l : Nat) (x : Link) (h : s.memWf = true) :
    (s.setLink l x).memWf = true :=
  State.setHost_memWf h (State.host_mem_wf h)

/-- The state that an entry of a link schedule leaves, if it does not wait, has its memories in canonical form. -/
def LinkRun.memWf : LinkRun → Bool
  | .wait => true
  | .done s => s.memWf
  | .error _ s => s.memWf

theorem State.recvAdd_memWf {s : State} (e : LinkEntry) (xs : List Nat) (h : s.memWf = true) :
    (s.recvAdd e xs).memWf = true := by
  grind [State.recvAdd, LinkRun.memWf, State.linkRead_memWf, State.linkWrite_memWf]
theorem State.runLink_memWf {s : State} (e : LinkEntry) (h : s.memWf = true) : (s.runLink e).memWf = true := by
  grind [State.runLink, LinkRun.memWf, State.linkRead_memWf, State.linkWrite_memWf, State.setLink_memWf, State.recvAdd_memWf]
@[simp] theorem State.runEntry_memWf {s : State} (h : s.memWf = true) : s.runEntry.memWf = true := by
  grind [State.runEntry, State.runLink_memWf, LinkRun.memWf, State.schedDone_memWf, State.setHost_memWf, State.host_mem_wf]
theorem execRunEntry_memWf (link : Nat) {s : State} (h : s.memWf = true) : outMemWf (execRunEntry link s) = true := by
  grind [execRunEntry, outMemWf, State.host_mem_wf, State.runEntry_memWf]
@[simp] theorem State.devRead_memWf {s : State} (pa : Nat) (h : s.memWf = true) : (s.devRead pa).2.memWf = true := by
  grind [State.devRead, State.die_mem_wf, State.loadLsgo_memWf]

@[simp] theorem State.devWrite_memWf {s : State} (part pa v : Nat) (h : s.memWf = true) :
    (s.devWrite part pa v).memWf = true := by
  simp [State.devWrite, h]

theorem execMfsr_memWf (w : Ins) {s : State} (h : s.memWf = true) : outMemWf (execMfsr w s) = true :=
  State.issue_memWf h (by grind [IssueRes.memWf])
theorem execMtsr_memWf (w : Ins) {s : State} (h : s.memWf = true) : outMemWf (execMtsr w s) = true :=
  State.run_memWf h (by grind [IssueRes.memWf])
theorem execTrap_memWf (w : Ins) {s : State} (h : s.memWf = true) : outMemWf (execTrap w s) = true :=
  State.run_memWf h (by grind [IssueRes.memWf])
theorem execPost_memWf (w : Ins) {s : State} (h : s.memWf = true) : outMemWf (execPost w s) = true :=
  State.run_memWf h (by grind [IssueRes.memWf])
theorem execAwait_memWf (w : Ins) {s : State} (h : s.memWf = true) : outMemWf (execAwait w s) = true :=
  State.issue_memWf h (by grind [IssueRes.memWf, State.setCtx_memWf])
theorem execAwaitp_memWf (w : Ins) {s : State} (h : s.memWf = true) : outMemWf (execAwaitp w s) = true :=
  State.issue_memWf h (by grind [IssueRes.memWf])
theorem execTksend_memWf (w : Ins) {s : State} (h : s.memWf = true) : outMemWf (execTksend w s) = true :=
  State.run_memWf h (by grind [IssueRes.memWf])
@[simp] theorem State.forceAll_memWf {s : State} (h : s.memWf = true) : (s.forceAll).memWf = true := by
  simp [State.forceAll, h]
@[simp] theorem State.forceDie_memWf {s : State} (h : s.memWf = true) : (s.forceDie).memWf = true := by
  simp [State.forceDie, h]
@[simp] theorem State.guardPlace_memWf {s : State} (a : Nat) (h : s.memWf = true) :
    (s.guardPlace a).2.memWf = true := by
  grind [State.guardPlace, State.translate_memWf]
theorem execBind_memWf (w : Ins) {s : State} (h : s.memWf = true) : outMemWf (execBind w s) = true :=
  State.run_memWf h (by grind [IssueRes.memWf, State.guardPlace_memWf, State.die_mem_wf, State.dieWrite_memWf, State.dieRead_memWf])

theorem State.acquire_memWf {s : State} (i : Instr) (w : Ins) (excl : Bool) (h : s.memWf = true) :
    outMemWf (s.acquire i w excl) = true :=
  State.run_memWf h (by grind [IssueRes.memWf, State.guardPlace_memWf, State.memWf_mk, State.memWf_iff])

@[simp] theorem State.releaseGuard_memWf {s : State} (h : Held) (hs : s.memWf = true) :
    (s.releaseGuard h).memWf = true := by
  grind [State.releaseGuard, State.dieChange_memWf, State.forceDie_memWf, State.setCtx_memWf]
theorem execRel_memWf {s : State} (w : Ins) (h : s.memWf = true) : outMemWf (execRel w s) = true :=
  State.run_memWf h (by grind [IssueRes.memWf, State.guardPlace_memWf, State.releaseGuard_memWf])

theorem execGuardGrant_memWf (guard : Nat) {s : State} (h : s.memWf = true) :
    outMemWf (execGuardGrant guard s) = true := by
  grind [execGuardGrant, outMemWf, State.die_mem_wf, State.dieChange_memWf, State.setCtxAt_memWf, State.host_mem_wf,
    State.memWf_mk, State.cores_spadsWf]

theorem execPublish_memWf {s : State} (w : Ins) (h : s.memWf = true) : outMemWf (execPublish w s) = true :=
  State.run_memWf h (by
    have hs := State.forceDie_memWf h
    dsimp only
    repeat' split
    · rfl
    · rfl
    · simp [IssueRes.memWf, hs])

@[simp] theorem State.dropCaptures_memWf {s : State} (cores : Nat → Bool) (asn lo len : Nat) (h : s.memWf = true) :
    (s.dropCaptures cores asn lo len).memWf = true := by
  obtain ⟨hd, hh, -⟩ := State.memWf_iff.1 h
  refine State.memWf_iff.2 ⟨hd, hh, spadsWf_ofFn fun n => ?_⟩
  split <;> exact State.core_spad_wf _ h

theorem execIcflush_memWf (w : Ins) {s : State} (h : s.memWf = true) : outMemWf (execIcflush w s) = true :=
  State.run_memWf h (by grind [IssueRes.memWf, State.forceDie_memWf])
theorem execCbsync_memWf (w : Ins) {s : State} (h : s.memWf = true) : outMemWf (execCbsync w s) = true :=
  State.run_memWf h (by grind [IssueRes.memWf, State.forceAll_memWf])
@[simp] theorem State.fillPort_memWf {s : State} (n k : Nat) (h : s.memWf = true) : (s.fillPort n k).memWf = true := by
  simp [State.fillPort, h]
@[simp] theorem State.readAhead_memWf {s : State} (w : Ins) (h : s.memWf = true) : (s.readAhead w).memWf = true :=
  foldl_memWf _ h fun _ _ ht => by simp [ht]

@[simp] theorem State.fillPorts_memWf {s : State} (w : Ins) (plane : Bool) (h : s.memWf = true) :
    (s.fillPorts w plane).2.memWf = true := by
  grind [State.fillPorts, State.readAhead_memWf]

@[simp] theorem State.popPorts_memWf {s : State} (w : Ins) (h : s.memWf = true) : (s.popPorts w).memWf = true := by
  simp [State.popPorts, h]
theorem execPset_memWf (w : Ins) {s : State} (h : s.memWf = true) : outMemWf (execPset w s) = true :=
  State.run_memWf h (by grind [IssueRes.memWf])

end Sys2Proof.Machine
end

section
/-! SUPPORT. Vector instructions, vector memory accesses and the M instructions keep every memory in canonical form. -/

namespace Sys2Proof.Machine
open Sys2Proof

/-- A vector instruction keeps the canonical form where its body does, after the ports are filled. -/
theorem State.vector_memWf {s : State} {i : Instr} {w : Ins} {slots : List (Nat × Nat)} {extra : List Res}
    {body : State → Nat → Word → IssueRes} (h : s.memWf = true)
    (hb : ∀ t, t.memWf = true → (body t (s.streamOf w) (s.popped w)).memWf = true) :
    outMemWf (s.vector i w slots extra body) = true := by
  refine State.issue_memWf h ?_
  have hf := State.fillPorts_memWf w false h
  split
  · rfl
  · split <;> rename_i s1 heq <;> rw [heq] at hf
    · exact hf
    · have h1 := hb s1 hf
      split
      · next hr => rw [hr] at h1; exact State.popPorts_memWf w h1
      · exact h1

@[simp] theorem State.vecResult_memWf {s : State} {w : Ins} {lanes : Vector Lane 64} {mask : Word}
    (h : s.memWf = true) :
    (s.vecResult w lanes mask).memWf = true := State.setCtx_memWf _ h

theorem State.lanewise_memWf {s : State} {i : Instr} {w : Ins} {op : LaneOp} (h : s.memWf = true) :
    outMemWf (s.lanewise i w op) = true :=
  State.vector_memWf h fun _ ht => State.vecResult_memWf ht

theorem execVsel_memWf (w : Ins) {s : State} (h : s.memWf = true) : outMemWf (execVsel w s) = true :=
  State.vector_memWf h fun t ht => by grind [IssueRes.memWf, State.vecResult_memWf]

theorem State.vcompare_memWf {s : State} {i : Instr} {w : Ins} {int : Int → Int → Bool} {val : Val → Val → Bool}
    (h : s.memWf = true) : outMemWf (s.vcompare i w int val) = true :=
  State.vector_memWf h fun _ ht => ht

theorem execVclass_memWf (w : Ins) {s : State} (h : s.memWf = true) : outMemWf (execVclass w s) = true :=
  State.vector_memWf h fun t ht => by grind [IssueRes.memWf]
theorem execVextr_memWf (w : Ins) {s : State} (h : s.memWf = true) : outMemWf (execVextr w s) = true :=
  State.vector_memWf h fun t ht => by grind [IssueRes.memWf]

theorem execVins_memWf (w : Ins) {s : State} (h : s.memWf = true) : outMemWf (execVins w s) = true :=
  State.issue_memWf h (by
    dsimp only
    split
    · rfl
    · exact State.vecResult_memWf h)

theorem execVcomp_memWf (w : Ins) {s : State} (h : s.memWf = true) : outMemWf (execVcomp w s) = true :=
  State.vector_memWf h fun t ht => by grind [IssueRes.memWf, State.vecResult_memWf]
theorem execVexpd_memWf (w : Ins) {s : State} (h : s.memWf = true) : outMemWf (execVexpd w s) = true :=
  State.vector_memWf h fun t ht => by grind [IssueRes.memWf, State.vecResult_memWf]
theorem execVperm_memWf (w : Ins) {s : State} (h : s.memWf = true) : outMemWf (execVperm w s) = true :=
  State.vector_memWf h fun t ht => by grind [IssueRes.memWf, State.vecResult_memWf]
theorem execViota_memWf (w : Ins) {s : State} (h : s.memWf = true) : outMemWf (execViota w s) = true :=
  State.vector_memWf h fun t ht => by grind [IssueRes.memWf, State.vecResult_memWf]

theorem State.maskOp_memWf {s : State} {i : Instr} {w : Ins} {op : Word → Word → Word} (h : s.memWf = true) :
    outMemWf (s.maskOp i w op) = true :=
  State.run_memWf h (by grind [IssueRes.memWf])

theorem execKmov_memWf (w : Ins) {s : State} (h : s.memWf = true) : outMemWf (execKmov w s) = true :=
  State.run_memWf h (by grind [IssueRes.memWf])
theorem execKpop_memWf (w : Ins) {s : State} (h : s.memWf = true) : outMemWf (execKpop w s) = true :=
  State.run_memWf h (by grind [IssueRes.memWf])

theorem State.reduce_memWf {s : State} {i : Instr} {w : Ins} {int : List Int → Nat → Int}
    {val : Nat → Nat → Bool → Val → Val → Nat} {empty : Nat → Nat} (h : s.memWf = true) :
    outMemWf (s.reduce i w int val empty) = true :=
  State.vector_memWf h fun _ ht => ht

theorem execVcvt_memWf (w : Ins) {s : State} (h : s.memWf = true) : outMemWf (execVcvt w s) = true :=
  State.issue_memWf h (by
    grind [IssueRes.memWf, State.fillPorts_memWf, State.popPorts_memWf, State.vecResult, State.setCtx_memWf])

theorem execVldp_memWf (w : Ins) {s : State} (h : s.memWf = true) : outMemWf (execVldp w s) = true :=
  State.vector_memWf h fun t ht => by grind [IssueRes.memWf, State.vecResult_memWf]
theorem execVstp_memWf (w : Ins) {s : State} (h : s.memWf = true) : outMemWf (execVstp w s) = true :=
  State.issue_memWf h (by grind [IssueRes.memWf, State.setCtx_memWf])

@[simp] theorem State.loadPages_memWf {s : State} (st va k n : Nat) (h : s.memWf = true) :
    (s.loadPages st va k n).2.memWf = true := by
  induction k generalizing s va n with
  | zero => exact h
  | succ k ih => grind [State.loadPages, State.loadVirt_memWf]

@[simp] theorem State.loadSpace_memWf {s : State} (st : Nat) (spad : Bool) (ea n : Nat) (h : s.memWf = true) :
    (s.loadSpace st spad ea n).2.memWf = true := by
  grind [State.loadSpace, State.askBanks_memWf, State.loadPages_memWf]

@[simp] theorem State.storePages_memWf {s : State} (va k : Nat) (bs : List (Byte × Byte)) (h : s.memWf = true) :
    (s.storePages va k bs).2.memWf = true := by
  induction k generalizing s va bs with
  | zero => exact h
  | succ k ih => grind [State.storePages, State.storeCells_memWf]

@[simp] theorem State.storeSpace_memWf {s : State} (spad : Bool) (ea : Nat) (bs : List (Byte × Byte))
    (h : s.memWf = true) :
    (s.storeSpace spad ea bs).2.memWf = true := by
  grind [State.storeSpace, State.storePages_memWf]

@[simp] theorem State.loadRuns_memWf {s : State} (st : Nat) (spad : Bool) (ea : Nat) (runs : List (Nat × Nat)) (image : List Byte)
    (h : s.memWf = true) : (s.loadRuns st spad ea runs image).2.memWf = true := by
  induction runs generalizing s image with
  | nil => exact h
  | cons r rest ih => grind [State.loadRuns, State.loadSpace_memWf]

@[simp] theorem State.storeRuns_memWf {s : State} (spad : Bool) (ea : Nat) (image : List (Byte × Byte)) (runs : List (Nat × Nat))
    (h : s.memWf = true) : (s.storeRuns spad ea image runs).2.memWf = true := by
  induction runs generalizing s with
  | nil => exact h
  | cons r rest ih => grind [State.storeRuns, State.storeSpace_memWf]

/-- A vector memory instruction keeps the canonical form where its body does. -/
theorem State.vmem_memWf {s : State} {i : Instr} {w : Ins} {check : Ctx → Option Trap} {extra : List Res}
    {body : State → Nat → Word → IssueRes} (h : s.memWf = true) (hb : (body s (s.streamOf w) (s.popped w)).memWf = true) :
    outMemWf (s.vmem i w check extra body) = true :=
  State.issue_memWf h (by
    split
    · rfl
    · exact hb)

theorem execVld_memWf (w : Ins) {s : State} (h : s.memWf = true) : outMemWf (execVld w s) = true :=
  State.vmem_memWf h (by grind [IssueRes.memWf, State.loadRuns_memWf, State.vecResult_memWf])
theorem execVst_memWf (w : Ins) {s : State} (h : s.memWf = true) : outMemWf (execVst w s) = true :=
  State.vmem_memWf h (by grind [IssueRes.memWf, State.storeRuns_memWf])

@[simp] theorem State.loadLanes_memWf {s : State} (st : Nat) (spad : Bool) (n : Nat) (p : Word) (addr : Nat → Int)
    (h : s.memWf = true) : (s.loadLanes st spad n p addr).2.2.memWf = true :=
  List.foldlRecOn (motive := fun r : Option MemFault × (List Nat × State) => r.2.2.memWf = true) _ _ h fun r hr j _ => by
    grind [State.loadSpace_memWf]

@[simp] theorem State.storeLanes_memWf {s : State} (spad : Bool) (n : Nat) (p : Word) (addr : Nat → Int) (val : Nat → Nat)
    (h : s.memWf = true) : (s.storeLanes spad n p addr val).2.2.memWf = true :=
  List.foldlRecOn (motive := fun r : Option MemFault × (List StoreCell × State) => r.2.2.memWf = true) _ _ h fun r hr j _ => by
    grind [State.storeSpace_memWf]

theorem execVlds_memWf (w : Ins) {s : State} (h : s.memWf = true) : outMemWf (execVlds w s) = true :=
  State.vmem_memWf h (by grind [IssueRes.memWf, State.loadLanes_memWf, State.vecResult_memWf])
theorem execVsts_memWf (w : Ins) {s : State} (h : s.memWf = true) : outMemWf (execVsts w s) = true :=
  State.vmem_memWf h (by grind [IssueRes.memWf, State.storeLanes_memWf])

/-- A lane-by-lane run keeps the canonical form where each of its steps does. -/
theorem LaneRun.each_memWf {r : LaneRun} {pending : Word} {step : LaneRun → Nat → LaneRun} (h : r.s.memWf = true)
    (hs : ∀ u j, u.s.memWf = true → (step u j).s.memWf = true) : (r.each pending step).s.memWf = true :=
  List.foldlRecOn (motive := fun u : LaneRun => u.s.memWf = true) _ _ h fun u hu j _ => by
    split
    · exact hu
    · exact hs u j hu

@[simp] theorem State.gatherRun_memWf {s : State} (st : Nat) (tk : Word) (w : Ins) (h : s.memWf = true) :
    (s.gatherRun st tk w).s.memWf = true :=
  LaneRun.each_memWf h fun u j hu => by grind [State.loadSpace_memWf]

theorem execVgath_memWf (w : Ins) {s : State} (h : s.memWf = true) : outMemWf (execVgath w s) = true :=
  State.vmem_memWf h (by grind [IssueRes.memWf, State.setCtx_memWf, State.gatherRun_memWf, State.vecResult])
@[simp] theorem State.countRmw_memWf {s : State} (pa : Nat) (h : s.memWf = true) : (s.countRmw pa).memWf = true := by
  simp [State.countRmw, h]

@[simp] theorem State.performNow_memWf {s : State} (i : Instr) (st : Nat) (spad : Bool) (cs : List StoreCell)
    (h : s.memWf = true) :
    (s.performNow i st spad cs).memWf = true := by
  simp [State.performNow, h]

@[simp] theorem State.scatterRun_memWf {s : State} (st : Nat) (w : Ins) (h : s.memWf = true) :
    (s.scatterRun st w).s.memWf = true :=
  LaneRun.each_memWf h fun u j hu => by grind [State.storeSpace_memWf, State.countRmw_memWf]

theorem execVscat_memWf (w : Ins) {s : State} (h : s.memWf = true) : outMemWf (execVscat w s) = true :=
  State.vmem_memWf h (by grind [IssueRes.memWf, State.scatterRun_memWf, State.performNow_memWf, State.setCtx_memWf])

@[simp] theorem State.scatterAdd_memWf {s : State} (st : Nat) (spad : Bool) (a : Int) (n : Nat) (op : Nat → Nat)
    (h : s.memWf = true) :
    (s.scatterAdd st spad a n op).2.memWf = true := by
  grind [State.scatterAdd, State.performFor_memWf, State.here_spad_wf, State.translate_memWf, State.homeUpdate_memWf]

@[simp] theorem State.scatterAddRun_memWf {s : State} (st : Nat) (w : Ins) (h : s.memWf = true) :
    (s.scatterAddRun st w).s.memWf = true :=
  LaneRun.each_memWf (State.forceStores_memWf _ h) fun u j hu => by grind [State.scatterAdd_memWf]

theorem execVscatadd_memWf (w : Ins) {s : State} (h : s.memWf = true) : outMemWf (execVscatadd w s) = true :=
  State.vmem_memWf h (by grind [IssueRes.memWf, State.scatterAddRun_memWf, State.setCtx_memWf])
@[simp] theorem State.spillRun_memWf {s : State} (w : Ins) (a : Nat) (h : s.memWf = true) :
    (s.spillRun w a).s.memWf = true :=
  LaneRun.each_memWf h fun u j hu => by grind [State.storeRuns_memWf, State.storeSpace_memWf, State.countRmw_memWf]
theorem execVspill_memWf (w : Ins) {s : State} (h : s.memWf = true) : outMemWf (execVspill w s) = true :=
  State.vmem_memWf h (by grind [IssueRes.memWf, State.spillRun_memWf, State.performNow_memWf, State.setCtx_memWf])

@[simp] theorem State.fillRun_memWf {s : State} (st : Nat) (w : Ins) (a : Nat) (h : s.memWf = true) :
    (s.fillRun st w a).1.2.memWf = true :=
  List.foldlRecOn (motive := fun r : FillRun => r.1.2.memWf = true) _ _ h fun r hr j _ => by
    grind [State.loadRuns_memWf, State.loadSpace_memWf]

theorem execVfill_memWf (w : Ins) {s : State} (h : s.memWf = true) : outMemWf (execVfill w s) = true :=
  State.vmem_memWf h (by grind [IssueRes.memWf, State.fillRun_memWf, State.setCtx_memWf])
theorem execNld_memWf (w : Ins) {s : State} (h : s.memWf = true) : outMemWf (execNld w s) = true :=
  State.run_memWf h (by grind [IssueRes.memWf, State.loadSpace_memWf])
theorem execNst_memWf (w : Ins) {s : State} (h : s.memWf = true) : outMemWf (execNst w s) = true :=
  State.run_memWf h (by grind [IssueRes.memWf, State.storeSpace_memWf])

/-- An M instruction keeps the canonical form where its body does. -/
theorem State.matrix_memWf {s : State} {i : Instr} {w : Ins} {check : Ctx → Option Trap} {extra : List Res}
    {body : State → Nat → Word → IssueRes} (h : s.memWf = true) (hb : (body s (s.streamOf w) (s.popped w)).memWf = true) :
    outMemWf (s.matrix i w check extra body) = true :=
  State.issue_memWf h hb

/-- A tile write keeps the canonical form where what it does once nothing holds it back does. -/
theorem State.tileWrite_memWf {s : State} {w : Ins} {need : Nat} {go : Unit → IssueRes} (h : s.memWf = true)
    (hg : (go ()).memWf = true) : (s.tileWrite w need go).memWf = true := by
  grind [State.tileWrite, IssueRes.memWf]

theorem State.tileResult_memWf {s : State} {w : Ins} {rep : Nat × Nat} {v dense : Unit → TileVal} (h : s.memWf = true) :
    (s.tileResult w rep v dense).memWf = true := by
  unfold State.tileResult
  dsimp only
  split
  · exact h
  · exact State.tileWrite_memWf h h

/-- The end of an array step: its operand ports are read ahead and popped, and the step joins the array. -/
theorem State.arrayStep_memWf {s : State} (w : Ins) (cost : Nat) (h : s.memWf = true) :
    (((s.readAhead w).popPorts w).setCtx (((s.readAhead w).popPorts w).ctx.enterArray cost)).memWf = true :=
  State.setCtx_memWf _ (State.popPorts_memWf w (State.readAhead_memWf w h))

theorem execTmma_memWf (w : Ins) {s : State} (h : s.memWf = true) : outMemWf (execTmma w s) = true := by
  unfold execTmma
  split
  refine State.matrix_memWf h ?_
  split
  · rfl
  · refine State.tileWrite_memWf h ?_
    dsimp only
    split
    · exact State.readAhead_memWf w h
    · exact State.arrayStep_memWf w _ h

theorem execTfmul_memWf (w : Ins) {s : State} (h : s.memWf = true) : outMemWf (execTfmul w s) = true := by
  unfold execTfmul
  refine State.matrix_memWf h ?_
  dsimp only
  split
  · rfl
  · split
    · rfl
    · refine State.tileWrite_memWf h ?_
      split
      · exact State.readAhead_memWf w h
      · exact State.arrayStep_memWf w _ h

theorem execTfadd_memWf (w : Ins) {s : State} (h : s.memWf = true) : outMemWf (execTfadd w s) = true :=
  State.matrix_memWf h (by
    dsimp only
    split
    · rfl
    · exact State.tileResult_memWf h)

theorem execTpmul_memWf (w : Ins) {s : State} (h : s.memWf = true) : outMemWf (execTpmul w s) = true :=
  State.matrix_memWf h (by
    dsimp only
    split
    · rfl
    · split <;> exact State.tileResult_memWf h)

theorem execTadd_memWf (w : Ins) {s : State} (h : s.memWf = true) : outMemWf (execTadd w s) = true :=
  State.matrix_memWf h (State.tileResult_memWf h)
theorem execTmov_memWf (w : Ins) {s : State} (h : s.memWf = true) : outMemWf (execTmov w s) = true :=
  State.matrix_memWf h (State.tileResult_memWf h)
theorem execTdense_memWf (w : Ins) {s : State} (h : s.memWf = true) : outMemWf (execTdense w s) = true :=
  State.matrix_memWf h (State.tileResult_memWf h)

theorem State.recompressTile_memWf {s : State} {i : Instr} {w : Ins} {refused : Nat} (h : s.memWf = true) :
    outMemWf (s.recompressTile i w refused) = true :=
  State.matrix_memWf h (by grind [IssueRes.memWf, State.tileWrite])

theorem execTzero_memWf (w : Ins) {s : State} (h : s.memWf = true) : outMemWf (execTzero w s) = true :=
  State.matrix_memWf h (State.tileResult_memWf h)
theorem execTfree_memWf (w : Ins) {s : State} (h : s.memWf = true) : outMemWf (execTfree w s) = true :=
  State.matrix_memWf h (by grind [IssueRes.memWf])
theorem execTlimit_memWf (w : Ins) {s : State} (h : s.memWf = true) : outMemWf (execTlimit w s) = true :=
  State.matrix_memWf h (by grind [IssueRes.memWf])
theorem execTrank_memWf (w : Ins) {s : State} (h : s.memWf = true) : outMemWf (execTrank w s) = true :=
  State.issue_memWf h (by grind [IssueRes.memWf])
theorem execTpred_memWf (w : Ins) {s : State} (h : s.memWf = true) : outMemWf (execTpred w s) = true :=
  State.issue_memWf h (by grind [IssueRes.memWf])

@[simp] theorem State.loadRows_memWf {s : State} (st : Nat) (spad : Bool) (n : Nat) (addr : Nat → Int)
    (h : s.memWf = true) :
    (s.loadRows st spad n addr).2.2.memWf = true :=
  List.foldlRecOn (motive := fun r : Option MemFault × (List (List Byte) × State) => r.2.2.memWf = true) _ _ h fun r hr m _ => by
    grind [State.loadSpace_memWf]

theorem execTld_memWf (w : Ins) {s : State} (h : s.memWf = true) : outMemWf (execTld w s) = true :=
  State.matrix_memWf h (by grind [IssueRes.memWf, State.tileWrite_memWf, State.loadRows_memWf, State.tileWrite])

@[simp] theorem State.storeRows_memWf {s : State} (spad : Bool) (fw : Nat) (es : List Nat) (addr : Nat → Int)
    (h : s.memWf = true) :
    (s.storeRows spad fw es addr).2.2.memWf = true :=
  List.foldlRecOn (motive := fun r : Option MemFault × (List StoreCell × State) => r.2.2.memWf = true) _ _ h fun r hr m _ => by
    grind [State.storeSpace_memWf]

theorem execTst_memWf (w : Ins) {s : State} (h : s.memWf = true) : outMemWf (execTst w s) = true :=
  State.issue_memWf h (by grind [IssueRes.memWf, State.storeRows_memWf])
theorem execTrdrow_memWf (w : Ins) {s : State} (h : s.memWf = true) : outMemWf (execTrdrow w s) = true :=
  State.issue_memWf h (by grind [IssueRes.memWf, State.setCtx_memWf])
theorem execTwrrow_memWf (w : Ins) {s : State} (h : s.memWf = true) : outMemWf (execTwrrow w s) = true :=
  State.matrix_memWf h (by grind [IssueRes.memWf, State.tileWrite_memWf, State.readAhead_memWf, State.popPorts_memWf, State.tileWrite])

end Sys2Proof.Machine
end

section
/-! SUPPORT. The transfer sequencer, tasks and the task instructions keep every memory in canonical form. -/

namespace Sys2Proof.Machine
open Sys2Proof

theorem execXsched_memWf (w : Ins) {s : State} (h : s.memWf = true) : outMemWf (execXsched w s) = true :=
  State.run_memWf h (by grind [IssueRes.memWf, State.loadVirt_memWf, State.forceStores_memWf])
theorem execXstage_memWf (w : Ins) {s : State} (h : s.memWf = true) : outMemWf (execXstage w s) = true :=
  State.run_memWf h (by grind [IssueRes.memWf, State.forceStores_memWf])
theorem execRingset_memWf (w : Ins) {s : State} (h : s.memWf = true) : outMemWf (execRingset w s) = true :=
  State.run_memWf h (by grind [IssueRes.memWf])
theorem execAwfill_memWf (w : Ins) {s : State} (h : s.memWf = true) : outMemWf (execAwfill w s) = true :=
  State.run_memWf h (by grind [IssueRes.memWf])
theorem execRlslot_memWf (w : Ins) {s : State} (h : s.memWf = true) : outMemWf (execRlslot w s) = true :=
  State.run_memWf h (by grind [IssueRes.memWf, State.setCtx_memWf])
theorem execXstat_memWf (w : Ins) {s : State} (h : s.memWf = true) : outMemWf (execXstat w s) = true :=
  State.run_memWf h (by grind [IssueRes.memWf])

/-- Of an answer paired with the state it is found in, the state. -/
theorem memWf_of_eq_pair {α : Type} {p : α × State} {a : α} {s : State} (h : p.2.memWf = true) (e : p = (a, s)) :
    s.memWf = true := by
  subst e
  exact h

theorem State.atCore_memWf {s : State} (n : Nat) {f : State → State} (h : s.memWf = true)
    (hf : ∀ t, t.memWf = true → (f t).memWf = true) : outMemWf (s.atCore n f) = true := by
  unfold State.atCore
  split
  · exact State.onCore_memWf n h hf
  · rfl

@[simp] theorem State.engineRead_memWf {s : State} (l : Loc) (n : Nat) (h : s.memWf = true) :
    (s.engineRead l n).2.memWf = true := by
  cases l with
  | spad a => grind [State.engineRead, State.askBanks_memWf]
  | virt a => grind [State.engineRead, State.translateRange_memWf, State.readPieces_memWf]
  | block base a => grind [State.engineRead, State.dieRead_memWf]

@[simp] theorem State.engineCells_memWf {s : State} (l : Loc) (bs : List (Byte × Byte)) (h : s.memWf = true) :
    (s.engineCells l bs).2.memWf = true := by
  cases l with
  | spad a => grind [State.engineCells]
  | virt a => grind [State.engineCells, State.storeCells_memWf]
  | block base a => exact h

@[simp] theorem State.stepEntry.read_memWf {s : State} (el : Loc) (step : Nat) (h : s.memWf = true) :
    (State.stepEntry.read el step s).2.memWf = true := by
  grind [State.stepEntry.read, State.engineRead_memWf, State.setCtx_memWf]

@[simp] theorem State.stepEntry_memWf {s : State} (el : Loc) (step : Nat) (h : s.memWf = true) :
    (s.stepEntry el step).2.memWf = true := by
  grind [State.stepEntry, State.stepEntry.read_memWf]

@[simp] theorem State.sideRun_memWf {s : State} (r : Nest) (src : Bool) (n : Nat) (h : s.memWf = true) :
    (s.sideRun r src n).2.memWf = true := by
  grind [State.sideRun, State.stepEntry_memWf]

@[simp] theorem State.sourceElem_memWf {s : State} (r : Nest) (n : Nat) (run : Option Loc) (h : s.memWf = true) :
    (s.sourceElem r n run).2.memWf = true := by
  cases run with
  | none => exact h
  | some l => grind [State.sourceElem, State.engineRead_memWf]

@[simp] theorem State.moveElem_memWf {s : State} (r : Nest) (n : Nat) (h : s.memWf = true) :
    (s.moveElem r n).2.memWf = true := by
  have hd := State.sideRun_memWf r false n h
  unfold State.moveElem
  dsimp only
  split
  · exact h
  · split <;> rename_i s1 heq <;> rw [heq] at hd
    · exact hd
    · split <;> exact hd
    · have hs := State.sideRun_memWf r true n hd
      split
      · exact hd
      · split <;> rename_i s2 heq2 <;> rw [heq2] at hs
        · exact hs
        · split <;> exact hs
        · grind [State.sourceElem_memWf]

@[simp] theorem State.moveElems_memWf {s : State} (r : Nest) (k n : Nat) (h : s.memWf = true) :
    (s.moveElems r k n).2.memWf = true := by
  induction k generalizing s n with
  | zero => exact h
  | succ k ih => grind [State.moveElems, State.moveElem_memWf, State.engineCells_memWf]

@[simp] theorem State.tileElems_memWf {s : State} (r : Nest) (k n : Nat) (h : s.memWf = true) :
    (s.tileElems r k n).2.memWf = true := by
  induction k generalizing s n with
  | zero => exact h
  | succ k ih => grind [State.tileElems, State.sideRun_memWf, State.sourceElem_memWf]

@[simp] theorem State.toplanes_memWf {s : State} (r : Nest) (n : Nat) (h : s.memWf = true) :
    (s.toplanes r n).2.memWf = true := by
  have ht := State.tileElems_memWf r (64 * 512) n h
  unfold State.toplanes
  split
  · next heq => rw [heq] at ht; exact ht
  · next heq =>
    rw [heq] at ht
    grind [State.sideRun_memWf, State.engineCells_memWf]

@[simp] theorem State.rowsOut_memWf {s : State} (r : Nest) (base : Nat) (vs : List Nat) (k n : Nat)
    (h : s.memWf = true) :
    (s.rowsOut r base vs k n).2.memWf = true := by
  induction k generalizing s n with
  | zero => exact h
  | succ k ih => grind [State.rowsOut, State.sideRun_memWf, State.engineCells_memWf]

@[simp] theorem State.torows_memWf {s : State} (r : Nest) (n : Nat) (h : s.memWf = true) :
    (s.torows r n).2.memWf = true := by
  grind [State.torows, State.rowsOut_memWf, State.askBanks_memWf]

@[simp] theorem State.unitCells_memWf {s : State} (r : Nest) (unit : Nat) (h : s.memWf = true) :
    (s.unitCells r unit).2.memWf = true := by
  grind [State.unitCells, State.toplanes_memWf, State.torows_memWf, State.moveElems_memWf]

@[simp] theorem State.someSectors_memWf {s : State} (cs : List StoreCell) (bad : List Nat) (h : s.memWf = true) :
    (s.someSectors cs bad).memWf = true :=
  foldl_memWf _ h fun _ _ ht => State.performCells_memWf _ _ _ _ ht

@[simp] theorem State.performUnit_memWf {s : State} (r : Nest) (us : UnitCells) (h : s.memWf = true) :
    (s.performUnit r us).1.memWf = true := by
  grind [State.performUnit, State.performCells_memWf, State.spadPerform_memWf, State.setCtx_memWf, State.someSectors_memWf]

@[simp] theorem State.captureEntries_memWf {s : State} (r : Nest) (k o : Nat) (h : s.memWf = true) :
    (s.captureEntries r k o).2.memWf = true := by
  induction k generalizing s o with
  | zero => exact h
  | succ k ih => grind [State.captureEntries, State.engineRead_memWf]

@[simp] theorem State.unitFails_memWf {s : State} (i : Nat) (f : UnitFault) (h : s.memWf = true) :
    (s.unitFails i f).memWf = true := by
  simp [State.unitFails, h]

@[simp] theorem State.captureTable_memWf {s : State} (i : Nat) (h : s.memWf = true) :
    (s.captureTable i).memWf = true := by
  grind [State.captureTable, State.captureEntries_memWf, State.unitFails_memWf, State.setCtx_memWf]
@[simp] theorem State.startRecord_memWf {s : State} (h : s.memWf = true) : (s.startRecord).memWf = true := by
  grind [State.startRecord, State.setCtx_memWf, State.captureTable_memWf]
theorem execRecordStart_memWf (core : Nat) {s : State} (h : s.memWf = true) :
    outMemWf (execRecordStart core s) = true :=
  State.atCore_memWf core h fun _ => State.startRecord_memWf

@[simp] theorem State.performNext_memWf {s : State} (h : s.memWf = true) : (s.performNext).memWf = true := by
  grind [State.performNext, State.captureTable_memWf, State.unitCells_memWf, State.unitFails_memWf, State.performUnit_memWf,
    State.setCtx_memWf]

theorem execSequencerUnit_memWf (core : Nat) {s : State} (h : s.memWf = true) :
    outMemWf (execSequencerUnit core s) = true :=
  State.atCore_memWf core h fun _ => State.performNext_memWf

@[simp] theorem State.blurHeld_memWf {s : State} (h : s.memWf = true) : (s.blurHeld).memWf = true := by
  grind [State.blurHeld, State.spadPerform_memWf, State.performCells_memWf, State.die_mem_wf, State.host_mem_wf,
    State.memWf_mk, State.cores_spadsWf]

@[simp] theorem State.finishRecord_memWf {s : State} (h : s.memWf = true) : (s.finishRecord).memWf = true := by
  grind [State.finishRecord, State.blurHeld_memWf, State.setCtx_memWf]
theorem execRecordComplete_memWf (core : Nat) {s : State} (h : s.memWf = true) :
    outMemWf (execRecordComplete core s) = true :=
  State.atCore_memWf core h fun _ => State.finishRecord_memWf
@[simp] theorem State.dropGuards_memWf {s : State} (gs : List Held) (h : s.memWf = true) :
    (s.dropGuards gs).memWf = true :=
  foldl_memWf gs h fun _ _ ht => State.dieChange_memWf _ _ _ ht

@[simp] theorem State.uncharge_memWf {s : State} (part region ctxs spad plies : Nat) (h : s.memWf = true) :
    (s.uncharge part region ctxs spad plies).memWf = true := by
  grind [State.uncharge, State.rgnReturn_memWf]

@[simp] theorem Core.handOn_spad (c : Core) (slot : Nat) : (c.handOn slot).spad = c.spad := by
  unfold Core.handOn
  split
  · rfl
  · dsimp only
    split <;> rfl

@[simp] theorem State.endContext_memWf {s : State} (core slot : Nat) (how : How) (cause addr hostCause : Nat)
    (h : s.memWf = true) :
    (s.endContext core slot how cause addr hostCause).1.memWf = true := by
  unfold State.endContext
  extract_lets x
  split
  · exact h
  · have h1 : ((s.writeBackAll core).dropGuards x.guardsHeld).memWf = true :=
      State.dropGuards_memWf _ (State.writeBackAll_memWf _ h)
    refine State.uncharge_memWf _ _ _ _ _ (State.setCore_memWf _ h1 ?_)
    rw [Core.handOn_spad]
    exact State.core_spad_wf core h1

@[simp] theorem State.report_memWf {s : State} (e : Ending) (h : s.memWf = true) : (s.report e).1.memWf = true := by
  grind [State.report, State.rgnCount_memWf, State.walked_memWf, State.noteRead_memWf, State.dieChange_memWf]

@[simp] theorem State.workEnded_memWf {s : State} (e : Ending) (keepRoots : Bool) (h : s.memWf = true) :
    (s.workEnded e keepRoots).1.memWf = true := by
  grind [State.workEnded, State.visitPath_memWf, State.rgnCount_memWf, State.die_mem_wf, State.host_mem_wf, State.report_memWf,
    State.rgnLiveDown_memWf, State.rgnSetField_memWf, State.logFault_memWf, State.launchEnd_memWf, State.memWf_mk,
    State.cores_spadsWf]

@[simp] theorem State.enqueue_memWf {s : State} (slice : Nat) (r : Ready) (h : s.memWf = true) :
    (s.enqueue slice r).memWf = true := by
  simp [State.enqueue, h]

@[simp] theorem State.admitRec_memWf {s : State} (slice part va : Nat) (r : Record) (succ launch : Option Nat)
    (h : s.memWf = true) :
    (s.admitRec slice part va r succ launch).memWf = true := by
  simp [State.admitRec, h]

@[simp] theorem State.workReady_memWf {s : State} (part va : Nat) (cluster : Option Nat) (h : s.memWf = true) :
    (s.workReady part va cluster).1.memWf = true := by
  grind [State.workReady, State.die_mem_wf, State.host_mem_wf, State.visit_memWf, State.admitRec_memWf, State.memWf_mk,
    State.cores_spadsWf]

@[simp] theorem State.killCmds_memWf {s : State} (part : Nat) (inSub : Nat → Bool) (h : s.memWf = true) :
    (s.killCmds part inSub).memWf = true := by
  simp [State.killCmds, h]

@[simp] theorem State.dropSaved_memWf {s : State} (r : Ready) (h : s.memWf = true) : (s.dropSaved r).memWf = true := by
  grind [State.dropSaved, State.uncharge_memWf, State.dropGuards_memWf]

@[simp] theorem State.putPart_memWf {s : State} (g : Gang) (p q : GangPart) (h : s.memWf = true) :
    (s.putPart g p q).memWf = true := by
  simp [State.putPart, h]

@[simp] theorem State.unreserve_memWf {s : State} (core slot : Nat) (h : s.memWf = true) :
    (s.unreserve core slot).memWf = true := by
  unfold State.unreserve
  split
  · exact h
  · exact State.uncharge_memWf _ _ _ _ _ (State.setCore_memWf _ h (by rw [Core.handOn_spad]; exact State.core_spad_wf _ h))

@[simp] theorem State.killAt_memWf {s : State} (core slot : Nat) (atOnce : Bool) (issuer : Option (Nat × Nat)) (hostCause : Nat)
    (h : s.memWf = true) :
    (s.killAt core slot atOnce issuer hostCause).1.memWf = true := by
  grind [State.killAt, State.unreserve_memWf, State.putPart_memWf, State.endContext_memWf, State.rgnLiveUp_memWf,
    State.core_spad_wf, State.setCtxAt_memWf]

/-- A fold that gathers something beside the state keeps the canonical form where each step does. -/
theorem memWf_of_foldl_eq {α β : Type} {f : State × β → α → State × β} {s t : State} {b c : β} {l : List α}
    (e : l.foldl f (s, b) = (t, c)) (h : s.memWf = true) (hf : ∀ q x, q.1.memWf = true → (f q x).1.memWf = true) :
    t.memWf = true := by
  induction l generalizing s b with
  | nil =>
    cases e
    exact h
  | cons x xs ih => exact ih e (hf (s, b) x h)

@[simp] theorem State.workKill_memWf {s : State} (part region : Nat) (faultedRoot keepRoots : Bool) (issuer : Option (Nat × Nat))
    (hostCause : Nat) (h : s.memWf = true) : (s.workKill part region faultedRoot keepRoots issuer hostCause).1.memWf = true := by
  unfold State.workKill
  extract_lets subs hit s1 gone succOf s2 d s3 w1 out stay queued listed d' s4 s5 w2 places
  have h1 : s1.memWf = true := foldl_memWf _ h fun t i ht => by
    split
    · exact ht
    · exact State.rgnSetField_memWf _ _ _ _ ht
  have h2 : s2.memWf = true := foldl_memWf _ h1 fun t x ht => by
    have hv : (if x.succ.isNone then t.visit part x.record 32 else t).memWf = true := by
      split
      · exact State.visit_memWf _ _ _ ht
      · exact ht
    dsimp only
    split
    · exact State.dieChange_memWf _ _ _ (State.walked_memWf _ _ _ hv)
    · exact hv
  have h4 : s4.memWf = true := by
    obtain ⟨hd, hh, hc⟩ := State.memWf_iff.1 h2
    exact State.memWf_iff.2 ⟨hd, hh, spadsWf_map (fun _ => rfl) hc⟩
  have h5 : s5.memWf = true := foldl_memWf _ h4 fun t r ht => State.dropSaved_memWf r ht
  split
  rename_i s6 w3 heq
  have h6 : s6.memWf = true := memWf_of_foldl_eq heq h5 fun q p hq => State.killAt_memWf p.1 p.2 keepRoots issuer hostCause hq
  extract_lets s7 s8
  exact foldl_memWf _ (State.killCmds_memWf _ _ h6) fun t i ht => by
    split
    · exact State.rgnFree_memWf _ _ ht
    · exact ht

theorem State.settleWith_memWf (hostCause : Nat) (keepRoots : Bool) {s : State} (k : Nat) (ws : List Work)
    (h : s.memWf = true) :
    (State.settleWith hostCause keepRoots k ws s).memWf = true := by
  induction k generalizing s ws with
  | zero => exact h
  | succ k ih =>
    cases ws with
    | nil => exact h
    | cons w ws =>
      refine ih _ ?_
      cases w with
      | ended e => exact State.workEnded_memWf e keepRoots h
      | ready p va c => exact State.workReady_memWf p va c h
      | kill p i f o => exact State.workKill_memWf p i f keepRoots o hostCause h

@[simp] theorem State.settle_memWf {s : State} (ws : List Work) (h : s.memWf = true) : (s.settle ws).memWf = true :=
  State.settleWith_memWf _ _ _ _ h

@[simp] theorem State.handOver_memWf {s : State} (part va : Nat) (r : Record) (succ issuer launch slice : Option Nat) (cluster : Option Nat)
    (h : s.memWf = true) :
    (s.handOver part va r succ issuer launch slice cluster).memWf = true := by
  grind [State.handOver, State.rgnLiveUp_memWf, State.die_mem_wf, State.host_mem_wf, State.dieChange_memWf, State.walked_memWf,
    State.admitRec_memWf, State.memWf_mk, State.cores_spadsWf]

@[simp] theorem State.blockPlace_memWf {s : State} (v : Word) (align bad : Nat) (h : s.memWf = true) :
    (s.blockPlace v align bad).2.memWf = true := by
  grind [State.blockPlace, State.translate_memWf]

@[simp] theorem State.blockWrite_memWf {s : State} (va : Nat) (h : s.memWf = true) :
    (s.blockWrite va).2.memWf = true := by
  grind [State.blockWrite, State.translate_memWf]

@[simp] theorem State.blockRw_memWf {s : State} (v : Word) (align bad : Nat) (h : s.memWf = true) :
    (s.blockRw v align bad).2.memWf = true := by
  grind [State.blockRw, State.blockPlace_memWf, State.blockWrite_memWf]

@[simp] theorem State.storesOut_memWf {s : State} (h : s.memWf = true) : (s.storesOut).memWf = true := by
  simp [State.storesOut, h]

/-- The write check of a record that is to be handed over, which one that is ready at once does not need. -/
theorem State.writeCheck_memWf {s : State} (c : Prop) [Decidable c] (va : Nat) (h : s.memWf = true) :
    (if c then (none, s) else s.blockWrite va : Option Trap × State).2.memWf = true := by
  split
  · exact h
  · exact State.blockWrite_memWf va h

@[simp] theorem State.spawnRecord_memWf {s : State} (st : Nat) (w : Ins) (a : Word) (slice : Option Nat)
    (h : s.memWf = true) :
    (s.spawnRecord st w a slice).memWf = true := by
  have hb := State.blockPlace_memWf a 32 causeContinuation h
  unfold State.spawnRecord
  split <;> rename_i s1 heq <;> replace hb := memWf_of_eq_pair hb heq
  · exact hb
  · have h1 := fun pa => State.noteRead_memWf (s := s1.storesOut) pa 32 (State.storesOut_memWf hb)
    dsimp only
    split
    · exact h1 _
    · split
      · exact h1 _
      · split <;> rename_i s2 heq2 <;> have hw := memWf_of_eq_pair (State.writeCheck_memWf _ _ (h1 _)) heq2
        · exact hw
        · exact State.handOver_memWf _ _ _ _ _ _ _ _ hw

theorem execSpawn_memWf (w : Ins) {s : State} (h : s.memWf = true) : outMemWf (execSpawn w s) = true :=
  State.run_memWf h (State.spawnRecord_memWf _ _ _ _ h)
theorem execEnq_memWf (w : Ins) {s : State} (h : s.memWf = true) : outMemWf (execEnq w s) = true :=
  State.run_memWf h (by grind [IssueRes.memWf, State.spawnRecord_memWf])

theorem execSpawnj_memWf (w : Ins) {s : State} (h : s.memWf = true) : outMemWf (execSpawnj w s) = true :=
  State.run_memWf h (by
    dsimp only
    split <;> rename_i s1 heq <;> have h1 := memWf_of_eq_pair (State.blockPlace_memWf _ _ _ h) heq
    · exact h1
    · split <;> rename_i s2 heq2 <;> have h2 := memWf_of_eq_pair (State.blockRw_memWf _ _ _ h1) heq2
      · exact h2
      · replace h2 := fun pa => State.noteRead_memWf (s := s2.storesOut) pa 32 (State.storesOut_memWf h2)
        split
        · exact h2 _
        · split
          · exact State.noteRead_memWf _ _ (h2 _)
          · split
            · exact h2 _
            · split <;> rename_i s3 heq3 <;> have h3 := memWf_of_eq_pair (State.writeCheck_memWf _ _ (h2 _)) heq3
              · exact h3
              · exact State.handOver_memWf _ _ _ _ _ _ _ _ (State.dieChange_memWf _ _ _ h3))

theorem execSigj_memWf (w : Ins) {s : State} (h : s.memWf = true) : outMemWf (execSigj w s) = true :=
  State.run_memWf h (by grind [IssueRes.memWf, State.blockRw_memWf, State.storesOut_memWf, State.noteRead_memWf, State.report_memWf,
      State.settle_memWf])

theorem execJstat_memWf (w : Ins) {s : State} (h : s.memWf = true) : outMemWf (execJstat w s) = true :=
  State.run_memWf h (by grind [IssueRes.memWf, State.blockPlace_memWf, State.noteRead_memWf])
theorem execYield_memWf (w : Ins) {s : State} (h : s.memWf = true) : outMemWf (execYield w s) = true :=
  State.run_memWf h (by grind [IssueRes.memWf, State.here_spad_wf, State.setCtx_memWf])
theorem execRgnnew_memWf (w : Ins) {s : State} (h : s.memWf = true) : outMemWf (execRgnnew w s) = true :=
  State.run_memWf h (by grind [IssueRes.memWf, State.blockRw_memWf, State.noteRead_memWf])

@[simp] theorem State.regionNew_memWf {s : State} (part rcb parent : Nat) (h : s.memWf = true) :
    (s.regionNew part rcb parent).2.memWf = true := by
  unfold State.regionNew
  split
  · exact h
  · extract_lets s2
    have h2 : s2.memWf = true :=
      foldl_memWf _ (State.rgnOpen_memWf _ _ _ h) fun _ _ ht => State.rgnSetField_memWf _ _ _ _ ht
    dsimp only
    exact State.rgnSetField_memWf _ _ _ _ (State.rgnSetField_memWf _ _ _ _ h2)

theorem execRgnset_memWf (w : Ins) {s : State} (h : s.memWf = true) : outMemWf (execRgnset w s) = true :=
  State.run_memWf h (by grind [IssueRes.memWf, State.visitPath_memWf])

@[simp] theorem State.regionSet_memWf {s : State} (part i off v : Nat) (h : s.memWf = true) :
    (s.regionSet part i off v).memWf = true := by
  grind [State.regionSet, State.rgnSetField_memWf]

@[simp] theorem State.rgnNote_memWf {s : State} (i : Nat) (f : RcbField) (eff : Bool) (h : s.memWf = true) :
    (s.rgnNote i f eff).memWf = true := by
  simp [State.rgnNote, h]

theorem execRgnget_memWf (w : Ins) {s : State} (h : s.memWf = true) : outMemWf (execRgnget w s) = true :=
  State.run_memWf h (by grind [IssueRes.memWf, State.rgnNote_memWf])
theorem execRgnkill_memWf (w : Ins) {s : State} (h : s.memWf = true) : outMemWf (execRgnkill w s) = true :=
  State.run_memWf h (by grind [IssueRes.memWf])
@[simp] theorem State.regionKill_memWf {s : State} (part i : Nat) (h : s.memWf = true) :
    (s.regionKill part i).memWf = true := by
  simp [State.regionKill, h]
@[simp] theorem State.setProxy_memWf {s : State} (x : Proxy) (h : s.memWf = true) : (s.setProxy x).memWf = true := by
  simp [State.setProxy, h]

@[simp] theorem State.pushEntry_memWf {s : State} (desc pa at_ entry : Nat) (h : s.memWf = true) :
    (s.pushEntry desc pa at_ entry).memWf = true := by
  grind [State.pushEntry, State.diePut_memWf, State.setProxy_memWf]

theorem execPxpush_memWf (w : Ins) {s : State} (h : s.memWf = true) : outMemWf (execPxpush w s) = true :=
  State.run_memWf h (by
    dsimp only
    split <;> rename_i s1 heq <;> have h1 := memWf_of_eq_pair (State.blockRw_memWf _ _ _ h) heq
    · exact h1
    · replace h1 := fun pa => State.noteRead_memWf (s := s1.storesOut) pa 64 (State.storesOut_memWf h1)
      split
      · exact h1 _
      · split
        · exact h1 _
        · split
          · exact h1 _
          · split <;> rename_i s2 heq2 <;> have h2 := memWf_of_eq_pair (State.translate_memWf _ _ _ _ (h1 _)) heq2
            · exact h2
            · split
              · exact h2
              · exact State.pushEntry_memWf _ _ _ _ h2)

theorem execPxflush_memWf (w : Ins) {s : State} (h : s.memWf = true) : outMemWf (execPxflush w s) = true :=
  State.run_memWf h (by
    dsimp only
    split <;> rename_i s1 heq <;> have h1 := memWf_of_eq_pair (State.blockPlace_memWf _ _ _ h) heq
    · exact h1
    · replace h1 := fun pa => State.noteRead_memWf (s := s1.storesOut) pa 64 (State.storesOut_memWf h1)
      split
      · exact h1 _
      · exact State.setProxy_memWf _ (h1 _))

end Sys2Proof.Machine
end

section
/-! SUPPORT. The retrieval instructions, and what lands at the start of a cycle, keep every memory in canonical form. -/

namespace Sys2Proof.Machine
open Sys2Proof

@[simp] theorem State.setRetr_memWf {s : State} (r : Retr) (h : s.memWf = true) : (s.setRetr r).memWf = true := by
  simp [State.setRetr, h]
@[simp] theorem State.setIdx_memWf {s : State} (h : Nat) (x : Index) (hs : s.memWf = true) :
    (s.setIdx h x).memWf = true := by
  simp [State.setIdx, hs]
@[simp] theorem State.idxCount_memWf {s : State} (h i n : Nat) (hs : s.memWf = true) :
    (s.idxCount h i n).memWf = true := by
  grind [State.idxCount, State.setIdx_memWf]
@[simp] theorem State.setCmd_memWf {s : State} (c : RetrCmd) (h : s.memWf = true) : (s.setCmd c).memWf = true := by
  simp [State.setCmd, h]

@[simp] theorem State.endCmd_memWf {s : State} (uid status gen aux : Nat) (h : s.memWf = true) :
    (s.endCmd uid status gen aux).memWf = true := by
  grind [State.endCmd, State.setCmd_memWf, State.idxCount_memWf]

@[simp] theorem State.traceEvent_memWf {s : State} (h event ctl level seq v : Nat) (hs : s.memWf = true) :
    (s.traceEvent h event ctl level seq v).memWf = true := by
  grind [State.traceEvent, State.visit_memWf, State.vaPut_memWf]

@[simp] theorem State.takePages_memWf {s : State} (n : Nat) (h : s.memWf = true) : (s.takePages n).2.memWf = true := by
  simp [State.takePages, h]

@[simp] theorem State.askPage_memWf {s : State} (h version : Nat) (pocket : Pocket) (page : Nat) (cmds : List Nat)
    (hs : s.memWf = true) :
    (s.askPage h version pocket page cmds).memWf = true := by
  grind [State.askPage, State.idxCount_memWf, State.setRetr_memWf]

@[simp] theorem State.joinPocket_memWf {s : State} (h version uid : Nat) (pocket : Pocket) (batchUs : Nat)
    (hs : s.memWf = true) :
    (s.joinPocket h version uid pocket batchUs).memWf = true := by
  simp [State.joinPocket, hs]

@[simp] theorem State.endQuery_memWf {s : State} (c : RetrCmd) (q : Query) (h : s.memWf = true) :
    (s.endQuery c q).memWf = true :=
  State.endCmd_memWf _ _ _ _ (foldl_memWf _ h fun _ _ ht => State.dieWrite_memWf _ ht)

@[simp] theorem State.askLog_memWf {s : State} (c : RetrCmd) (version : Nat) (page : Nat × Nat) (h : s.memWf = true) :
    (s.askLog c version page).memWf = true := by
  simp [State.askLog, h]

@[simp] theorem State.goOn_memWf {s : State} (uid : Nat) (h : s.memWf = true) : (s.goOn uid).memWf = true := by
  unfold State.goOn
  split
  · exact h
  · split
    · extract_lets v
      split
      · exact State.endCmd_memWf _ _ _ _ h
      · split
        · exact State.askLog_memWf _ _ _ h
        · split
          extract_lets s0 s1
          have h0 : s0.memWf = true := foldl_memWf _ h fun _ _ ht => State.noteRead_memWf _ _ ht
          have h1 : s1.memWf = true := State.idxCount_memWf _ _ _ (State.setCmd_memWf _ h0)
          split
          · exact State.endQuery_memWf _ _ h1
          · exact State.joinPocket_memWf _ _ _ _ _ h1
    · exact h

@[simp] theorem State.ctlPlace_memWf {s : State} (part va : Nat) (acc : Acc) (h : s.memWf = true) :
    (s.ctlPlace part va acc).2.memWf = true := by
  grind [State.ctlPlace, State.translateDie_memWf]

@[simp] theorem State.ctlRead_memWf {s : State} (part va f n : Nat) (h : s.memWf = true) :
    (s.ctlRead part va f n).2.memWf = true := by
  induction f generalizing s va n with
  | zero => exact h
  | succ f ih => grind [State.ctlRead, State.ctlPlace_memWf, State.dieRead_memWf]

@[simp] theorem State.outPlaces_memWf {s : State} (part out k j : Nat) (h : s.memWf = true) :
    (s.outPlaces part out k j).2.memWf = true := by
  induction k generalizing s j with
  | zero => exact h
  | succ k ih => grind [State.outPlaces, State.ctlPlace_memWf]

@[simp] theorem State.cmdVector_memWf {s : State} (part : Nat) (x : Index) (va : Nat) (h : s.memWf = true) :
    (s.cmdVector part x va).2.memWf = true := by
  grind [State.cmdVector, State.ctlRead_memWf]

@[simp] theorem State.failCmd_memWf {s : State} (c : RetrCmd) (d : Nat) (e : CtlFail) (gen : Nat) (h : s.memWf = true) :
    (s.failCmd c d e gen).2.memWf = true := State.endCmd_memWf _ _ _ _ h

@[simp] theorem State.acceptSrch_memWf {s : State} (c : RetrCmd) (b : CmdBlock) (x : Index) (h : s.memWf = true) :
    (s.acceptSrch c b x).2.memWf = true := by
  grind [State.acceptSrch, State.cmdVector_memWf, State.outPlaces_memWf, State.failCmd_memWf, State.setCmd_memWf,
    State.goOn_memWf]

@[simp] theorem State.acceptAppend_memWf {s : State} (c : RetrCmd) (b : CmdBlock) (x : Index) (h : s.memWf = true) :
    (s.acceptAppend c b x).2.memWf = true := by
  grind [State.acceptAppend, State.cmdVector_memWf, State.failCmd_memWf, State.takePages_memWf, State.setIdx_memWf,
    State.setCmd_memWf]

@[simp] theorem State.askObject_memWf {s : State} (c : RetrCmd) (fpns : List Nat) (h : s.memWf = true) :
    (s.askObject c fpns).memWf = true := by
  simp [State.askObject, h]

@[simp] theorem State.entryPlace_memWf {s : State} (part va : Nat) (h : s.memWf = true) :
    (s.entryPlace part va).2.memWf = true := by
  grind [State.entryPlace, State.ctlPlace_memWf]

@[simp] theorem State.acceptKvf_memWf {s : State} (c : RetrCmd) (b : CmdBlock) (x : Index) (h : s.memWf = true) :
    (s.acceptKvf c b x).2.memWf = true := by
  have hp := State.entryPlace_memWf c.part b.table h
  unfold State.acceptKvf
  split <;> rename_i s1 heq <;> replace hp := memWf_of_eq_pair hp heq
  · exact State.failCmd_memWf _ _ _ _ hp
  · split
    · exact State.failCmd_memWf _ _ _ _ hp
    · split
      · exact State.failCmd_memWf _ _ _ _ hp
      · exact State.askObject_memWf _ _ (State.setCmd_memWf _ (State.diePut_memWf _ _ _
          (State.dieNat_memWf _ _ (State.dieNat_memWf _ _ hp))))

@[simp] theorem State.acceptDarn_memWf {s : State} (c : RetrCmd) (b : CmdBlock) (x : Index) (h : s.memWf = true) :
    (s.acceptDarn c b x).2.memWf = true := by
  grind [State.acceptDarn, State.setIdx_memWf, State.endCmd_memWf]

@[simp] theorem State.acceptCmd_memWf {s : State} (c : RetrCmd) (h : s.memWf = true) :
    (s.acceptCmd c).2.memWf = true := by
  grind [State.acceptCmd, State.dieRead_memWf, State.setCmd_memWf, State.failCmd_memWf, State.acceptSrch_memWf,
    State.acceptAppend_memWf, State.acceptKvf_memWf, State.acceptDarn_memWf]

@[simp] theorem State.resolveCmd_memWf {s : State} (uid d : Nat) (h : s.memWf = true) :
    (s.resolveCmd uid d).memWf = true := by
  obtain ⟨hd, hh, hc⟩ := State.memWf_iff.1 h
  exact State.memWf_iff.2 ⟨hd, hh, spadsWf_map (fun _ => rfl) hc⟩

@[simp] theorem State.accept_memWf {s : State} (uid : Nat) (h : s.memWf = true) : (s.accept uid).memWf = true := by
  unfold State.accept
  split
  · exact h
  · exact State.resolveCmd_memWf _ _ (State.acceptCmd_memWf _ h)

theorem execCommandAccept_memWf {s : State} (h : s.memWf = true) : outMemWf (execCommandAccept s) = true := by
  grind [execCommandAccept, outMemWf, State.accept_memWf]
@[simp] theorem State.retrPlace_memWf {s : State} (v : Word) (h : s.memWf = true) : (s.retrPlace v).2.memWf = true := by
  grind [State.retrPlace, State.translate_memWf]

theorem State.retrieve_memWf {s : State} (i : Instr) (w : Ins) (op : Nat) (h : s.memWf = true) :
    outMemWf (s.retrieve i w op) = true :=
  State.issue_memWf h (by grind [IssueRes.memWf, State.retrPlace_memWf, State.noteRead_memWf, State.writeBackAll_memWf,
    State.forceStores_memWf,
      State.setCtx_memWf, State.setRetr_memWf])

theorem State.popRing_memWf {s t : State} {pa a : Nat} (h : s.memWf = true) (e : s.popRing pa = some (a, t)) :
    t.memWf = true := by
  unfold State.popRing at e
  dsimp only at e
  split at e
  · obtain ⟨-, rfl⟩ := Prod.mk.inj (Option.some.inj e)
    exact State.markStale_memWf _ (State.diePut_memWf _ _ _ h)
  · nomatch e

theorem execRpop_memWf (w : Ins) {s : State} (h : s.memWf = true) : outMemWf (execRpop w s) = true :=
  State.run_memWf h (by
    dsimp only
    split <;> rename_i s1 heq <;> have h1 := memWf_of_eq_pair (State.retrPlace_memWf _ h) heq
    · exact h1
    · replace h1 := fun pa => State.noteRead_memWf pa 64 h1
      split
      · exact h1 _
      · split
        · next e => exact State.popRing_memWf (h1 _) e
        · split
          · exact h1 _
          · split <;> exact h1 _)

theorem execRstat_memWf (w : Ins) {s : State} (h : s.memWf = true) : outMemWf (execRstat w s) = true :=
  State.run_memWf h (by grind [IssueRes.memWf])
theorem execGenq_memWf (w : Ins) {s : State} (h : s.memWf = true) : outMemWf (execGenq w s) = true :=
  State.run_memWf h (by grind [IssueRes.memWf])
@[simp] theorem State.landUnlock_memWf {s : State} (off : Nat) (h : s.memWf = true) :
    (s.landUnlock off).memWf = true := by
  grind [State.landUnlock, State.setCtx_memWf, State.setHere_memWf, State.here_spad_wf, State.core_spad_wf]

@[simp] theorem State.landAcquired_memWf {s : State} (va pa : Nat) (excl : Bool) (dst : Option Target) (version : Nat)
    (h : s.memWf = true) :
    (s.landAcquired va pa excl dst version).memWf = true := by
  simp [State.landAcquired, h]

@[simp] theorem State.finishAcquire_memWf {s : State} (f : Flight) (h : s.memWf = true) :
    (s.finishAcquire f).memWf = true := by
  grind [State.finishAcquire, State.landAcquired_memWf, State.setCtx_memWf]
@[simp] theorem State.landRelease_memWf {s : State} (pa : Nat) (h : s.memWf = true) :
    (s.landRelease pa).memWf = true := by
  grind [State.landRelease, State.finishAcquire_memWf, State.releaseGuard_memWf]
@[simp] theorem State.performDevice_memWf {s : State} (f : Flight) (h : s.memWf = true) :
    (s.performDevice f).memWf = true := by
  grind [State.performDevice, State.devRead_memWf, State.setCtx_memWf, State.devWrite_memWf]
@[simp] theorem State.deviceUpTo_memWf {s : State} (st seq : Nat) (h : s.memWf = true) :
    (s.deviceUpTo st seq).memWf = true :=
  foldl_memWf _ h fun _ f ht => State.performDevice_memWf f ht
@[simp] theorem State.frameForgets_memWf {s : State} (h : s.memWf = true) : (s.frameForgets).memWf = true := by
  grind [State.frameForgets, State.storeCells_memWf, State.performCells_memWf]
@[simp] theorem State.withdrawWaits_memWf {s : State} (h : s.memWf = true) : (s.withdrawWaits).memWf = true := by
  simp [State.withdrawWaits, h]

@[simp] theorem State.reenter_memWf {s : State} (core slot : Nat) (h : s.memWf = true) :
    (s.reenter core slot).memWf = true :=
  foldl_memWf _ (State.setCore_memWf core h (State.core_spad_wf core h)) fun t f ht => by
    split
    · dsimp only
      split
      · exact ht
      · exact ht
    · exact ht

@[simp] theorem State.carryGuard_memWf {s : State} (f : Flight) (h : s.memWf = true) :
    (s.carryGuard f).memWf = true := by
  grind [State.carryGuard, State.setCtx_memWf, State.landRelease_memWf, State.finishAcquire_memWf]
@[simp] theorem State.carryRetrieval_memWf {s : State} (f : Flight) (h : s.memWf = true) :
    (s.carryRetrieval f).memWf = true := by
  grind [State.carryRetrieval, State.accept_memWf]
@[simp] theorem State.carryFlush_memWf {s : State} (f : Flight) (h : s.memWf = true) :
    (s.carryFlush f).memWf = true := by
  grind [State.carryFlush, State.dropCaptures_memWf, State.setCtx_memWf]

@[simp] theorem State.carry_memWf {s : State} (h : s.memWf = true) : s.carry.memWf = true := by
  unfold State.carry
  extract_lets s1 s2 s3 s4
  have h1 : s1.memWf = true := State.forceStores_memWf _ (State.withdrawWaits_memWf h)
  have h2 : s2.memWf = true := foldl_memWf _ h1 fun _ f ht => State.carryGuard_memWf f ht
  have h3 : s3.memWf = true := foldl_memWf _ h2 fun _ f ht => State.carryRetrieval_memWf f ht
  have h4 : s4.memWf = true := foldl_memWf _ h3 fun _ f ht => by
    split
    · exact State.performDevice_memWf f ht
    · exact ht
  exact foldl_memWf _ h4 fun _ f ht => State.carryFlush_memWf f ht

@[simp] theorem State.ownKill_memWf {s : State} (subs : List Nat) (h : s.memWf = true) :
    (s.ownKill subs).memWf = true := by
  grind [State.ownKill, State.endContext_memWf, State.carry_memWf, State.here_spad_wf, State.settle_memWf]

@[simp] theorem State.landCommand_memWf {s : State} (c : Command) (h : s.memWf = true) :
    (s.landCommand c).memWf = true := by
  unfold State.landCommand
  split
  · exact State.landAcquired_memWf _ _ _ _ _ h
  · exact State.landRelease_memWf _ h
  · exact State.landUnlock_memWf _ h
  · split
    rename_i s1 heq
    have h1 := memWf_of_eq_pair (State.regionNew_memWf _ _ _ h) heq
    dsimp only
    split
    · exact State.setCtx_memWf _ h1
    · exact h1
  · exact State.regionKill_memWf _ _ h
  · exact State.ownKill_memWf _ h
  · exact State.regionSet_memWf _ _ _ _ h
  · exact State.setCtx_memWf _ h
  · exact State.setCtx_memWf _ h
  · exact State.setCtx_memWf _ h
  · extract_lets s1
    have h1 : s1.memWf = true := State.setCtx_memWf _ h
    split
    · exact State.frameForgets_memWf h1
    · exact h1
  · exact State.setCtx_memWf _ h
  · exact State.setCtx_memWf _ h
  · exact State.dropCaptures_memWf _ _ _ _ h
  · exact h

@[simp] theorem State.landPosts_memWf {s : State} (n : Nat) (ps : List Flight) (h : s.memWf = true) :
    (s.landPosts n ps).memWf = true := by
  grind [State.landPosts, State.setCtx_memWf, State.addFault_memWf]

@[simp] theorem State.landFlight_memWf {s : State} (f : Flight) (h : s.memWf = true) :
    (s.landFlight f).memWf = true := by
  grind [State.landFlight, State.setCtx_memWf, State.landStore_memWf, State.landPosts_memWf, State.landCommand_memWf]

@[simp] theorem State.landAll_memWf {s : State} (sel : State → Flight → Bool) (k : Nat) (h : s.memWf = true) :
    (s.landAll sel k).memWf = true := by
  induction k generalizing s with
  | zero => exact h
  | succ k ih => grind [State.landAll, State.landFlight_memWf, State.deviceUpTo_memWf]

@[simp] theorem State.landDuePosts_memWf {s : State} (sel : State → Flight → Bool) (h : s.memWf = true) :
    (s.landDuePosts sel).memWf = true :=
  foldl_memWf _ h fun t n ht => by
    dsimp only
    split
    · exact ht
    · exact State.landPosts_memWf _ _ (State.setCtx_memWf _ ht)

@[simp] theorem State.retryLock_memWf {s : State} (st : Nat) (h : s.memWf = true) : (s.retryLock st).memWf = true := by
  grind [State.retryLock, State.here_spad_wf, State.setCtx_memWf, State.askBanks_memWf, State.setHere_memWf, State.core_spad_wf]

theorem execLockRetry_memWf (core stream : Nat) {s : State} (h : s.memWf = true) :
    outMemWf (execLockRetry core stream s) = true := by
  grind [execLockRetry, outMemWf, State.atCore_memWf, State.retryLock_memWf]

@[simp] theorem State.retryPop_memWf {s : State} (f : Flight) (h : s.memWf = true) : (s.retryPop f).memWf = true := by
  unfold State.retryPop
  split
  · split
    · next e =>
      refine State.setCtx_memWf _ (State.popRing_memWf ?_ e)
      split
      · exact State.noteRead_memWf _ _ h
      · exact h
    · exact h
  · exact h

@[simp] theorem State.retryPops_memWf {s : State} (h : s.memWf = true) : s.retryPops.memWf = true :=
  foldl_memWf _ h fun _ f ht => State.retryPop_memWf f ht

@[simp] theorem State.retryPush_memWf {s : State} (f : Flight) (h : s.memWf = true) : (s.retryPush f).memWf = true := by
  unfold State.retryPush
  split
  · split
    · exact h
    · extract_lets va
      split <;> rename_i s1 heq <;> have h1 := memWf_of_eq_pair (State.translate_memWf _ _ _ _ h) heq
      · exact State.addFault_memWf _ (State.setCtx_memWf _ h1)
      · refine State.setCtx_memWf _ ?_
        split
        · exact State.pushEntry_memWf _ _ _ _ h1
        · exact State.addFault_memWf _ h1
  · exact h

@[simp] theorem State.retryPushes_memWf {s : State} (h : s.memWf = true) : s.retryPushes.memWf = true :=
  foldl_memWf _ h fun _ f ht => State.retryPush_memWf f ht
@[simp] theorem State.startKill_memWf {s : State} (f : Flight) (h : s.memWf = true) : (s.startKill f).memWf = true := by
  grind [State.startKill, State.landCommand_memWf, State.setCtx_memWf]
@[simp] theorem State.startKills_memWf {s : State} (h : s.memWf = true) : s.startKills.memWf = true :=
  foldl_memWf _ h fun _ f ht => State.startKill_memWf f ht
theorem execMatrixStep_memWf (core : Nat) {s : State} (h : s.memWf = true) :
    outMemWf (execMatrixStep core s) = true := by
  grind [execMatrixStep, outMemWf, State.atCore_memWf, State.setCtx_memWf]
@[simp] theorem State.retryWaits_memWf {s : State} (h : s.memWf = true) : (s.retryWaits).memWf = true := by
  grind [State.retryWaits, State.startKills_memWf, State.retryPushes_memWf, State.retryPops_memWf, State.retryLock_memWf]
@[simp] theorem State.landDueNow_memWf {s : State} (h : s.memWf = true) : (s.landDueNow).memWf = true := by
  simp [State.landDueNow, h]
@[simp] theorem State.landNow_memWf {s : State} (h : s.memWf = true) : (s.landNow).memWf = true := by
  grind [State.landNow, State.landDueNow_memWf, State.retryWaits_memWf, State.setCtx_memWf]
theorem execResultLand_memWf (core : Nat) {s : State} (h : s.memWf = true) :
    outMemWf (execResultLand core s) = true := by
  grind [execResultLand, outMemWf, State.atCore_memWf, State.here_spad_wf, State.landNow_memWf]

@[simp] theorem State.performEngine_memWf {s : State} (f : Flight) (h : s.memWf = true) :
    (s.performEngine f).memWf = true := by
  grind [State.performEngine, State.accept_memWf, State.performDevice_memWf, State.startKill_memWf, State.setCtx_memWf,
    State.landCommand_memWf]

theorem execFence_memWf (w : Ins) {s : State} (h : s.memWf = true) : outMemWf (execFence w s) = true :=
  State.issue_memWf h (by
    extract_lets scope s0 s1 s2
    have h1 : s1.memWf = true := State.forceStores_memWf _ (foldl_memWf _ h fun _ f ht => State.performEngine_memWf f ht)
    change s2.memWf = true
    grind [State.writeBackAll_memWf, State.markStale_memWf])

end Sys2Proof.Machine
end

section
/-! SUPPORT. Instruction fetch, frames, traps, saved contexts, placement, gangs and the packets of queues keep every memory in canonical
form. -/

namespace Sys2Proof.Machine
open Sys2Proof

@[simp] theorem State.codeBytes_memWf {s : State} (core asn va n : Nat) (h : s.memWf = true) :
    (s.codeBytes core asn va n).2.memWf = true := by
  grind [State.codeBytes, State.translate_memWf, State.dieRead_memWf, State.die_mem_wf]

@[simp] theorem State.fillCapture_memWf {s : State} (vline : Nat) (h : s.memWf = true) :
    (s.fillCapture vline).memWf = true := by
  grind [State.fillCapture, State.codeBytes_memWf, State.here_spad_wf, State.setHere_memWf, State.core_spad_wf]
@[simp] theorem State.fetch_memWf {s : State} (pc : Nat) (h : s.memWf = true) : (s.fetch pc).2.memWf = true := by
  grind [State.fetch, State.here_spad_wf, State.fillCapture_memWf, State.codeBytes_memWf]

@[simp] theorem State.endRunning_memWf {s : State} (how : How) (cause addr : Nat) (h : s.memWf = true) :
    (s.endRunning how cause addr).memWf = true := by
  simp [State.endRunning, h]

@[simp] theorem State.endFaulted_memWf {s : State} (f : Fault1) (h : s.memWf = true) :
    (s.endFaulted f).memWf = true := by
  simp [State.endFaulted, h]
@[simp] theorem State.landDue_memWf {s : State} (h : s.memWf = true) : (s.landDue).memWf = true := by
  simp [State.landDue, h]
@[simp] theorem State.drain_memWf {s : State} (h : s.memWf = true) : (s.drain).memWf = true := by
  simp [State.drain, h]

@[simp] theorem State.blurFrame_memWf {s : State} (va : Nat) (bs : List Byte) (h : s.memWf = true) :
    (s.blurFrame va bs).memWf = true :=
  foldl_memWf _ h fun t k ht => by
    dsimp only
    split <;> rename_i s1 heq <;> have h1 := memWf_of_eq_pair (State.translate_memWf _ _ _ _ ht) heq
    · exact h1
    · split
      · exact h1
      · exact foldl_memWf _ h1 fun _ _ hu => State.performCells_memWf _ _ _ _ hu

@[simp] theorem State.writeFrame_memWf {s : State} (va : Nat) (bs : List Byte) (h : s.memWf = true) :
    (s.writeFrame va bs).2.memWf = true := by
  grind [State.writeFrame, State.translateRange_memWf, State.blurFrame_memWf, State.performCells_memWf]

@[simp] theorem State.enter_memWf {s : State} (f : Fault1) (h : s.memWf = true) : (s.enter f).memWf = true := by
  grind [State.enter, State.setCtx_memWf, State.writeFrame_memWf, State.endFaulted_memWf, State.setHere_memWf,
    State.here_spad_wf, State.core_spad_wf]

@[simp] theorem State.takeTrap_memWf {s : State} (h : s.memWf = true) : (s.takeTrap).memWf = true := by
  grind [State.takeTrap, State.landDue_memWf, State.endFaulted_memWf, State.carry_memWf, State.drain_memWf, State.enter_memWf]
theorem execTrapEntry_memWf (core : Nat) {s : State} (h : s.memWf = true) : outMemWf (execTrapEntry core s) = true := by
  grind [execTrapEntry, outMemWf, State.atCore_memWf, State.takeTrap_memWf]
@[simp] theorem State.fireTimer_memWf {s : State} (h : s.memWf = true) : (s.fireTimer).memWf = true := by
  simp [State.fireTimer, h]
theorem execTimerFire_memWf (core : Nat) {s : State} (h : s.memWf = true) : outMemWf (execTimerFire core s) = true := by
  grind [execTimerFire, outMemWf, State.atCore_memWf, State.fireTimer_memWf]

@[simp] theorem State.passBarrier_memWf {s : State} (h : s.memWf = true) : s.passBarrier.memWf = true := by
  unfold State.passBarrier
  split
  · exact h
  · exact foldl_memWf _ (State.setCtx_memWf _ h) fun _ _ ht => profileHook_memWf _ _ (State.setCtx_memWf _ ht)

theorem execModeBarrierPass_memWf (core : Nat) {s : State} (h : s.memWf = true) :
    outMemWf (execModeBarrierPass core s) = true := by
  grind [execModeBarrierPass, outMemWf, State.atCore_memWf, State.passBarrier_memWf]

@[simp] theorem State.complete_memWf {s : State} (h : s.memWf = true) : (s.complete).memWf = true := by
  simp [State.complete, h]
theorem execTaskComplete_memWf (core : Nat) {s : State} (h : s.memWf = true) :
    outMemWf (execTaskComplete core s) = true := by
  grind [execTaskComplete, outMemWf, State.atCore_memWf, State.complete_memWf]
@[simp] theorem State.eret_memWf {s : State} (h : s.memWf = true) : (s.eret).memWf = true := by
  grind [State.eret, State.loadVirt_memWf, State.endRunning_memWf, State.setCtx_memWf, State.reenter_memWf, State.here_spad_wf]
theorem execEretReturn_memWf (core : Nat) {s : State} (h : s.memWf = true) :
    outMemWf (execEretReturn core s) = true := by
  grind [execEretReturn, outMemWf, State.atCore_memWf, State.eret_memWf]

@[simp] theorem State.areaPut_memWf {s : State} (part va : Nat) (bs : List Byte) (h : s.memWf = true) :
    (s.areaPut part va bs).memWf = true :=
  foldl_memWf _ h fun t i ht => by
    split
    · exact State.dieWrite_memWf _ (State.walked_memWf _ _ _ ht)
    · exact ht

@[simp] theorem State.areaGet_memWf {s : State} (part va n : Nat) (h : s.memWf = true) :
    (s.areaGet part va n).2.memWf = true :=
  List.foldlRecOn (motive := fun acc : List Byte × State => acc.2.memWf = true) _ _ h fun acc ha i _ => by
    dsimp only
    split
    · exact State.dieRead_memWf _ _ (State.walked_memWf _ _ _ ha)
    · exact ha

@[simp] theorem State.requestPreempt_memWf {s : State} (h : s.memWf = true) : (s.requestPreempt).memWf = true := by
  grind [State.requestPreempt, State.setCtx_memWf]
theorem execPreempt_memWf (core : Nat) {s : State} (h : s.memWf = true) : outMemWf (execPreempt core s) = true := by
  grind [execPreempt, outMemWf, State.atCore_memWf, State.requestPreempt_memWf]

@[simp] theorem State.capture_memWf {s : State} (h : s.memWf = true) : (s.capture).2.memWf = true := by
  grind [State.capture, State.landDue_memWf, State.carry_memWf, State.landAll_memWf, State.landDuePosts_memWf,
    State.setCtx_memWf]

@[simp] theorem State.coldCaches_memWf {s : State} (h : s.memWf = true) : (s.coldCaches).memWf = true := by
  grind [State.coldCaches, State.writeBackAll_memWf, State.setHere_memWf, State.here_spad_wf, State.core_spad_wf]
@[simp] theorem State.serveSave_memWf {s : State} (h : s.memWf = true) : (s.serveSave).memWf = true := by
  simp [State.serveSave, h]

@[simp] theorem State.saveContext_memWf {s : State} (h : s.memWf = true) : s.saveContext.memWf = true := by
  have hb := State.writeBackAll_memWf s.focus h
  unfold State.saveContext
  split
  · exact h
  · split
    · exact hb
    · split <;> rename_i s1 heq <;> have h1 := memWf_of_eq_pair (State.capture_memWf hb) heq
      · exact h1
      · split
        · exact h1
        · extract_lets base s2 spad marks s3 s4
          have h2 : s2.memWf = true := State.serveSave_memWf (State.writeBackAll_memWf _ h1)
          have h3 : s3.memWf = true := foldl_memWf _ h2 fun _ _ ht => State.areaPut_memWf _ _ _ ht
          have h4 : s4.memWf = true := State.areaPut_memWf _ _ _ h3
          exact State.setHere_memWf h4 (by rw [Core.handOn_spad]; exact State.here_spad_wf h4)

@[simp] theorem State.killContext_memWf {s : State} (h : s.memWf = true) : (s.killContext).memWf = true := by
  grind [State.killContext, State.landDue_memWf, State.carry_memWf, State.endContext_memWf, State.here_spad_wf,
    State.settle_memWf]

theorem execContextSave_memWf (core : Nat) {s : State} (h : s.memWf = true) :
    outMemWf (execContextSave core s) = true := by
  grind [execContextSave, outMemWf, State.atCore_memWf, State.saveContext_memWf]

@[simp] theorem State.restoreFrom_memWf {s : State} (list : Nat) (r : Ready) (h : s.memWf = true) :
    (s.restoreFrom list r).memWf = true := by
  unfold State.restoreFrom
  split
  · split
    · exact h
    · extract_lets l s1 k base _ c live k1 s2 same e g s3
      have h1 : s1.memWf = true := State.setCore_memWf _ h (State.core_spad_wf list h)
      have h2 : s2.memWf = true := State.setHere_memWf h1 (State.here_spad_wf h1)
      split
      · exact State.settle_memWf _ (State.endContext_memWf _ _ _ _ _ _ h2)
      · have hg : g.2.memWf = true := State.areaGet_memWf _ _ _ h2
        have h3 : s3.memWf = true := by
          change (if live then g.2.coldCaches else g.2.coldCaches.askSave s.focus [(0, c.spadGrant)]).memWf = true
          split
          · exact State.coldCaches_memWf hg
          · exact State.askSave_memWf _ _ (State.coldCaches_memWf hg)
        exact State.reenter_memWf _ _ (State.spadPut_memWf _ _ _ h3)
  · exact h

@[simp] theorem State.restoreContext_memWf {s : State} (h : s.memWf = true) : (s.restoreContext).memWf = true := by
  grind [State.restoreContext, State.restoreFrom_memWf]
theorem execContextRestore_memWf (core : Nat) {s : State} (h : s.memWf = true) :
    outMemWf (execContextRestore core s) = true := by
  grind [execContextRestore, outMemWf, State.atCore_memWf, State.restoreContext_memWf]

@[simp] theorem State.readCode_memWf {s : State} (part code : Nat) (h : s.memWf = true) :
    (s.readCode part code).memWf = true := by
  have h1 := State.visit_memWf part code 256 h
  unfold State.readCode
  dsimp only
  split
  · exact h1
  · split
    · exact h1
    · exact foldl_memWf _ h1 fun _ _ ht => State.visit_memWf _ _ _ ht

@[simp] theorem State.charge_memWf {s : State} (part region ctxs spad plies : Nat) (h : s.memWf = true) :
    (s.charge part region ctxs spad plies).memWf = true := by
  grind [State.charge, State.rgnCharge_memWf]

theorem Core.grantPages_spad_wf {k : Core} (base grant : Nat) (who : Nat × Nat) (src : Nat → Byte) (use : Nat)
    (h : k.spad.wf = true) : (k.grantPages base grant who src use).spad.wf = true :=
  List.foldlRecOn (motive := fun k' : Core => k'.spad.wf = true) _ _ h fun _ hk _ _ => Mem.wf_store _ _ hk

@[simp] theorem State.placeAt_memWf {s : State} (core c slot : Nat) (r : Ready) (hd : Header) (recs : List (BitVec 512))
    (gated : Bool) (h : s.memWf = true) : (s.placeAt core c slot r hd recs gated).memWf = true := by
  unfold State.placeAt
  extract_lets t s1 k base live x
  have h1 : s1.memWf = true := State.charge_memWf _ _ _ _ _ (State.markStale_memWf _ h)
  refine State.setCore_memWf _ h1 ?_
  exact Core.grantPages_spad_wf _ _ _ _ _ (State.core_spad_wf core h1)

@[simp] theorem State.placedState_memWf {s : State} (part region : Nat) (h : s.memWf = true) :
    (s.placedState part region).memWf = true := by
  simp [State.placedState, h]

@[simp] theorem State.readList_memWf {s : State} (core : Nat) (l : List Ready) (h : s.memWf = true) :
    (s.readList core l).memWf = true := by
  induction l generalizing s with
  | nil => exact h
  | cons r rest ih =>
    unfold State.readList
    extract_lets unread _ s1
    have h1 : s1.memWf = true := by
      change (if unread then _ else _ : State).memWf = true
      split
      · exact State.readCode_memWf _ _ (State.setCore_memWf _ h (State.core_spad_wf core h))
      · exact h
    split
    · exact ih h1
    · exact h1

@[simp] theorem State.unlist_memWf {s : State} (core : Nat) (r : Ready) (h : s.memWf = true) :
    (s.unlist core r).memWf = true := by
  simp [State.unlist, h]

@[simp] theorem State.placeRecord_memWf {s : State} (r : Ready) (p : PlaceRes) (h : s.memWf = true) :
    (s.placeRecord r p).memWf = true := by
  have hu := State.visitPath_memWf r.part (s.rgnPath r.part r.region) (State.unlist_memWf s.focus r h)
  cases p with
  | wait => exact h
  | reject reason => exact State.settle_memWf _ hu
  | place c slot hd recs => exact State.placedState_memWf _ _ (State.placeAt_memWf _ _ _ _ _ _ _ hu)
  | restore => exact State.restoreFrom_memWf _ _ h

@[simp] theorem State.place_memWf {s : State} (h : s.memWf = true) : s.place.memWf = true := by
  unfold State.place
  extract_lets s1
  have h1 : s1.memWf = true := by
    change (if s.mayPlace s.focus then s.readList s.focus s.here.ready else s).memWf = true
    split
    · exact State.readList_memWf _ _ h
    · exact h
  split
  · exact h1
  · exact State.placeRecord_memWf _ _ h1

theorem execPlacement_memWf (core : Nat) {s : State} (h : s.memWf = true) : outMemWf (execPlacement core s) = true := by
  grind [execPlacement, outMemWf, State.atCore_memWf, State.place_memWf]

@[simp] theorem State.moveRecord_memWf {s : State} (cluster : Nat) (h : s.memWf = true) :
    (s.moveRecord cluster).memWf = true := by
  grind [State.moveRecord, State.setCluster_memWf, State.core_spad_wf, State.setCore_memWf]

theorem execRecordMove_memWf (cluster : Nat) {s : State} (h : s.memWf = true) :
    outMemWf (execRecordMove cluster s) = true := by
  grind [execRecordMove, outMemWf, State.moveRecord_memWf]
@[simp] theorem State.balancePair_memWf {s : State} (a b : Nat) (h : s.memWf = true) :
    (s.balancePair a b).memWf = true := by
  grind [State.balancePair, State.core_spad_wf, State.setCore_memWf]
@[simp] theorem State.balance_memWf {s : State} (cluster : Nat) (h : s.memWf = true) :
    (s.balance cluster).memWf = true :=
  foldl_memWf _ h fun _ _ ht => State.balancePair_memWf _ _ ht

theorem execBalanceEpoch_memWf (cluster : Nat) {s : State} (h : s.memWf = true) :
    outMemWf (execBalanceEpoch cluster s) = true := by
  grind [execBalanceEpoch, outMemWf, State.balance_memWf]

@[simp] theorem State.partReads_memWf {s : State} (p : GangPart) (h : s.memWf = true) :
    (s.partReads p).memWf = true := by
  grind [State.partReads, State.visitPath_memWf, State.readCode_memWf]

@[simp] theorem State.rejectGang_memWf {s : State} (g : Gang) (reason : Nat) (h : s.memWf = true) :
    (s.rejectGang g reason).memWf = true :=
  foldl_memWf (s := s.dropGang g.launch) _ h fun t p ht => by
    split
    · exact State.launchEnd_memWf _ _ _ _ _ ht
    · exact State.settle_memWf _ (State.rgnLiveUp_memWf _ _ ht)

@[simp] theorem State.closeGang_memWf {s : State} (launch : Nat) (h : s.memWf = true) :
    (s.closeGang launch).memWf = true := by
  grind [State.closeGang, State.rejectGang_memWf]

@[simp] theorem State.answerReserve_memWf {s : State} (launch cluster : Nat) (h : s.memWf = true) :
    (s.answerReserve launch cluster).memWf = true := by
  unfold State.answerReserve
  split
  · exact h
  · split
    · exact h
    · split
      · exact h
      · next p _ =>
        have hr := State.partReads_memWf p h
        dsimp only
        split
        · exact State.closeGang_memWf _ (by rw [State.setGang_memWf]; exact hr)
        · split
          · rw [State.setGang_memWf]
            exact hr
          · rw [State.setGang_memWf]
            exact State.placeAt_memWf _ _ _ _ _ _ _ hr

@[simp] theorem State.sendLink_memWf {s : State} (cluster : Nat) (i : Instr) (h : s.memWf = true) :
    (s.sendLink cluster i).memWf = true := by
  unfold State.sendLink
  dsimp only
  split <;> exact h

theorem State.overLink_memWf {s : State} (cluster : Nat) (i : Instr) {f : State → State} (h : s.memWf = true)
    (hf : (f s).memWf = true) : (s.overLink cluster i f).memWf = true := by
  unfold State.overLink
  split
  · exact hf
  · exact State.sendLink_memWf _ _ h

@[simp] theorem State.reserve_memWf {s : State} (launch cluster : Nat) (h : s.memWf = true) :
    (s.reserve launch cluster).memWf = true :=
  State.overLink_memWf _ _ h (State.answerReserve_memWf _ _ h)

theorem execReserve_memWf (gang cluster : Nat) {s : State} (h : s.memWf = true) :
    outMemWf (execReserve gang cluster s) = true := by
  grind [execReserve, outMemWf, State.reserve_memWf]

@[simp] theorem State.markHanded_memWf {s : State} (launch i : Nat) (h : s.memWf = true) :
    (s.markHanded launch i).memWf = true := by
  simp [State.markHanded, h]

@[simp] theorem State.countLaunch_memWf {s : State} (part : Nat) (h : s.memWf = true) :
    (s.countLaunch part).memWf = true := by
  simp [State.countLaunch, h]

@[simp] theorem State.doCommit_memWf {s : State} (launch cluster time : Nat) (h : s.memWf = true) :
    (s.doCommit launch cluster time).memWf = true := by
  grind [State.doCommit, State.countLaunch_memWf, State.markHanded_memWf, State.setGang_memWf, State.placedState_memWf,
    State.rgnLiveUp_memWf]

@[simp] theorem State.commitPart_memWf {s : State} (launch cluster time : Nat) (h : s.memWf = true) :
    (s.commitPart launch cluster time).memWf = true :=
  State.overLink_memWf _ _ h (State.doCommit_memWf _ _ _ h)

theorem execCommit_memWf (gang cluster time : Nat) {s : State} (h : s.memWf = true) :
    outMemWf (execCommit gang cluster time s) = true := by
  grind [execCommit, outMemWf, State.commitPart_memWf]

@[simp] theorem State.releasePart_memWf {s : State} (p : GangPart) (h : s.memWf = true) :
    (s.releasePart p).memWf = true := by
  grind [State.releasePart, State.unreserve_memWf]

@[simp] theorem State.doRollback_memWf {s : State} (launch cluster : Nat) (h : s.memWf = true) :
    (s.doRollback launch cluster).memWf = true := by
  grind [State.doRollback, State.closeGang_memWf, State.setGang_memWf, State.releasePart_memWf]

@[simp] theorem State.rollbackPart_memWf {s : State} (launch cluster : Nat) (h : s.memWf = true) :
    (s.rollbackPart launch cluster).memWf = true :=
  State.overLink_memWf _ _ h (State.doRollback_memWf _ _ h)

theorem execRollback_memWf (gang cluster : Nat) {s : State} (h : s.memWf = true) :
    outMemWf (execRollback gang cluster s) = true := by
  grind [execRollback, outMemWf, State.rollbackPart_memWf]

theorem execGangStart_memWf (gang cluster : Nat) {s : State} (h : s.memWf = true) :
    outMemWf (execGangStart gang cluster s) = true := by
  grind [execGangStart, outMemWf, State.startPart_memWf]

@[simp] theorem State.timeoutGang_memWf {s : State} (launch : Nat) (h : s.memWf = true) :
    (s.timeoutGang launch).memWf = true := by
  grind [State.timeoutGang, State.closeGang_memWf, State.setGang_memWf]

theorem execGangTimeout_memWf (gang : Nat) {s : State} (h : s.memWf = true) :
    outMemWf (execGangTimeout gang s) = true := by
  simp [execGangTimeout, h]

@[simp] theorem State.abortGang_memWf {s : State} (g : Gang) (cause : Nat) (h : s.memWf = true) :
    (s.abortGang g cause).memWf = true := by
  have h1 : (g.parts.foldl (fun s p => if p.phase = .reserved then s.releasePart p else s) s).memWf = true :=
    foldl_memWf _ h fun t p ht => by
      split
      · exact State.releasePart_memWf _ ht
      · exact ht
  refine foldl_memWf _ ?_ fun _ _ ht => State.launchEnd_memWf _ _ _ _ _ ht
  rw [State.dropGang_memWf]
  exact h1

@[simp] theorem State.gangMessage_memWf {s : State} (ident : Nat) (f : Fabric → Fabric) (h : s.memWf = true) :
    (s.gangMessage ident f).memWf = true := by
  grind [State.gangMessage, State.die_mem_wf, State.closeGang_memWf, State.setGang_memWf]

@[simp] theorem State.readStream_memWf {s : State} (x : Queue) (pos k n : Nat) (h : s.memWf = true) :
    (s.readStream x pos k n).2.2.memWf = true := by
  induction k generalizing s pos n with
  | zero => exact h
  | succ k ih => grind [State.readStream, State.pktRead_memWf]

@[simp] theorem State.fetchAt_memWf {s : State} (x : Queue) (pos : Nat) (h : s.memWf = true) :
    (s.fetchAt x pos).2.memWf = true := by
  grind [State.fetchAt, State.readStream_memWf]

@[simp] theorem State.finishAt_memWf {s : State} (q : Nat) (x : Queue) (pos : Nat) (h : s.memWf = true) :
    (s.finishAt q x pos).memWf = true := by
  simp [State.finishAt, h]

@[simp] theorem State.finishPacket_memWf {s : State} (q : Nat) (x : Queue) (p : Packet) (h : s.memWf = true) :
    (s.finishPacket q x p).memWf = true := by
  simp [State.finishPacket, h]

@[simp] theorem State.packetFault_memWf {s : State} (q : Nat) (x : Queue) (pos cause : Nat) (h : s.memWf = true) :
    (s.packetFault q x pos cause).memWf = true := by
  simp [State.packetFault, h]

theorem State.withPacket_memWf {s : State} (q kind : Nat) {f : Queue → Packet → State} (h : s.memWf = true)
    (hf : ∀ x p, (f x p).memWf = true) : outMemWf (s.withPacket q kind f) = true := by
  unfold State.withPacket
  grind [outMemWf, State.setQueue_memWf]

@[simp] theorem State.windowFetch_memWf {s : State} (q : Nat) (x : Queue) (h : s.memWf = true) :
    (s.windowFetch q x).memWf = true := by
  grind [State.windowFetch, State.packetFault_memWf, State.fetchAt_memWf, State.setQueue_memWf]

theorem execWindowFetch_memWf (queue : Nat) {s : State} (h : s.memWf = true) :
    outMemWf (execWindowFetch queue s) = true := by
  grind [execWindowFetch, outMemWf, State.windowFetch_memWf]
theorem execNopPacket_memWf (queue : Nat) {s : State} (h : s.memWf = true) : outMemWf (execNopPacket queue s) = true :=
  State.withPacket_memWf _ _ h fun _ _ => State.finishPacket_memWf _ _ _ h

theorem execIb_memWf (queue : Nat) {s : State} (h : s.memWf = true) : outMemWf (execIb queue s) = true :=
  State.withPacket_memWf _ _ h fun x p => by
    grind [State.packetFault_memWf, State.setQueue_memWf]

theorem execLoopPacket_memWf (queue : Nat) {s : State} (h : s.memWf = true) :
    outMemWf (execLoopPacket queue s) = true :=
  State.withPacket_memWf _ _ h fun x p => by
    grind [State.packetFault_memWf, State.setQueue_memWf, State.finishAt_memWf]

@[simp] theorem State.skipRun_memWf {s : State} (x : Queue) (pos n : Nat) (h : s.memWf = true) :
    (s.skipRun x pos n).2.2.memWf = true := by
  induction n generalizing s x pos with
  | zero => exact h
  | succ n ih => grind [State.skipRun, State.fetchAt_memWf]

theorem execPktPred_memWf (queue : Nat) {s : State} (h : s.memWf = true) : outMemWf (execPktPred queue s) = true :=
  State.withPacket_memWf _ _ h fun x p => by
    extract_lets go
    have hgo : ∀ t y, t.memWf = true → (go t y).memWf = true := fun t y ht => by
      have hs := State.skipRun_memWf y (y.after p.pos 32) y.skip ht
      dsimp only [go]
      grind [State.packetFault_memWf, State.setQueue_memWf, State.finishAt_memWf]
    clear_value go
    grind [State.pktRead_memWf, State.packetFault_memWf, State.finishPacket_memWf]

@[simp] theorem State.tryWait_memWf {s : State} (q : Nat) (x : Queue) (p : Packet) (h : s.memWf = true) :
    (s.tryWait q x p).memWf = true := by
  grind [State.tryWait, State.pktRead_memWf, State.packetFault_memWf, State.finishPacket_memWf, State.setQueue_memWf]

theorem execWaitmem_memWf (queue : Nat) {s : State} (h : s.memWf = true) : outMemWf (execWaitmem queue s) = true :=
  State.withPacket_memWf _ _ h fun x p => by
    grind [State.tryWait_memWf]

theorem execWaitmemPoll_memWf (queue : Nat) {s : State} (h : s.memWf = true) :
    outMemWf (execWaitmemPoll queue s) = true :=
  State.withPacket_memWf _ _ h fun x p => by
    grind [State.tryWait_memWf]

theorem execWritemem_memWf (queue : Nat) {s : State} (h : s.memWf = true) : outMemWf (execWritemem queue s) = true :=
  State.withPacket_memWf _ _ h fun x p => by
    grind [State.pktWrite_memWf, State.packetFault_memWf, State.finishPacket_memWf]

theorem execSignal_memWf (queue : Nat) {s : State} (h : s.memWf = true) : outMemWf (execSignal queue s) = true :=
  State.withPacket_memWf _ _ h fun x p => by
    grind [State.pktWrite_memWf, State.setHost_memWf, State.host_mem_wf, State.packetFault_memWf, State.finishPacket_memWf]

theorem execTimestamp_memWf (queue : Nat) {s : State} (h : s.memWf = true) : outMemWf (execTimestamp queue s) = true :=
  State.withPacket_memWf _ _ h fun x p => by
    grind [State.pktWrite_memWf, State.packetFault_memWf, State.finishPacket_memWf]

theorem execFetchfence_memWf (queue : Nat) {s : State} (h : s.memWf = true) :
    outMemWf (execFetchfence queue s) = true :=
  State.withPacket_memWf _ _ h fun _ _ => State.finishPacket_memWf _ _ _ h

@[simp] theorem State.handParts_memWf {s : State} (l : Launch1) (gang : Nat) (read : List (Nat × Option Record))
    (h : s.memWf = true) : (s.handParts l gang read).memWf = true := by
  unfold State.handParts
  extract_lets recs
  split
  · exact foldl_memWf _ (State.countLaunch_memWf _ h) fun _ _ ht => State.launchEnd_memWf _ _ _ _ _ ht
  · split
    · exact h
    · exact foldl_memWf _ (State.countLaunch_memWf _ h) fun t x ht => by
        split
        · exact State.markHanded_memWf _ _ (State.handOver_memWf _ _ _ _ _ _ _ _ ht)
        · exact ht

@[simp] theorem State.startLaunch_memWf {s : State} (q : Nat) (x : Queue) (p : Packet) (h : s.memWf = true) :
    (s.startLaunch q x p).memWf = true := by
  unfold State.startLaunch
  split
  · exact State.packetFault_memWf _ _ _ _ h
  · exact State.handParts_memWf _ _ _ (State.setQueue_memWf _ _
      (foldl_memWf _ (State.setHost_memWf h (State.host_mem_wf h :)) fun _ _ ht => State.visit_memWf _ _ _ ht))

@[simp] theorem State.endLaunch_memWf {s : State} (ident : Nat) (h : s.memWf = true) :
    (s.endLaunch ident).memWf = true := by
  simp [State.endLaunch, h]

theorem execLaunch_memWf (queue : Nat) {s : State} (h : s.memWf = true) : outMemWf (execLaunch queue s) = true :=
  State.withPacket_memWf _ _ h fun x p => by
    grind [State.endLaunch_memWf, State.finishPacket_memWf, State.setQueue_memWf, State.startLaunch_memWf]

end Sys2Proof.Machine
end

section
/-! SUPPORT. Proxy queues, the retrieval layout, resets, the Crown and the host accesses keep every memory in canonical form. -/

namespace Sys2Proof.Machine
open Sys2Proof

@[simp] theorem State.shadowEntry_memWf {s : State} (part : Nat) (d : ProxyDesc) (k : Nat) (h : s.memWf = true) :
    (s.shadowEntry part d k).2.memWf = true := by
  grind [State.shadowEntry, State.noteRead_memWf, State.walked_memWf]

@[simp] theorem State.shadowEntries_memWf {s : State} (part : Nat) (d : ProxyDesc) (k n : Nat) (h : s.memWf = true) :
    (s.shadowEntries part d k n).2.memWf = true := by
  induction n generalizing s k with
  | zero => exact h
  | succ n ih => exact ih _ (State.shadowEntry_memWf _ _ _ h)

@[simp] theorem State.forward_memWf {s : State} (part desc : Nat) (h : s.memWf = true) :
    (s.forward part desc).memWf = true := by
  grind [State.forward, State.shadowEntries_memWf, State.visit_memWf, State.setProxy_memWf, State.diePut_memWf]

theorem execProxyForward_memWf (part desc : Nat) {s : State} (h : s.memWf = true) :
    outMemWf (execProxyForward part desc s) = true := by
  grind [execProxyForward, outMemWf, State.forward_memWf]

@[simp] theorem State.proxyAccepted_memWf {s : State} (part desc n : Nat) (h : s.memWf = true) :
    (s.proxyAccepted part desc n).memWf = true := by
  grind [State.proxyAccepted, State.diePut_memWf, State.walked_memWf, State.setProxy_memWf]

@[simp] theorem State.proxyRefuse_memWf {s : State} (part cause record : Nat) (h : s.memWf = true) :
    (s.proxyRefuse part cause record).memWf = true := by
  simp [State.proxyRefuse, h]

@[simp] theorem State.acceptEntry_memWf {s : State} (cluster part op record : Nat) (h : s.memWf = true) :
    (s.acceptEntry cluster part op record).memWf = true := by
  grind [State.acceptEntry, State.visit_memWf, State.proxyRefuse_memWf, State.handOver_memWf, State.report_memWf,
    State.settle_memWf]

@[simp] theorem State.acceptEntries_memWf {s : State} (cluster : Nat) (es : List (Nat × Nat)) (h : s.memWf = true) :
    (s.acceptEntries cluster es).memWf = true := by
  unfold State.acceptEntries
  split
  · exact foldl_memWf _ h fun _ _ ht => State.proxyRefuse_memWf _ _ _ ht
  · exact foldl_memWf _ h fun _ _ ht => State.acceptEntry_memWf _ _ _ _ ht

theorem execProxyAccept_memWf (cluster : Nat) (entries : List (Nat × Nat)) {s : State} (h : s.memWf = true) :
    outMemWf (execProxyAccept cluster entries s) = true := by
  grind [execProxyAccept, outMemWf, State.acceptEntries_memWf]

@[simp] theorem State.stopProxy_memWf {s : State} (part desc : Nat) (h : s.memWf = true) :
    (s.stopProxy part desc).memWf = true := by
  grind [State.stopProxy, State.diePut_memWf, State.setProxy_memWf]

@[simp] theorem State.loseProxy_memWf {s : State} (part desc : Nat) (h : s.memWf = true) :
    (s.loseProxy part desc).memWf = true := by
  simp [State.loseProxy, h]

theorem execProxyLoss_memWf (part desc : Nat) {s : State} (h : s.memWf = true) :
    outMemWf (execProxyLoss part desc s) = true := by
  grind [execProxyLoss, outMemWf, State.loseProxy_memWf]
@[simp] theorem State.takeArea_memWf {s : State} (n : Nat) (h : s.memWf = true) : (s.takeArea n).2.memWf = true := by
  simp [State.takeArea, h]

@[simp] theorem State.putCopies_memWf {s : State} (cs : List (Nat × List Byte)) (h : s.memWf = true) :
    (s.putCopies cs).memWf = true :=
  foldl_memWf _ h fun t c ht => by
    split
    · exact State.dieWrite_memWf _ ht
    · exact ht

@[simp] theorem State.keepCopies_memWf {s : State} (x : Index) (v : Version) (h : s.memWf = true) :
    (s.keepCopies x v).memWf = true := by
  simp [State.keepCopies, h]

@[simp] theorem State.remakeCopies_memWf {s : State} (h : s.memWf = true) : (s.remakeCopies).memWf = true := by
  simp [State.remakeCopies, h]

@[simp] theorem State.cutLaunch_memWf {s : State} (ident cause : Nat) (whole : Bool) (h : s.memWf = true) :
    (s.cutLaunch ident cause whole).memWf = true := by
  unfold State.cutLaunch
  split
  · exact h
  · extract_lets begun handed _ s1 s2
    have h1 : s1.memWf = true := State.setHost_memWf h (State.host_mem_wf h :)
    refine State.endLaunch_memWf _ (?_ : s2.memWf = true)
    dsimp only [s2]
    split
    · exact h1
    · split
      · exact State.abortGang_memWf _ _ h1
      · exact foldl_memWf _ h1 fun _ _ ht => State.launchEnd_memWf _ _ _ _ _ ht

@[simp] theorem State.abandonQueue_memWf {s : State} (q : Nat) (x : Queue) (cause : Nat) (whole : Bool)
    (h : s.memWf = true) :
    (s.abandonQueue q x cause whole).memWf = true := by
  grind [State.abandonQueue, State.cutLaunch_memWf, State.setQueue_memWf, State.logFault_memWf]

@[simp] theorem State.setPartState_memWf {s : State} (p : Nat) (st : PartState) (h : s.memWf = true) :
    (s.setPartState p st).memWf = true := by
  simp [State.setPartState, h]

@[simp] theorem State.beginReset_memWf {s : State} (p : Nat) (expired : List Nat) (h : s.memWf = true) :
    (s.beginReset p expired).memWf = true := by
  unfold State.beginReset
  extract_lets st
  split
  · exact h
  · exact foldl_memWf _ (State.setPstat_memWf _ _ (State.setPartState_memWf _ _ h)) fun t x ht => by
      split
      · exact ht
      · exact State.abandonQueue_memWf _ _ _ _ ht

@[simp] theorem State.resetProxies_memWf {s : State} (p : Nat) (h : s.memWf = true) : (s.resetProxies p).memWf = true :=
  foldl_memWf _ h fun t x ht => by
    dsimp only
    split
    · exact State.setProxy_memWf _ ht
    · refine State.logFault_memWf _ _ _ _ _ _ _ (State.setProxy_memWf _ ?_)
      split
      · exact State.diePut_memWf _ _ _ ht
      · exact ht

theorem Core.emptied_spad_wf (p : Nat) (c : Core) : (c.emptied p).spad.wf = true := rfl

@[simp] theorem State.emptyCores_memWf {s : State} (p : Nat) (h : s.memWf = true) : (s.emptyCores p).memWf = true := by
  obtain ⟨hd, hh, hc⟩ := State.memWf_iff.1 h
  refine State.memWf_iff.2 ⟨hd, hh, spadsWf_ofFn fun n => ?_⟩
  split
  · exact Core.emptied_spad_wf p _
  · exact State.core_spad_wf _ h

@[simp] theorem State.idleRoot_memWf {s : State} (p i : Nat) (h : s.memWf = true) : (s.idleRoot p i).memWf = true :=
  State.rgnSetField_memWf _ _ _ _ (foldl_memWf _ h fun _ _ ht => State.rgnSetField_memWf _ _ _ _ ht)

@[simp] theorem State.carryPart_memWf {s : State} (p : Nat) (h : s.memWf = true) : (s.carryPart p).memWf = true :=
  foldl_memWf _ h fun t n ht => by
    split
    · exact State.onCore_memWf n ht fun _ hu => State.carry_memWf (State.landDue_memWf hu)
    · exact ht

@[simp] theorem State.emptyPart_memWf {s : State} (p : Nat) (h : s.memWf = true) : (s.emptyPart p).memWf = true := by
  unfold State.emptyPart
  split
  · exact h
  · extract_lets roots ws s1 s2 s3 s4
    have h1 : s1.memWf = true := State.settleWith_memWf _ _ _ _ (State.carryPart_memWf p h)
    have h2 : s2.memWf = true := State.emptyCores_memWf p (State.resetProxies_memWf p h1)
    have h3 : s3.memWf = true := foldl_memWf _ h2 fun _ _ ht => State.rgnFree_memWf _ _ ht
    have h4 : s4.memWf = true := foldl_memWf _ h3 fun _ _ ht => State.idleRoot_memWf _ _ ht
    exact State.setPstat_memWf _ _ h4

@[simp] theorem State.finishReset_memWf {s : State} (p : Nat) (h : s.memWf = true) :
    (s.finishReset p).memWf = true := by
  grind [State.finishReset, State.logFault_memWf, State.setPartState_memWf, State.setPstat_memWf, State.setHost_memWf,
    State.host_mem_wf]

@[simp] theorem State.gauntlet_memWf {s : State} (q : Nat) (h : s.memWf = true) : (s.gauntlet q).memWf = true := by
  grind [State.gauntlet, State.beginReset_memWf]

theorem execGauntletExpiry_memWf (queue : Nat) {s : State} (h : s.memWf = true) :
    outMemWf (execGauntletExpiry queue s) = true := by
  grind [execGauntletExpiry, outMemWf, State.gauntlet_memWf]

@[simp] theorem State.presetParts_memWf {s : State} (v : Nat) (h : s.memWf = true) : (s.presetParts v).memWf = true :=
  foldl_memWf _ h fun t p ht => by
    split
    · exact State.beginReset_memWf _ _ ht
    · exact ht

theorem execPreset_memWf (value : Nat) {s : State} (h : s.memWf = true) : outMemWf (execPreset value s) = true := by
  simp [execPreset, h]
@[simp] theorem State.resetLate_memWf {s : State} (p : Nat) (h : s.memWf = true) : (s.resetLate p).memWf = true := by
  simp [State.resetLate, h]
theorem execResetTimeout_memWf (part : Nat) {s : State} (h : s.memWf = true) :
    outMemWf (execResetTimeout part s) = true := by
  grind [execResetTimeout, outMemWf, State.resetLate_memWf]
@[simp] theorem State.drained_memWf {s : State} (p : Nat) (h : s.memWf = true) : (s.drained p).memWf = true := by
  simp [State.drained, h]

theorem execPartitionDrained_memWf (part : Nat) {s : State} (h : s.memWf = true) :
    outMemWf (execPartitionDrained part s) = true := by
  grind [execPartitionDrained, outMemWf, State.drained_memWf]

@[simp] theorem State.deviceReset_memWf {s : State} (h : s.memWf = true) : s.deviceReset.memWf = true :=
  foldl_memWf _ h fun t q ht => by
    split
    · exact State.stopQueue_memWf _ _ _ _ ht
    · exact ht

theorem spadsWf_reset : spadsWf (Vector.replicate 128 Core.reset) = true :=
  spadsWf_iff.2 fun i hi => by rw [Vector.getElem_replicate]; rfl

@[simp] theorem State.flr_memWf {s : State} (h : s.memWf = true) : s.flr.memWf = true := by
  obtain ⟨hd, hh, -⟩ := State.memWf_iff.1 (State.deviceReset_memWf h)
  exact State.memWf_iff.2 ⟨hd, hh, spadsWf_reset⟩

theorem execFunctionLevelReset_memWf {s : State} (h : s.memWf = true) : outMemWf (execFunctionLevelReset s) = true := by
  simp [execFunctionLevelReset, h]
@[simp] theorem State.moduleReset_memWf {s : State} (ladder : Nat) (h : s.memWf = true) :
    (s.moduleReset ladder).memWf = true :=
  State.memWf_iff.2 ⟨rfl, (State.host_mem_wf h :), spadsWf_reset⟩
theorem execPerst_memWf {s : State} (h : s.memWf = true) : outMemWf (execPerst s) = true := by
  simp [execPerst, h]
theorem execModreset_memWf (value : Nat) {s : State} (h : s.memWf = true) : outMemWf (execModreset value s) = true := by
  simp [execModreset, h]
theorem execPowerLoss_memWf {s : State} (h : s.memWf = true) : outMemWf (execPowerLoss s) = true := by
  simp [execPowerLoss, h]

@[simp] theorem State.hwError_memWf {s : State} (scope ident : Nat) (h : s.memWf = true) :
    (s.hwError scope ident).memWf = true := by
  simp [State.hwError, h]

theorem execHwError_memWf (scope ident : Nat) {s : State} (h : s.memWf = true) :
    outMemWf (execHwError scope ident s) = true := by
  simp [execHwError, h]
theorem execCoolantFlowFails_memWf {s : State} (h : s.memWf = true) : outMemWf (execCoolantFlowFails s) = true := by
  grind [execCoolantFlowFails, outMemWf, State.moduleReset_memWf, State.deviceReset_memWf, State.hwError_memWf]

theorem execThrottle_memWf (celsius : Int) {s : State} (h : s.memWf = true) :
    outMemWf (execThrottle celsius s) = true := by
  grind [execThrottle, outMemWf, State.setHost_memWf, State.host_mem_wf, State.moduleReset_memWf, State.deviceReset_memWf,
    State.hwError_memWf]

theorem Host1.loadImage_mem (h : Host1) (x : Image) : (h.loadImage x).mem = h.mem := by
  unfold Host1.loadImage
  split <;> rfl

theorem Host1.loadFirmware_mem (h : Host1) : h.loadFirmware.mem = h.mem :=
  List.foldlRecOn (motive := fun k : Host1 => k.mem = h.mem) _ _ rfl fun k hk x _ => (Host1.loadImage_mem k x).trans hk

@[simp] theorem State.powerUp_memWf {s : State} (h : s.memWf = true) : s.powerUp.memWf = true := by
  unfold State.powerUp
  split
  · exact h
  · obtain ⟨hd, hh, hc⟩ := State.memWf_iff.1 h
    refine State.remakeCopies_memWf (State.memWf_iff.2 ⟨hd, ?_, hc⟩)
    dsimp only
    rw [Host1.loadFirmware_mem]
    exact hh

theorem execPowerGood_memWf {s : State} (h : s.memWf = true) : outMemWf (execPowerGood s) = true := by
  simp [execPowerGood, h]
@[simp] theorem State.showBeat_memWf {s : State} (off v : Nat) (h : s.memWf = true) :
    (s.showBeat off v).memWf = true := by
  simp [State.showBeat, h]
@[simp] theorem State.crownBeat_memWf {s : State} (h : s.memWf = true) : (s.crownBeat).memWf = true := by
  grind [State.crownBeat, State.host_mem_wf, State.showBeat_memWf, State.setHost_memWf]
theorem execHeartbeat_memWf {s : State} (h : s.memWf = true) : outMemWf (execHeartbeat s) = true := by
  simp [execHeartbeat, h]
@[simp] theorem State.mittenBeat_memWf {s : State} (h : s.memWf = true) : (s.mittenBeat).memWf = true := by
  grind [State.mittenBeat, State.host_mem_wf, State.showBeat_memWf, State.setHost_memWf]
theorem execMittenbeat_memWf {s : State} (h : s.memWf = true) : outMemWf (execMittenbeat s) = true := by
  simp [execMittenbeat, h]

@[simp] theorem State.mittenTakeover_memWf {s : State} (h : s.memWf = true) : s.mittenTakeover.memWf = true := by
  unfold State.mittenTakeover
  split
  · exact State.setHost_memWf h (State.host_mem_wf h :)
  · exact h

theorem execMittenTakeover_memWf {s : State} (h : s.memWf = true) : outMemWf (execMittenTakeover s) = true := by
  simp [execMittenTakeover, h]

@[simp] theorem State.reboot_memWf {s : State} (v : Nat) (h : s.memWf = true) : (s.reboot v).memWf = true := by
  unfold State.reboot
  split
  · exact State.setHost_memWf h (State.host_mem_wf h :)
  · exact h

theorem execReboot_memWf (value : Nat) {s : State} (h : s.memWf = true) : outMemWf (execReboot value s) = true := by
  simp [execReboot, h]

@[simp] theorem State.crownBack_memWf {s : State} (h : s.memWf = true) : s.crownBack.memWf = true := by
  unfold State.crownBack
  extract_lets x
  split
  · refine State.setHost_memWf h ?_
    change (if x.crown = 1 then x else x.loadFirmware).mem.wf = true
    split
    · exact State.host_mem_wf h
    · rw [Host1.loadFirmware_mem]
      exact State.host_mem_wf h
  · exact h

theorem execCrownReturn_memWf {s : State} (h : s.memWf = true) : outMemWf (execCrownReturn s) = true := by
  simp [execCrownReturn, h]
@[simp] theorem State.hostBytes_memWf {s : State} (a : Nat) (bs : List Byte) (h : s.memWf = true) :
    (s.hostBytes a bs).memWf = true :=
  State.setHost_memWf h (Mem.wf_store a bs (State.host_mem_wf h))
@[simp] theorem State.writeBeats_memWf {s : State} (h : s.memWf = true) : s.writeBeats.memWf = true :=
  State.hostBytes_memWf _ _ (foldl_memWf _ (State.hostBytes_memWf _ _ h) fun _ _ ht => State.hostBytes_memWf _ _ ht)

@[simp] theorem State.writeMirror_memWf {s : State} (h : s.memWf = true) : (s.writeMirror).memWf = true := by
  grind [State.writeMirror, State.host_mem_wf, State.hostPut_memWf, State.writeBeats_memWf, State.hostBytes_memWf,
    State.setHost_memWf]

@[simp] theorem State.mirrorUpdate_memWf {s : State} (h : s.memWf = true) : (s.mirrorUpdate).memWf = true := by
  simp [State.mirrorUpdate, h]
theorem execMirrorUpdate_memWf {s : State} (h : s.memWf = true) : outMemWf (execMirrorUpdate s) = true := by
  simp [execMirrorUpdate, h]

@[simp] theorem State.discardWrite_memWf {s : State} (offset queue : Nat) (h : s.memWf = true) :
    (s.discardWrite offset queue).memWf = true := by
  simp [State.discardWrite, h]

@[simp] theorem State.doorbell_memWf {s : State} (q v : Nat) (h : s.memWf = true) : (s.doorbell q v).memWf = true := by
  grind [State.doorbell, State.discardWrite_memWf, State.setQueue_memWf]

theorem execDoorbell_memWf (queue value : Nat) {s : State} (h : s.memWf = true) :
    outMemWf (execDoorbell queue value s) = true := by
  grind [execDoorbell, outMemWf, State.doorbell_memWf]

@[simp] theorem State.mgmtDoorbell_memWf {s : State} (v : Nat) (h : s.memWf = true) :
    (s.mgmtDoorbell v).memWf = true := by
  simp [State.mgmtDoorbell, h]
theorem execMgmtdb_memWf (value : Nat) {s : State} (h : s.memWf = true) : outMemWf (execMgmtdb value s) = true := by
  simp [execMgmtdb, h]

@[simp] theorem State.barWrite_memWf {s : State} (offset value : Nat) (h : s.memWf = true) :
    (s.barWrite offset value).memWf = true := by
  simp [State.barWrite, h]

theorem execRegisterWrite_memWf (offset value : Nat) {s : State} (h : s.memWf = true) :
    outMemWf (execRegisterWrite offset value s) = true := by
  simp [execRegisterWrite, h]

@[simp] theorem State.reply_memWf {s : State} (l : List Nat) (h : s.memWf = true) : (s.reply l).memWf = true := by
  simp [State.reply, h]

@[simp] theorem State.accessFault_memWf {s : State} (cause pa : Nat) (h : s.memWf = true) :
    (s.accessFault cause pa).memWf = true := by
  simp [State.accessFault, h]

@[simp] theorem State.barAccess_memWf {s : State} (addr size : Nat) (data : Option Nat) (h : s.memWf = true) :
    (s.barAccess addr size data).memWf = true := by
  cases data with
  | none => grind [State.barAccess, State.accessFault_memWf, State.reply_memWf, State.dieNat_memWf]
  | some v => grind [State.barAccess, State.accessFault_memWf, State.reply_memWf, State.dieWrite_memWf]

theorem execHostAccess_memWf (addr size : Nat) (data : Option Nat) {s : State} (h : s.memWf = true) :
    outMemWf (execHostAccess addr size data s) = true := by
  simp [execHostAccess, h]

@[simp] theorem State.linkChange_memWf {s : State} (l : Nat) (c : LinkChange) (h : s.memWf = true) :
    (s.linkChange l c).memWf = true := by
  cases c with
  | train peer => exact State.setLink_memWf _ _ h
  | up peer => exact State.setLink_memWf _ _ h
  | retry => exact State.setLink_memWf _ _ h
  | down => exact State.setLink_memWf _ _ h
  | fail => exact State.setLink_memWf _ _ h
  | receive nfmt elems => exact State.setLink_memWf _ _ h
  | accepted part desc n => exact State.proxyAccepted_memWf _ _ _ h
  | gangReady ident m => exact State.gangMessage_memWf _ _ h
  | gangStart ident t => exact State.gangMessage_memWf _ _ h
  | gangFail ident r => exact State.gangMessage_memWf _ _ h

theorem execLinkEvent_memWf (link : Nat) (event : LinkChange) {s : State} (h : s.memWf = true) :
    outMemWf (execLinkEvent link event s) = true := by
  grind [execLinkEvent, outMemWf, State.linkChange_memWf]

end Sys2Proof.Machine
end

section
/-! SUPPORT. Debug commands, management commands, the controllers at work and the fills keep every memory in canonical form. -/

namespace Sys2Proof.Machine
open Sys2Proof

theorem execBrk_memWf (w : Ins) {s : State} (h : s.memWf = true) : outMemWf (execBrk w s) = true :=
  State.run_memWf h (by grind [IssueRes.memWf, State.passTurn_memWf, State.setCtx_memWf])
@[simp] theorem State.debugStop_memWf {s : State} (h : s.memWf = true) : (s.debugStop).memWf = true := by
  grind [State.debugStop, State.capture_memWf, State.setCtx_memWf]
theorem execDebugStop_memWf (core : Nat) {s : State} (h : s.memWf = true) : outMemWf (execDebugStop core s) = true := by
  grind [execDebugStop, outMemWf, State.atCore_memWf, State.debugStop_memWf]

theorem State.atCtx_memWf {s : State} (i : Instr) (core slot : Nat) (f : Ctx → Ctx) (h : s.memWf = true) :
    outMemWf (s.atCtx i core slot f) = true := by
  unfold State.atCtx
  split
  · refine State.overLink_memWf _ _ h ?_
    dsimp only
    split
    · exact State.setCtxAt_memWf _ _ _ h
    · exact h
  · rfl

theorem State.atCtxGo_memWf {s : State} (i : Instr) (core slot : Nat) (f : Ctx → Ctx) (h : s.memWf = true) :
    outMemWf (s.atCtxGo i core slot f) = true := by
  unfold State.atCtxGo
  split
  · refine State.overLink_memWf _ _ h ?_
    dsimp only
    split
    · split
      · exact State.setCtxAt_memWf _ _ _ h
      · exact State.reenter_memWf _ _ (State.setCtxAt_memWf _ _ _ h)
    · exact h
  · rfl

theorem execArm_memWf (core slot cycle triggers : Nat) {s : State} (h : s.memWf = true) :
    outMemWf (execArm core slot cycle triggers s) = true := by
  grind [execArm, outMemWf, State.atCtx_memWf]

theorem execDisarm_memWf (core slot : Nat) {s : State} (h : s.memWf = true) :
    outMemWf (execDisarm core slot s) = true := by
  grind [execDisarm, outMemWf, State.atCtx_memWf]
theorem execHalt_memWf (core slot : Nat) {s : State} (h : s.memWf = true) : outMemWf (execHalt core slot s) = true := by
  grind [execHalt, outMemWf, State.atCtx_memWf]
theorem execResume_memWf (core slot : Nat) {s : State} (h : s.memWf = true) :
    outMemWf (execResume core slot s) = true := by
  grind [execResume, outMemWf, State.atCtxGo_memWf]

theorem execDbgStep_memWf (core slot count : Nat) {s : State} (h : s.memWf = true) :
    outMemWf (execDbgStep core slot count s) = true := by
  grind [execDbgStep, outMemWf, State.atCtxGo_memWf]

theorem execClrprof_memWf (core slot : Nat) {s : State} (h : s.memWf = true) :
    outMemWf (execClrprof core slot s) = true := by
  grind [execClrprof, outMemWf, State.atCtx_memWf]

theorem execDbgRead_memWf (core slot : Nat) (item : DebugItem) {s : State} (h : s.memWf = true) :
    outMemWf (execDbgRead core slot item s) = true := by
  unfold execDbgRead
  split
  · refine State.overLink_memWf _ _ h ?_
    split
    · exact State.setHost_memWf (State.askSave_memWf _ _ h) (State.host_mem_wf h :)
    · exact h
  · rfl

theorem State.putItem_memWf {s t : State} {core slot : Nat} {item : DebugItem} {vs : List Nat} (h : s.memWf = true)
    (e : s.putItem core slot item vs = some t) : t.memWf = true := by
  unfold State.putItem at e
  extract_lets c v put at e
  have hput : ∀ b x, put b x = some t → t.memWf = true := fun b x hx => by
    dsimp only [put] at hx
    split at hx
    · exact Option.some.inj hx ▸ State.setCtxAt_memWf _ _ _ h
    · nomatch hx
  clear_value put
  split at e
  · exact hput _ _ e
  · exact hput _ _ e
  · exact hput _ _ e
  · exact hput _ _ e
  · exact hput _ _ e
  · split at e
    · exact Option.some.inj e ▸ State.spadPut_memWf _ _ _ (State.askSave_memWf _ _ h)
    · nomatch e
  · exact hput _ _ e
  · obtain ⟨_, -, hx⟩ := Option.bind_eq_some_iff.1 e
    exact hput _ _ hx
  · nomatch e
  · nomatch e

@[simp] theorem State.writeItem_memWf {s : State} (core slot : Nat) (item : DebugItem) (vs : List Nat)
    (h : s.memWf = true) :
    (s.writeItem core slot item vs).memWf = true := by
  unfold State.writeItem
  cases e : s.putItem core slot item vs with
  | none => exact h
  | some t => exact State.putItem_memWf h e

theorem execDbgWrite_memWf (core slot : Nat) (item : DebugItem) (value : List Nat) {s : State} (h : s.memWf = true) :
    outMemWf (execDbgWrite core slot item value s) = true := by
  unfold execDbgWrite
  split
  · refine State.overLink_memWf _ _ h ?_
    split
    · exact State.writeItem_memWf _ _ _ _ h
    · exact h
  · rfl

@[simp] theorem State.dropLine_memWf {s : State} (part vline pline : Nat) (h : s.memWf = true) :
    (s.dropLine part vline pline).memWf = true := by
  obtain ⟨hd, hh, hc⟩ := State.memWf_iff.1 h
  exact State.memWf_iff.2 ⟨hd, hh, spadsWf_map (fun _ => rfl) hc⟩

@[simp] theorem State.patchCode_memWf {s : State} (part addr : Nat) (bytes : List Byte) (h : s.memWf = true) :
    (s.patchCode part addr bytes).memWf = true := by
  grind [State.patchCode, State.dropLine_memWf, State.dieWrite_memWf]

theorem execPatch_memWf (part addr : Nat) (bytes : List Byte) {s : State} (h : s.memWf = true) :
    outMemWf (execPatch part addr bytes s) = true := by
  grind [execPatch, outMemWf, State.patchCode_memWf]

theorem MgmtRes.post_memWf {r : MgmtRes} (h : r.state.memWf = true) : r.post.memWf = true := by
  unfold MgmtRes.post
  extract_lets s x at' s1 s2
  have h1 : s1.memWf = true := foldl_memWf _ h fun _ _ ht => State.hostPut_memWf _ _ _ ht
  have h2 : s2.memWf = true := State.hostPut_memWf _ _ _ h1
  split
  · exact h
  · exact State.setHost_memWf h2 (State.host_mem_wf h2 :)

theorem State.partset_memWf {s : State} (p : Mgmt) (h : s.memWf = true) : (s.partset p).state.memWf = true := by
  unfold State.partset
  split
  · exact h
  · extract_lets x load
    have hl : ∀ st, (load st).state.memWf = true := fun st => by
      dsimp only [load]
      split
      · exact h
      · split
        · exact h
        · split
          · exact h
          · exact State.setPartState_memWf _ _ h
    clear_value load
    split
    · exact hl _
    · exact hl _
    · exact h

theorem execPartset_memWf (p : Mgmt) {s : State} (h : s.memWf = true) : outMemWf (execPartset p s) = true :=
  MgmtRes.post_memWf (State.partset_memWf p h)

theorem State.partcmd_memWf {s : State} (p : Mgmt) {f : PartState → MgmtRes} (h : s.memWf = true)
    (hf : ∀ st, (f st).state.memWf = true) : (s.partcmd p f).state.memWf = true := by
  unfold State.partcmd
  split
  · exact h
  · exact hf _

theorem State.drainCmd_memWf {s : State} (p : Mgmt) (h : s.memWf = true) : (s.drainCmd p).state.memWf = true := by
  refine State.partcmd_memWf p h fun st => ?_
  split
  · exact State.setPartState_memWf _ _ h
  · exact h
  · exact h
  · exact h

theorem execPartcmdDrain_memWf (p : Mgmt) {s : State} (h : s.memWf = true) : outMemWf (execPartcmdDrain p s) = true :=
  MgmtRes.post_memWf (State.drainCmd_memWf p h)

theorem State.resumeCmd_memWf {s : State} (p : Mgmt) (h : s.memWf = true) : (s.resumeCmd p).state.memWf = true := by
  unfold State.resumeCmd
  extract_lets s1 _ go
  have hg : go.state.memWf = true :=
    State.setHost_memWf (State.setPartState_memWf p.w1 .active h) (State.host_mem_wf (State.setPartState_memWf p.w1 .active h) :)
  refine State.partcmd_memWf p h fun st => ?_
  split
  · exact h
  · exact hg
  · exact hg
  · exact h

theorem execPartcmdResume_memWf (p : Mgmt) {s : State} (h : s.memWf = true) : outMemWf (execPartcmdResume p s) = true :=
  MgmtRes.post_memWf (State.resumeCmd_memWf p h)

theorem State.resetCmd_memWf {s : State} (p : Mgmt) (h : s.memWf = true) : (s.resetCmd p).state.memWf = true := by
  refine State.partcmd_memWf p h fun st => ?_
  split
  · exact State.beginReset_memWf _ _ h
  · exact h

theorem execPartcmdReset_memWf (p : Mgmt) {s : State} (h : s.memWf = true) : outMemWf (execPartcmdReset p s) = true :=
  MgmtRes.post_memWf (State.resetCmd_memWf p h)

theorem State.releaseCmd_memWf {s : State} (p : Mgmt) (h : s.memWf = true) : (s.releaseCmd p).state.memWf = true := by
  refine State.partcmd_memWf p h fun st => ?_
  split
  · exact State.setPartState_memWf _ _ h
  · exact h

theorem execPartcmdRelease_memWf (p : Mgmt) {s : State} (h : s.memWf = true) :
    outMemWf (execPartcmdRelease p s) = true :=
  MgmtRes.post_memWf (State.releaseCmd_memWf p h)

theorem State.rgnroot_memWf {s : State} (p : Mgmt) (h : s.memWf = true) : (s.rgnroot p).state.memWf = true := by
  unfold State.rgnroot
  split
  · exact h
  · split
    · exact h
    · exact h
    · exact h
    · split
      · exact h
      · next pa _ =>
        have h1 := State.noteRead_memWf pa 256 (State.walked_memWf p.w1 p.w2 .write h)
        dsimp only
        split
        · exact h1
        · split <;> rename_i heq
          · exact h1
          · exact memWf_of_eq_pair (State.regionNew_memWf _ _ _ h1) heq

theorem execRgnroot_memWf (p : Mgmt) {s : State} (h : s.memWf = true) : outMemWf (execRgnroot p s) = true :=
  MgmtRes.post_memWf (State.rgnroot_memWf p h)

theorem State.qcreate_memWf {s : State} (p : Mgmt) (h : s.memWf = true) : (s.qcreate p).state.memWf = true := by
  unfold State.qcreate
  split
  · exact h
  · split
    · exact h
    · exact State.setQueue_memWf _ _ h

theorem execQcreate_memWf (p : Mgmt) {s : State} (h : s.memWf = true) : outMemWf (execQcreate p s) = true :=
  MgmtRes.post_memWf (State.qcreate_memWf p h)

theorem State.queueCmd_memWf {s : State} (p : Mgmt) (n : Nat) {f : Queue → MgmtRes} (h : s.memWf = true)
    (hf : ∀ x, (f x).state.memWf = true) : (s.queueCmd p n f).state.memWf = true := by
  unfold State.queueCmd
  split
  · exact h
  · split
    · exact h
    · exact hf _

theorem State.qdestroy_memWf {s : State} (p : Mgmt) (h : s.memWf = true) : (s.qdestroy p).state.memWf = true := by
  refine State.queueCmd_memWf p 2 h fun x => ?_
  split
  · exact h
  · exact State.setHost_memWf h (State.host_mem_wf h :)

theorem execQdestroy_memWf (p : Mgmt) {s : State} (h : s.memWf = true) : outMemWf (execQdestroy p s) = true :=
  MgmtRes.post_memWf (State.qdestroy_memWf p h)

theorem State.qstart_memWf {s : State} (p : Mgmt) (h : s.memWf = true) : (s.qstart p).state.memWf = true := by
  refine State.queueCmd_memWf p 3 h fun x => ?_
  split
  · exact h
  · split
    · exact h
    · exact State.setQueue_memWf _ _ h

theorem execQstart_memWf (p : Mgmt) {s : State} (h : s.memWf = true) : outMemWf (execQstart p s) = true :=
  MgmtRes.post_memWf (State.qstart_memWf p h)
theorem State.qabort_memWf {s : State} (p : Mgmt) (h : s.memWf = true) : (s.qabort p).state.memWf = true := by
  exact State.queueCmd_memWf p 2 h fun x => State.abandonQueue_memWf _ _ _ _ h
theorem execQabort_memWf (p : Mgmt) {s : State} (h : s.memWf = true) : outMemWf (execQabort p s) = true :=
  MgmtRes.post_memWf (State.qabort_memWf p h)

theorem State.winset_memWf {s : State} (p : Mgmt) (h : s.memWf = true) : (s.winset p).state.memWf = true := by
  unfold State.winset
  split
  · exact h
  · exact State.setHost_memWf h (State.host_mem_wf h :)

theorem execWinset_memWf (p : Mgmt) {s : State} (h : s.memWf = true) : outMemWf (execWinset p s) = true :=
  MgmtRes.post_memWf (State.winset_memWf p h)

theorem State.winclr_memWf {s : State} (p : Mgmt) (h : s.memWf = true) : (s.winclr p).state.memWf = true := by
  unfold State.winclr
  split
  · exact h
  · split
    · exact h
    · exact State.setHost_memWf h (State.host_mem_wf h :)

theorem execWinclr_memWf (p : Mgmt) {s : State} (h : s.memWf = true) : outMemWf (execWinclr p s) = true := by
  unfold execWinclr
  split
  · exact h
  · exact MgmtRes.post_memWf (State.winclr_memWf p h)

theorem State.idxcreate_memWf {s : State} (p : Mgmt) (h : s.memWf = true) : (s.idxcreate p).state.memWf = true := by
  unfold State.idxcreate
  split
  · exact h
  · split
    · exact h
    · split
      · exact h
      · exact State.setIdx_memWf _ _ h

theorem execIdxcreate_memWf (p : Mgmt) {s : State} (h : s.memWf = true) : outMemWf (execIdxcreate p s) = true :=
  MgmtRes.post_memWf (State.idxcreate_memWf p h)

theorem State.idxCmd_memWf {s : State} (p : Mgmt) (n : Nat) {f : Index → MgmtRes} (h : s.memWf = true)
    (hf : ∀ x, (f x).state.memWf = true) : (s.idxCmd p n f).state.memWf = true := by
  unfold State.idxCmd
  split
  · exact h
  · split
    · exact h
    · exact hf _

theorem State.idxresize_memWf {s : State} (p : Mgmt) (h : s.memWf = true) : (s.idxresize p).state.memWf = true := by
  refine State.idxCmd_memWf p 4 h fun x => ?_
  split
  · exact h
  · exact State.setIdx_memWf _ _ h

theorem execIdxresize_memWf (p : Mgmt) {s : State} (h : s.memWf = true) : outMemWf (execIdxresize p s) = true :=
  MgmtRes.post_memWf (State.idxresize_memWf p h)

theorem State.idxdestroy_memWf {s : State} (p : Mgmt) (h : s.memWf = true) : (s.idxdestroy p).memWf = true := by
  unfold State.idxdestroy
  split
  · exact MgmtRes.post_memWf h
  · split
    · exact MgmtRes.post_memWf h
    · split
      · exact State.setIdx_memWf _ _ h
      · exact MgmtRes.post_memWf (State.setRetr_memWf _ h :)

theorem execIdxdestroy_memWf (p : Mgmt) {s : State} (h : s.memWf = true) : outMemWf (execIdxdestroy p s) = true :=
  State.idxdestroy_memWf p h

theorem State.objEvent_memWf {s : State} (p : Mgmt) (contents : Option (List Byte)) (h : s.memWf = true) :
    (s.objEvent p contents).state.memWf = true :=
  State.idxCmd_memWf p 5 h fun x => by
    split
    · exact h
    · exact State.setIdx_memWf _ _ (State.takePages_memWf _ h)

theorem MgmtRes.programmed_memWf {r : MgmtRes} {s : State} (ok : Bool) (h : s.memWf = true)
    (hr : r.state.memWf = true) :
    (r.programmed s ok).state.memWf = true := by
  unfold MgmtRes.programmed
  split
  · exact h
  · exact hr

theorem State.objwrite_memWf {s : State} (p : FlashCmd) (h : s.memWf = true) : (s.objwrite p).state.memWf = true := by
  exact MgmtRes.programmed_memWf p.ok h (State.objEvent_memWf _ _ h)
theorem execObjwrite_memWf (p : FlashCmd) {s : State} (h : s.memWf = true) : outMemWf (execObjwrite p s) = true :=
  MgmtRes.post_memWf (State.objwrite_memWf p h)
theorem execObjdrop_memWf (p : Mgmt) {s : State} (h : s.memWf = true) : outMemWf (execObjdrop p s) = true :=
  MgmtRes.post_memWf (State.objEvent_memWf p none h)
theorem State.idxclear_memWf {s : State} (p : Mgmt) (h : s.memWf = true) : (s.idxclear p).state.memWf = true := by
  exact State.idxCmd_memWf p 2 h fun x => State.setIdx_memWf _ _ h
theorem execIdxclear_memWf (p : Mgmt) {s : State} (h : s.memWf = true) : outMemWf (execIdxclear p s) = true :=
  MgmtRes.post_memWf (State.idxclear_memWf p h)

theorem State.attest_memWf {s : State} (p : Mgmt) (h : s.memWf = true) : (s.attest p).state.memWf = true := by
  unfold State.attest
  split
  · exact h
  · exact State.hostBytes_memWf _ _ h

theorem execAttest_memWf (p : Mgmt) {s : State} (h : s.memWf = true) : outMemWf (execAttest p s) = true :=
  MgmtRes.post_memWf (State.attest_memWf p h)

theorem State.fwload_memWf {s : State} (p : FlashCmd) (h : s.memWf = true) : (s.fwload p).state.memWf = true := by
  unfold State.fwload
  split
  · exact h
  · extract_lets x bs y
    split
    · exact MgmtRes.programmed_memWf p.ok h (State.setHost_memWf h (State.host_mem_wf h :) :)
    · exact h

theorem execFwload_memWf (p : FlashCmd) {s : State} (h : s.memWf = true) : outMemWf (execFwload p s) = true :=
  MgmtRes.post_memWf (State.fwload_memWf p h)

theorem State.keyrevoke_memWf {s : State} (p : Mgmt) (h : s.memWf = true) : (s.keyrevoke p).state.memWf = true := by
  unfold State.keyrevoke
  split
  · exact h
  · extract_lets x
    split
    · exact State.setHost_memWf h (State.host_mem_wf h :)
    · exact h

theorem execKeyrevoke_memWf (p : Mgmt) {s : State} (h : s.memWf = true) : outMemWf (execKeyrevoke p s) = true :=
  MgmtRes.post_memWf (State.keyrevoke_memWf p h)
@[simp] theorem State.noteMedia_memWf {s : State} (r : FlashRead) (h : s.memWf = true) :
    (s.noteMedia r).memWf = true := by
  grind [State.noteMedia, State.traceEvent_memWf, State.idxCount_memWf, State.setHost_memWf, State.host_mem_wf]

@[simp] theorem State.abandonPass_memWf {s : State} (n : Nat) (h : s.memWf = true) :
    (s.abandonPass n).memWf = true := by
  unfold State.abandonPass
  split
  · exact h
  · split
    · exact h
    · exact foldl_memWf _ (State.traceEvent_memWf _ _ _ _ _ _ (State.setRetr_memWf _ (State.idxCount_memWf _ _ _
        (State.setIdx_memWf _ _ h)))) fun _ _ ht => State.endCmd_memWf _ _ _ _ ht

@[simp] theorem State.queriesFail_memWf {s : State} (cmds : List Nat) (h : s.memWf = true) :
    (s.queriesFail cmds).memWf = true :=
  foldl_memWf _ h fun t u ht => by
    split
    · split
      · exact State.endCmd_memWf _ _ _ _ ht
      · exact ht
    · exact ht

@[simp] theorem State.dropReads_memWf {s : State} (uid : Nat) (h : s.memWf = true) :
    (s.dropReads uid).memWf = true := by
  simp [State.dropReads, h]

@[simp] theorem State.readFails_memWf {s : State} (r : FlashRead) (h : s.memWf = true) :
    (s.readFails r).memWf = true := by
  have h1 := State.noteMedia_memWf r h
  unfold State.readFails
  dsimp only
  split
  · exact State.queriesFail_memWf _ h1
  · exact State.queriesFail_memWf _ h1
  · exact foldl_memWf _ h1 fun t u ht => by
      split
      · exact State.endCmd_memWf _ _ _ _ (State.dropReads_memWf _ ht)
      · exact ht
  · exact h1
  · exact State.abandonPass_memWf _ h1

@[simp] theorem State.readDecodes_memWf {s : State} (r : FlashRead) (h : s.memWf = true) :
    (s.readDecodes r).memWf = true := by
  grind [State.readDecodes, State.setRetr_memWf, State.setIdx_memWf]

theorem execFlashRead_memWf (controller : Nat) (ok : Bool) {s : State} (h : s.memWf = true) :
    outMemWf (execFlashRead controller ok s) = true := by
  grind [execFlashRead, outMemWf, State.setRetr_memWf, State.readDecodes_memWf, State.idxCount_memWf, State.traceEvent_memWf,
    State.readFails_memWf]

@[simp] theorem State.prefetchSeams_memWf {s : State} (n : Nat) (v : Version) (p : Pocket) (seq : Nat)
    (h : s.memWf = true) :
    (s.prefetchSeams n v p seq).memWf = true :=
  foldl_memWf _ h fun t u ht => by
    split
    · exact ht
    · split
      · exact State.traceEvent_memWf _ _ _ _ _ _ (State.idxCount_memWf _ _ _ ht)
      · split
        · exact ht
        · split
          · exact ht
          · exact State.idxCount_memWf _ _ _ (State.setRetr_memWf _ ht)

@[simp] theorem State.scanFor_memWf {s : State} (x : Index) (v : Version) (p : Pocket) (ms : List Member) (uid : Nat)
    (h : s.memWf = true) :
    (s.scanFor x v p ms uid).memWf = true := by
  grind [State.scanFor, State.endCmd_memWf, State.setCmd_memWf, State.prefetchSeams_memWf]

@[simp] theorem State.leavePocket_memWf {s : State} (uid : Nat) (h : s.memWf = true) :
    (s.leavePocket uid).memWf = true := by
  grind [State.leavePocket, State.goOn_memWf, State.idxCount_memWf, State.setCmd_memWf]

@[simp] theorem State.takeLog_memWf {s : State} (x : Index) (page uid : Nat) (h : s.memWf = true) :
    (s.takeLog x page uid).memWf = true := by
  grind [State.takeLog, State.endCmd_memWf, State.goOn_memWf, State.setCmd_memWf]

@[simp] theorem State.scanPage_memWf {s : State} (r : FlashRead) (h : s.memWf = true) :
    (s.scanPage r).memWf = true := by
  unfold State.scanPage
  split
  · exact foldl_memWf _ h fun _ _ ht => State.takeLog_memWf _ _ _ ht
  · extract_lets v
    split
    · exact h
    · extract_lets ms s1 live
      have h1 : s1.memWf = true :=
        State.idxCount_memWf _ _ _ (foldl_memWf _ h fun _ _ ht => State.scanFor_memWf _ _ _ _ _ ht)
      split
      · split
        · exact h1
        · exact State.askPage_memWf _ _ _ _ _ h1
      · exact foldl_memWf _ h1 fun _ _ ht => State.leavePocket_memWf _ ht
  · exact h

theorem execTraversalStep_memWf (controller : Nat) {s : State} (h : s.memWf = true) :
    outMemWf (execTraversalStep controller s) = true := by
  grind [execTraversalStep, outMemWf, State.scanPage_memWf, State.setRetr_memWf]

theorem execBatchRelease_memWf (controller : Nat) {s : State} (h : s.memWf = true) :
    outMemWf (execBatchRelease controller s) = true := by
  grind [execBatchRelease, outMemWf, State.setRetr_memWf, State.askPage_memWf]

theorem onHandle_memWf {s : State} (n : Nat) {f : Index → State} (h : s.memWf = true) (hf : ∀ x, (f x).memWf = true) :
    outMemWf (onHandle s n f) = true := by
  unfold onHandle
  split
  · rfl
  · split
    · exact hf _
    · exact h

@[simp] theorem State.commitAppend_memWf {s : State} (h : Nat) (x : Index) (hs : s.memWf = true) :
    (s.commitAppend h x).memWf = true := by
  grind [State.commitAppend, State.setIdx_memWf, State.endCmd_memWf]

theorem execAppendCommit_memWf (handle : Nat) {s : State} (h : s.memWf = true) :
    outMemWf (execAppendCommit handle s) = true :=
  onHandle_memWf _ h fun x => State.commitAppend_memWf _ x h

@[simp] theorem State.startPass_memWf {s : State} (h : Nat) (x : Index) (hs : s.memWf = true) :
    (s.startPass h x).memWf = true := by
  simp [State.startPass, hs]

theorem execDarningPass_memWf (handle : Nat) {s : State} (h : s.memWf = true) :
    outMemWf (execDarningPass handle s) = true :=
  onHandle_memWf _ h fun x => State.startPass_memWf _ x h

@[simp] theorem State.switchPass_memWf {s : State} (n : Nat) (x : Index) (h : s.memWf = true) :
    (s.switchPass n x).memWf = true := by
  unfold State.switchPass
  split
  · exact h
  · split
    · exact h
    · exact foldl_memWf _ (State.traceEvent_memWf _ _ _ _ _ _ (State.setIdx_memWf _ _ (State.keepCopies_memWf _ _
        (State.takeArea_memWf _ (State.takePages_memWf _ h))))) fun _ _ ht => State.endCmd_memWf _ _ _ _ ht

theorem execDarnSwitch_memWf (handle : Nat) {s : State} (h : s.memWf = true) :
    outMemWf (execDarnSwitch handle s) = true :=
  onHandle_memWf _ h fun x => State.switchPass_memWf _ x h
theorem execVersionReclaim_memWf (handle : Nat) {s : State} (h : s.memWf = true) :
    outMemWf (execVersionReclaim handle s) = true :=
  onHandle_memWf _ h fun _ => State.setIdx_memWf _ _ h

@[simp] theorem State.fetchObject_memWf {s : State} (c : RetrCmd) (x : Index) (h : s.memWf = true) :
    (s.fetchObject c x).memWf = true := by
  grind [State.fetchObject, State.endCmd_memWf, State.dieWrite_memWf]

theorem execKvfFetch_memWf (controller place : Nat) {s : State} (h : s.memWf = true) :
    outMemWf (execKvfFetch controller place s) = true := by
  grind [execKvfFetch, outMemWf, State.endCmd_memWf, State.dropReads_memWf, State.fetchObject_memWf]

@[simp] theorem State.dropCompletion_memWf {s : State} (c : RetrCmd) (va : Nat) (h : s.memWf = true) :
    (s.dropCompletion c va).memWf = true := by
  simp [State.dropCompletion, h]

@[simp] theorem State.writeCompletion_memWf {s : State} (c : RetrCmd) (r : Completion) (h : s.memWf = true) :
    (s.writeCompletion c r).memWf = true := by
  grind [State.writeCompletion, State.noteRead_memWf, State.ctlPlace_memWf, State.dropCompletion_memWf, State.diePut_memWf,
    State.dieWrite_memWf, State.setRetr_memWf]

theorem execCompletionWrite_memWf (controller : Nat) {s : State} (h : s.memWf = true) :
    outMemWf (execCompletionWrite controller s) = true := by
  grind [execCompletionWrite, outMemWf, State.writeCompletion_memWf]

theorem execIcacheFill_memWf (core line : Nat) {s : State} (h : s.memWf = true) :
    outMemWf (execIcacheFill core line s) = true := by
  grind [execIcacheFill, outMemWf, State.atCore_memWf, State.fillCapture_memWf]

@[simp] theorem State.fillBlockLine_memWf {s : State} (line : Nat) (h : s.memWf = true) :
    (s.fillBlockLine line).memWf = true := by
  grind [State.fillBlockLine, State.here_spad_wf, State.fillLine_memWf, State.setHere_memWf, State.core_spad_wf]

theorem execBlockCacheFill_memWf (core line : Nat) {s : State} (h : s.memWf = true) :
    outMemWf (execBlockCacheFill core line s) = true := by
  grind [execBlockCacheFill, outMemWf, State.atCore_memWf, State.fillBlockLine_memWf]

@[simp] theorem State.generatorRead_memWf {s : State} (port : Nat) (h : s.memWf = true) :
    (s.generatorRead port).memWf = true := by
  simp [State.generatorRead, h]

theorem execGeneratorRead_memWf (core port : Nat) {s : State} (h : s.memWf = true) :
    outMemWf (execGeneratorRead core port s) = true := by
  grind [execGeneratorRead, outMemWf, State.atCore_memWf, State.generatorRead_memWf]

theorem execPageWalk_memWf (core addr : Nat) {s : State} (h : s.memWf = true) :
    outMemWf (execPageWalk core addr s) = true := by
  grind [execPageWalk, outMemWf, State.atCore_memWf, State.translate_memWf]

end Sys2Proof.Machine
end

section
/-! SUPPORT. What every instruction, event and command answers: a next state where the places it names exist (R9, R41), and one whose
memories are in canonical form where they were. -/

namespace Sys2Proof.Machine
open Sys2Proof

/-- An instruction, event or command that answers a next state keeps every memory in canonical form. -/
theorem exec_memWf (i : Instr) {s : State} (h : s.memWf = true) : outMemWf (exec i s) = true := by
  cases i with simp only [exec]
  | nop w | pcadd w => exact State.run_memWf h h
  | add w | sub w | and w | or w | xor w | andn w | shl w | shrl w | shra w | min w | max w | minn w | maxn w | sel w
  | mov w | mul w | mulh w | mulhn w | div w | divn w | rem w | remn w | clz w | ctz w | popc w | sext w | cmpeq w | cmpne w
  | cmplt w | cmple w | cmpltn w | cmplen w | addi w | andi w | ori w | xori w | shli w | shrli w | shrai w | movi w
  | movhi w | cmpeqi w | cmplti w | cmpltni w | muli w | lea w => exact State.alu_memWf h
  | ld8 w | ld8s w | ld16 w | ld16s w | ld32 w | ld32s w | ld64 w => exact State.scalarLoad_memWf _ _ _ _ h
  | st8 w | st16 w | st32 w | st64 w => exact State.scalarStore_memWf _ _ _ h
  | ldlk w => exact execLdlk_memWf w h
  | stul w => exact execStul_memWf w h
  | ldblk w => exact execLdblk_memWf w h
  | amoadd w | amoand w | amoor w | amoxor w | amomin w | amomax w | amoswp w | amocas w => exact State.atomic_memWf _ _ _ h
  | br w => exact execBr_memWf w h
  | bt w | bf w | jr w => exact State.branch_memWf _ _ _ _ h
  | loop w => exact execLoop_memWf w h
  | done w | modex w | modei w => exact State.control_memWf h rfl
  | trap w => exact execTrap_memWf w h
  | eret w => exact execEret_memWf w h
  | brk w => exact execBrk_memWf w h
  | mfsr w => exact execMfsr_memWf w h
  | mtsr w => exact execMtsr_memWf w h
  | post w => exact execPost_memWf w h
  | await w => exact execAwait_memWf w h
  | awaitp w => exact execAwaitp_memWf w h
  | tksend w => exact execTksend_memWf w h
  | bind w => exact execBind_memWf w h
  | acqX w | acqS w => exact State.acquire_memWf _ _ _ h
  | rel w => exact execRel_memWf w h
  | fence w => exact execFence_memWf w h
  | publish w => exact execPublish_memWf w h
  | icflush w => exact execIcflush_memWf w h
  | cbsync w => exact execCbsync_memWf w h
  | xsched w => exact execXsched_memWf w h
  | xstage w => exact execXstage_memWf w h
  | ringset w => exact execRingset_memWf w h
  | awfill w => exact execAwfill_memWf w h
  | rlslot w => exact execRlslot_memWf w h
  | xstat w => exact execXstat_memWf w h
  | vadd w | vsub w | vmul w | vfma w | vfms w | vmin w | vmax w | vabs w | vneg w | vadds w | vsubs w | vmulh w | vdiv w
  | vsqrt w | vrcp w | vrsq w | vexp2 w | vlog2 w | vand w | vor w | vxor w | vshl w | vshrl w | vshra w | vmov w | vbcast w =>
    exact State.lanewise_memWf h
  | vsel w => exact execVsel_memWf w h
  | vcmpeq w | vcmpne w | vcmplt w | vcmple w => exact State.vcompare_memWf h
  | vclass w => exact execVclass_memWf w h
  | vcvt w => exact execVcvt_memWf w h
  | vextr w => exact execVextr_memWf w h
  | vins w => exact execVins_memWf w h
  | vcomp w => exact execVcomp_memWf w h
  | vexpd w => exact execVexpd_memWf w h
  | vperm w => exact execVperm_memWf w h
  | viota w => exact execViota_memWf w h
  | vredadd w | vredmax w | vredmin w => exact State.reduce_memWf h
  | kand w | kor w | kxor w | knot w => exact State.maskOp_memWf h
  | kmov w => exact execKmov_memWf w h
  | kpop w => exact execKpop_memWf w h
  | vld w => exact execVld_memWf w h
  | vst w => exact execVst_memWf w h
  | vlds w => exact execVlds_memWf w h
  | vsts w => exact execVsts_memWf w h
  | vgath w => exact execVgath_memWf w h
  | vscat w => exact execVscat_memWf w h
  | vscatadd w => exact execVscatadd_memWf w h
  | vspill w => exact execVspill_memWf w h
  | vfill w => exact execVfill_memWf w h
  | vldp w => exact execVldp_memWf w h
  | vstp w => exact execVstp_memWf w h
  | pset w => exact execPset_memWf w h
  | nld w => exact execNld_memWf w h
  | nst w => exact execNst_memWf w h
  | tmma w => exact execTmma_memWf w h
  | tfmul w => exact execTfmul_memWf w h
  | tfadd w => exact execTfadd_memWf w h
  | tpmul w => exact execTpmul_memWf w h
  | tadd w => exact execTadd_memWf w h
  | trecmp w | tfact w => exact State.recompressTile_memWf h
  | tzero w => exact execTzero_memWf w h
  | tmov w => exact execTmov_memWf w h
  | tld w => exact execTld_memWf w h
  | tst w => exact execTst_memWf w h
  | trdrow w => exact execTrdrow_memWf w h
  | twrrow w => exact execTwrrow_memWf w h
  | tdense w => exact execTdense_memWf w h
  | trank w => exact execTrank_memWf w h
  | tlimit w => exact execTlimit_memWf w h
  | tpred w => exact execTpred_memWf w h
  | tfree w => exact execTfree_memWf w h
  | spawn w => exact execSpawn_memWf w h
  | spawnj w => exact execSpawnj_memWf w h
  | sigj w => exact execSigj_memWf w h
  | enq w => exact execEnq_memWf w h
  | jstat w => exact execJstat_memWf w h
  | yield w => exact execYield_memWf w h
  | rgnnew w => exact execRgnnew_memWf w h
  | rgnset w => exact execRgnset_memWf w h
  | rgnget w => exact execRgnget_memWf w h
  | rgnkill w => exact execRgnkill_memWf w h
  | pxpush w => exact execPxpush_memWf w h
  | pxflush w => exact execPxflush_memWf w h
  | srch w | ins w | del w | kvf w | darn w => exact State.retrieve_memWf _ _ _ h
  | rpop w => exact execRpop_memWf w h
  | rstat w => exact execRstat_memWf w h
  | genq w => exact execGenq_memWf w h
  | resultLand core => exact execResultLand_memWf core h
  | modeBarrierPass core => exact execModeBarrierPass_memWf core h
  | taskComplete core => exact execTaskComplete_memWf core h
  | eretReturn core => exact execEretReturn_memWf core h
  | icacheFill core line => exact execIcacheFill_memWf core line h
  | timerFire core => exact execTimerFire_memWf core h
  | trapEntry core => exact execTrapEntry_memWf core h
  | guardGrant guard => exact execGuardGrant_memWf guard h
  | lockRetry core stream => exact execLockRetry_memWf core stream h
  | blockCacheFill core line => exact execBlockCacheFill_memWf core line h
  | generatorRead core port => exact execGeneratorRead_memWf core port h
  | matrixStep core => exact execMatrixStep_memWf core h
  | pageWalk core addr => exact execPageWalk_memWf core addr h
  | recordStart core => exact execRecordStart_memWf core h
  | sequencerUnit core => exact execSequencerUnit_memWf core h
  | recordComplete core => exact execRecordComplete_memWf core h
  | preempt core => exact execPreempt_memWf core h
  | contextSave core => exact execContextSave_memWf core h
  | contextRestore core => exact execContextRestore_memWf core h
  | arm core slot cycle triggers => exact execArm_memWf core slot cycle triggers h
  | disarm core slot => exact execDisarm_memWf core slot h
  | halt core slot => exact execHalt_memWf core slot h
  | dbgRead core slot item => exact execDbgRead_memWf core slot item h
  | dbgWrite core slot item value => exact execDbgWrite_memWf core slot item value h
  | resume core slot => exact execResume_memWf core slot h
  | dbgStep core slot count => exact execDbgStep_memWf core slot count h
  | clrprof core slot => exact execClrprof_memWf core slot h
  | debugStop core => exact execDebugStop_memWf core h
  | patch part addr bytes => exact execPatch_memWf part addr bytes h
  | placement core => exact execPlacement_memWf core h
  | recordMove cluster => exact execRecordMove_memWf cluster h
  | balanceEpoch cluster => exact execBalanceEpoch_memWf cluster h
  | proxyForward part desc => exact execProxyForward_memWf part desc h
  | proxyAccept cluster entries => exact execProxyAccept_memWf cluster entries h
  | proxyLoss part desc => exact execProxyLoss_memWf part desc h
  | llcOperation addr access => exact execLlcOperation_memWf addr access h
  | ctrl slice value => exact execCtrl_memWf slice value h
  | tlbinv value => exact execTlbinv_memWf value h
  | tlbinvst value => exact execTlbinvst_memWf value h
  | tlbInvalidation => exact execTlbInvalidation_memWf h
  | reserve gang cluster => exact execReserve_memWf gang cluster h
  | commit gang cluster time => exact execCommit_memWf gang cluster time h
  | rollback gang cluster => exact execRollback_memWf gang cluster h
  | gangStart gang cluster => exact execGangStart_memWf gang cluster h
  | gangTimeout gang => exact execGangTimeout_memWf gang h
  | commandAccept => exact execCommandAccept_memWf h
  | flashRead controller ok => exact execFlashRead_memWf controller ok h
  | traversalStep controller => exact execTraversalStep_memWf controller h
  | batchRelease controller => exact execBatchRelease_memWf controller h
  | appendCommit handle => exact execAppendCommit_memWf handle h
  | darningPass handle => exact execDarningPass_memWf handle h
  | darnSwitch handle => exact execDarnSwitch_memWf handle h
  | versionReclaim handle => exact execVersionReclaim_memWf handle h
  | kvfFetch controller place => exact execKvfFetch_memWf controller place h
  | completionWrite controller => exact execCompletionWrite_memWf controller h
  | registerWrite offset value => exact execRegisterWrite_memWf offset value h
  | mgmtdb value => exact execMgmtdb_memWf value h
  | reboot value => exact execReboot_memWf value h
  | preset value => exact execPreset_memWf value h
  | modreset value => exact execModreset_memWf value h
  | doorbell queue value => exact execDoorbell_memWf queue value h
  | hostAccess addr size data => exact execHostAccess_memWf addr size data h
  | nopPacket queue => exact execNopPacket_memWf queue h
  | launch queue => exact execLaunch_memWf queue h
  | ib queue => exact execIb_memWf queue h
  | pktPred queue => exact execPktPred_memWf queue h
  | loopPacket queue => exact execLoopPacket_memWf queue h
  | waitmem queue => exact execWaitmem_memWf queue h
  | waitmemPoll queue => exact execWaitmemPoll_memWf queue h
  | writemem queue => exact execWritemem_memWf queue h
  | signal queue => exact execSignal_memWf queue h
  | timestamp queue => exact execTimestamp_memWf queue h
  | fetchfence queue => exact execFetchfence_memWf queue h
  | windowFetch queue => exact execWindowFetch_memWf queue h
  | heartbeat => exact execHeartbeat_memWf h
  | mittenTakeover => exact execMittenTakeover_memWf h
  | mittenbeat => exact execMittenbeat_memWf h
  | crownReturn => exact execCrownReturn_memWf h
  | gauntletExpiry queue => exact execGauntletExpiry_memWf queue h
  | resetTimeout part => exact execResetTimeout_memWf part h
  | partitionDrained part => exact execPartitionDrained_memWf part h
  | functionLevelReset => exact execFunctionLevelReset_memWf h
  | perst => exact execPerst_memWf h
  | powerGood => exact execPowerGood_memWf h
  | throttle celsius => exact execThrottle_memWf celsius h
  | mirrorUpdate => exact execMirrorUpdate_memWf h
  | partset p => exact execPartset_memWf p h
  | partcmdDrain p => exact execPartcmdDrain_memWf p h
  | partcmdResume p => exact execPartcmdResume_memWf p h
  | partcmdReset p => exact execPartcmdReset_memWf p h
  | partcmdRelease p => exact execPartcmdRelease_memWf p h
  | rgnroot p => exact execRgnroot_memWf p h
  | qcreate p => exact execQcreate_memWf p h
  | qdestroy p => exact execQdestroy_memWf p h
  | qstart p => exact execQstart_memWf p h
  | qabort p => exact execQabort_memWf p h
  | winset p => exact execWinset_memWf p h
  | winclr p => exact execWinclr_memWf p h
  | idxcreate p => exact execIdxcreate_memWf p h
  | idxresize p => exact execIdxresize_memWf p h
  | idxdestroy p => exact execIdxdestroy_memWf p h
  | objwrite p => exact execObjwrite_memWf p h
  | objdrop p => exact execObjdrop_memWf p h
  | idxclear p => exact execIdxclear_memWf p h
  | attest p => exact execAttest_memWf p h
  | fwload p => exact execFwload_memWf p h
  | keyrevoke p => exact execKeyrevoke_memWf p h
  | lsgo part value => exact execLsgo_memWf part value h
  | lsgoLoad => exact execLsgoLoad_memWf h
  | runEntry link => exact execRunEntry_memWf link h
  | linkEvent link event => exact execLinkEvent_memWf link event h
  | powerLoss => exact execPowerLoss_memWf h
  | coolantFlowFails => exact execCoolantFlowFails_memWf h
  | hwError scope ident => exact execHwError_memWf scope ident h

/-- What an instruction, event or command is to answer: a next state where the places it names exist, as for every instruction of
code; else the refusal. -/
def Answers (i : Instr) (o : Out) : Prop :=
  (i.placed = true ∧ ∃ t, o = .next t) ∨ (i.placed = false ∧ i.code? = none ∧ o = .refused .noSuchPlace)

section
variable {i : Instr} {o : Out} {s : State}

theorem answers_next (hp : i.placed = true) (ho : ∃ t, o = .next t) : Answers i o := .inl ⟨hp, ho⟩

theorem answers_ite {p : Prop} [Decidable p] (hc : i.code? = none) (hp : i.placed = decide p) (ho : ∃ t, o = .next t) :
    Answers i (if p then o else .refused .noSuchPlace) := by
  split
  · next h => exact .inl ⟨hp.trans (decide_eq_true h), ho⟩
  · next h => exact .inr ⟨hp.trans (decide_eq_false h), hc, rfl⟩

theorem answers_lt {x n : Nat} {t : State} (hc : i.code? = none) (hp : i.placed = decide (x < n)) :
    Answers i (if x < n then .next t else .refused .noSuchPlace) := answers_ite hc hp ⟨_, rfl⟩

theorem answers_ge {x n : Nat} (hc : i.code? = none) (hp : i.placed = decide (x < n)) (ho : ∃ t, o = .next t) :
    Answers i (if n ≤ x then .refused .noSuchPlace else o) := by
  split
  · next h => exact .inr ⟨hp.trans (decide_eq_false (Nat.not_lt.2 h)), hc, rfl⟩
  · next h => exact .inl ⟨hp.trans (decide_eq_true (Nat.not_le.1 h)), ho⟩

theorem answers_atCore {n : Nat} {f : State → State} (hc : i.code? = none) (hp : i.placed = decide (n < 128)) :
    Answers i (s.atCore n f) := answers_ite hc hp ⟨_, rfl⟩

theorem answers_atCoreUnless {n x b : Nat} {f : State → State} (hc : i.code? = none)
    (hp : i.placed = (decide (n < 128) && decide (x < b))) :
    Answers i (if b ≤ x then .refused .noSuchPlace else s.atCore n f) := by
  split
  · next h => exact .inr ⟨by simp [hp, Nat.not_lt.2 h], hc, rfl⟩
  · next h => exact answers_atCore hc (by simp [hp, Nat.not_le.1 h])

theorem answers_slot {core slot : Nat} {t : State} (hc : i.code? = none)
    (hp : i.placed = (decide (core < 128) && decide (slot < 2))) :
    Answers i (if core < 128 ∧ slot < 2 then .next t else .refused .noSuchPlace) :=
  answers_ite hc (hp.trans (Bool.decide_and _ _).symm) ⟨_, rfl⟩

theorem answers_atCtx {j : Instr} {core slot : Nat} {f : Ctx → Ctx} (hc : i.code? = none)
    (hp : i.placed = (decide (core < 128) && decide (slot < 2))) : Answers i (s.atCtx j core slot f) := answers_slot hc hp
theorem answers_atCtxGo {j : Instr} {core slot : Nat} {f : Ctx → Ctx} (hc : i.code? = none)
    (hp : i.placed = (decide (core < 128) && decide (slot < 2))) : Answers i (s.atCtxGo j core slot f) := answers_slot hc hp
theorem answers_withPacket {q kind : Nat} {f : Queue → Packet → State} (hc : i.code? = none)
    (hp : i.placed = decide (q < 1024)) : Answers i (s.withPacket q kind f) := answers_ge hc hp ⟨_, rfl⟩

theorem answers_onHandle {n : Nat} {f : Index → State} (hc : i.code? = none) (hp : i.placed = decide (n < 1024)) :
    Answers i (onHandle s n f) := by
  refine answers_ge hc hp ?_
  split <;> exact ⟨_, rfl⟩
end

theorem execGuardGrant_answers (guard : Nat) (s : State) : Answers (.guardGrant guard) (execGuardGrant guard s) := by
  refine answers_next rfl ?_
  unfold execGuardGrant
  split <;> exact ⟨_, rfl⟩

theorem execLlcOperation_answers (addr : Nat) (access : LlcAccess) (s : State) :
    Answers (.llcOperation addr access) (execLlcOperation addr access s) := by
  refine answers_ge rfl rfl ?_
  dsimp only
  repeat' split
  all_goals exact ⟨_, rfl⟩

theorem execCommandAccept_answers (s : State) : Answers .commandAccept (execCommandAccept s) := by
  refine answers_next rfl ?_
  unfold execCommandAccept
  split <;> exact ⟨_, rfl⟩

theorem execFlashRead_answers (controller : Nat) (ok : Bool) (s : State) :
    Answers (.flashRead controller ok) (execFlashRead controller ok s) := by
  refine answers_ge rfl rfl ?_
  split <;> exact ⟨_, rfl⟩

theorem execTraversalStep_answers (controller : Nat) (s : State) :
    Answers (.traversalStep controller) (execTraversalStep controller s) := by
  refine answers_ge rfl rfl ?_
  split <;> exact ⟨_, rfl⟩

theorem execBatchRelease_answers (controller : Nat) (s : State) :
    Answers (.batchRelease controller) (execBatchRelease controller s) := by
  refine answers_ge rfl rfl ?_
  split
  · exact ⟨_, rfl⟩
  · dsimp only
    split <;> exact ⟨_, rfl⟩

theorem execKvfFetch_answers (controller place : Nat) (s : State) :
    Answers (.kvfFetch controller place) (execKvfFetch controller place s) := by
  refine answers_ge rfl rfl ?_
  split
  · exact ⟨_, rfl⟩
  · split <;> exact ⟨_, rfl⟩

theorem execCompletionWrite_answers (controller : Nat) (s : State) :
    Answers (.completionWrite controller) (execCompletionWrite controller s) := by
  refine answers_ge rfl rfl ?_
  split
  · exact ⟨_, rfl⟩
  · split <;> exact ⟨_, rfl⟩

theorem exec_answers (i : Instr) (s : State) : Answers i (exec i s) := by
  cases i with simp only [exec]
  | nop _ | add _ | sub _ | and _ | or _ | xor _ | andn _ | shl _ | shrl _ | shra _ | min _ | max _ | minn _ | maxn _
  | sel _ | mov _ | mul _ | mulh _ | mulhn _ | div _ | divn _ | rem _ | remn _ | clz _ | ctz _ | popc _ | sext _ | cmpeq _
  | cmpne _ | cmplt _ | cmple _ | cmpltn _ | cmplen _ | addi _ | andi _ | ori _ | xori _ | shli _ | shrli _ | shrai _
  | movi _ | movhi _ | cmpeqi _ | cmplti _ | cmpltni _ | muli _ | lea _ | pcadd _ | ld8 _ | ld8s _ | ld16 _ | ld16s _
  | ld32 _ | ld32s _ | ld64 _ | st8 _ | st16 _ | st32 _ | st64 _ | ldlk _ | stul _ | ldblk _ | amoadd _ | amoand _ | amoor _
  | amoxor _ | amomin _ | amomax _ | amoswp _ | amocas _ | br _ | bt _ | bf _ | jr _ | loop _ | done _ | modex _ | modei _
  | trap _ | eret _ | brk _ | mfsr _ | mtsr _ | post _ | await _ | awaitp _ | tksend _ | bind _ | acqX _ | acqS _ | rel _
  | fence _ | publish _ | icflush _ | cbsync _ | xsched _ | xstage _ | ringset _ | awfill _ | rlslot _ | xstat _ | vadd _
  | vsub _ | vmul _ | vfma _ | vfms _ | vmin _ | vmax _ | vabs _ | vneg _ | vadds _ | vsubs _ | vmulh _ | vdiv _ | vsqrt _
  | vrcp _ | vrsq _ | vexp2 _ | vlog2 _ | vand _ | vor _ | vxor _ | vshl _ | vshrl _ | vshra _ | vsel _ | vcmpeq _
  | vcmpne _ | vcmplt _ | vcmple _ | vclass _ | vcvt _ | vmov _ | vbcast _ | vextr _ | vins _ | vcomp _ | vexpd _ | vperm _
  | viota _ | vredadd _ | vredmax _ | vredmin _ | kand _ | kor _ | kxor _ | knot _ | kmov _ | kpop _ | vld _ | vst _
  | vlds _ | vsts _ | vgath _ | vscat _ | vscatadd _ | vspill _ | vfill _ | vldp _ | vstp _ | pset _ | nld _ | nst _
  | tmma _ | tfmul _ | tfadd _ | tpmul _ | tadd _ | trecmp _ | tfact _ | tzero _ | tmov _ | tld _ | tst _ | trdrow _
  | twrrow _ | tdense _ | trank _ | tlimit _ | tpred _ | tfree _ | spawn _ | spawnj _ | sigj _ | enq _ | jstat _ | yield _
  | rgnnew _ | rgnset _ | rgnget _ | rgnkill _ | pxpush _ | pxflush _ | srch _ | ins _ | del _ | kvf _ | darn _ | rpop _
  | rstat _ | genq _ | tlbinv _ | tlbinvst _ | tlbInvalidation | gangTimeout _ | registerWrite _ _ | mgmtdb _ | reboot _
  | preset _ | modreset _ | hostAccess _ _ _ | heartbeat | mittenTakeover | mittenbeat | crownReturn | functionLevelReset
  | perst | powerGood | throttle _ | mirrorUpdate | partset _ | partcmdDrain _ | partcmdResume _ | partcmdReset _
  | partcmdRelease _ | rgnroot _ | qcreate _ | qdestroy _ | qstart _ | qabort _ | winset _ | winclr _ | idxcreate _
  | idxresize _ | idxdestroy _ | objwrite _ | objdrop _ | idxclear _ | attest _ | fwload _ | keyrevoke _ | lsgoLoad
  | powerLoss | coolantFlowFails | hwError _ _ => exact answers_next rfl ⟨_, rfl⟩
  | resultLand _ | modeBarrierPass _ | taskComplete _ | eretReturn _ | icacheFill _ _ | timerFire _ | trapEntry _
  | blockCacheFill _ _ | matrixStep _ | pageWalk _ _ | recordStart _ | sequencerUnit _ | recordComplete _ | preempt _
  | contextSave _ | contextRestore _ | debugStop _ | placement _ => exact answers_atCore rfl rfl
  | guardGrant guard => exact execGuardGrant_answers guard s
  | lockRetry _ _ | generatorRead _ _ => exact answers_atCoreUnless rfl rfl
  | arm _ _ _ _ | disarm _ _ | halt _ _ | clrprof _ _ => exact answers_atCtx rfl rfl
  | dbgRead _ _ _ | dbgWrite _ _ _ _ => exact answers_slot rfl rfl
  | resume _ _ | dbgStep _ _ _ => exact answers_atCtxGo rfl rfl
  | patch _ _ _ | recordMove _ | balanceEpoch _ | proxyForward _ _ | proxyAccept _ _ | proxyLoss _ _ | ctrl _ _
  | reserve _ _ | commit _ _ _ | rollback _ _ | gangStart _ _ | lsgo _ _ => exact answers_lt rfl rfl
  | llcOperation addr access => exact execLlcOperation_answers addr access s
  | flashRead controller ok => exact execFlashRead_answers controller ok s
  | traversalStep controller => exact execTraversalStep_answers controller s
  | batchRelease controller => exact execBatchRelease_answers controller s
  | kvfFetch controller place => exact execKvfFetch_answers controller place s
  | completionWrite controller => exact execCompletionWrite_answers controller s
  | commandAccept => exact execCommandAccept_answers s
  | appendCommit _ | darningPass _ | darnSwitch _ | versionReclaim _ => exact answers_onHandle rfl rfl
  | doorbell _ _ | windowFetch _ | gauntletExpiry _ | resetTimeout _ | partitionDrained _ | runEntry _ | linkEvent _ _ =>
    exact answers_ge rfl rfl ⟨_, rfl⟩
  | nopPacket _ | launch _ | ib _ | pktPred _ | loopPacket _ | waitmem _ | waitmemPoll _ | writemem _ | signal _
  | timestamp _ | fetchfence _ => exact answers_withPacket rfl rfl

/-- An answer from a state: no fault, and its memories stand in canonical form where the state's do. -/
def Keeps (s : State) : Out → Prop
  | .next t => s.memWf = true → t.memWf = true
  | .fault _ => False
  | .refused _ => True

theorem exec_keeps (i : Instr) (s : State) : Keeps s (exec i s) := by
  have hm := exec_memWf i (s := s)
  obtain ⟨-, t, e⟩ | ⟨-, -, e⟩ := exec_answers i s <;> rw [e] at hm ⊢
  · exact hm
  · exact trivial

theorem keeps_ite {s : State} {c : Prop} [Decidable c] {a b : Out} (ha : Keeps s a) (hb : Keeps s b) :
    Keeps s (if c then a else b) := by
  split
  · exact ha
  · exact hb

theorem Keeps.trans {s t : State} {o : Out} (hk : Keeps t o) (h : s.memWf = true → t.memWf = true) : Keeps s o := by
  cases o with
  | next u => exact fun hs => hk (h hs)
  | fault f => exact hk
  | refused r => exact trivial

end Sys2Proof.Machine
end

section
/-! SUPPORT. The moves that the agents make by themselves answer no fault, and keep every memory in canonical form. -/

namespace Sys2Proof.Machine
open Sys2Proof

/-- Whatever is offered, if anything is, is such an answer. -/
def Offers (s : State) (o : Option Out) : Prop := ∀ x, o = some x → Keeps s x

/-- What one or the other of two offers is, one of them is. -/
theorem eq_some_of_orElse {α : Type} {a : Option α} {b : Unit → Option α} {x : α} (h : a.orElse b = some x) :
    a = some x ∨ b () = some x := by
  cases a with
  | none => exact .inr h
  | some y => exact .inl h

section
variable {s : State}

theorem offers_none : Offers s none := fun _ e => nomatch e
theorem offers_some {o : Out} (h : Keeps s o) : Offers s (some o) := fun _ e => Option.some.inj e ▸ h
theorem offers_exec (i : Instr) : Offers s (some (exec i s)) := offers_some (exec_keeps i s)

theorem offers_offerIf {b : Bool} {f : State → Out} (h : Keeps s (f s)) : Offers s (offerIf b f s) := by
  unfold offerIf
  split
  · exact offers_some h
  · exact offers_none

theorem offers_orElse {a : Option Out} {b : Unit → Option Out} (ha : Offers s a) (hb : Offers s (b ())) :
    Offers s (a.orElse b) := fun x e => (eq_some_of_orElse e).elim (ha x) (hb x)

theorem offers_firstOf {α : Type} {l : List α} {f : α → Option Out} (h : ∀ a, Offers s (f a)) :
    Offers s (firstOf l f) :=
  fun x e => by
    obtain ⟨a, -, ha⟩ := List.exists_of_findSome?_eq_some e
    exact h a x ha

theorem offers_map {α : Type} {a : Option α} {f : α → Out} (h : ∀ x, Keeps s (f x)) : Offers s (a.map f) := by
  cases a with
  | none => exact offers_none
  | some x => exact offers_some (h x)

theorem offers_bind {α : Type} {a : Option α} {f : α → Option Out} (h : ∀ x, Offers s (f x)) : Offers s (a.bind f) := by
  cases a with
  | none => exact offers_none
  | some x => exact h x

theorem offers_elim {α : Type} {a : Option α} {b : Option Out} {f : α → Option Out} (hb : Offers s b)
    (hf : ∀ x, Offers s (f x)) : Offers s (a.elim b f) := by
  cases a with
  | none => exact hb
  | some x => exact hf x

theorem offers_ite {c : Prop} [Decidable c] {a b : Option Out} (ha : Offers s a) (hb : Offers s b) :
    Offers s (if c then a else b) := by
  split
  · exact ha
  · exact hb

theorem State.autoDie_offers (s : State) : Offers s s.autoDie :=
  offers_orElse (offers_firstOf fun r => offers_offerIf (exec_keeps (.guardGrant r.guard) s))
    (offers_offerIf (exec_keeps .tlbInvalidation s))

theorem State.acceptLink_keeps (s : State) (cluster : Nat) : Keeps s (s.acceptLink cluster) := by
  unfold State.acceptLink
  dsimp only
  split
  · exact id
  · next i rest _ =>
    have hk := exec_keeps i (s.clearLink cluster)
    split
    · next heq =>
      rw [heq] at hk
      exact hk
    · exact hk

theorem State.takeReply_memWf {s : State} (cluster : Nat) (h : s.memWf = true) :
    (s.takeReply cluster).memWf = true := by
  unfold State.takeReply
  dsimp only
  split <;> exact h

theorem State.autoLinks_offers (s : State) : Offers s s.autoLinks :=
  offers_orElse (offers_firstOf fun c => offers_offerIf (State.takeReply_memWf c))
    (offers_firstOf fun c => offers_offerIf (s.acceptLink_keeps c))

theorem sendTo_keeps (cluster : Nat) (i : Instr) (s : State) :
    Keeps s (sendTo cluster i s) := State.sendLink_memWf cluster i

theorem State.autoRetry_offers (s : State) (g : Gang) : Offers s (s.autoRetry g) :=
  offers_firstOf fun c => by
    split
    · exact offers_none
    · refine offers_bind fun x => offers_bind fun k => ?_
      split
      · exact offers_some fun h => State.answerReserve_memWf g.launch c h
      · exact offers_none

theorem State.autoReserve_offers (s : State) (g : Gang) : Offers s (s.autoReserve g) := by
  unfold State.autoReserve
  extract_lets open1 speaks
  split
  · exact offers_none
  · exact offers_map fun c => sendTo_keeps _ _ s

theorem State.autoGang_offers (s : State) (g : Gang) : Offers s (s.autoGang g) := by
  unfold State.autoGang
  split
  · exact offers_none
  · split
    · exact offers_elim (offers_offerIf (State.closeGang_memWf g.launch)) fun c => offers_some (sendTo_keeps _ _ s)
    · split
      · exact offers_map fun x => exec_keeps (.gangStart g.launch x.2.cluster) s
      · split
        · split
          · exact offers_map fun c => sendTo_keeps _ _ s
          · exact offers_none
        · split
          · exact offers_exec (.gangTimeout g.launch)
          · split
            · exact offers_orElse (s.autoRetry_offers g) (s.autoReserve_offers g)
            · exact offers_none

theorem State.autoTasks_offers (s : State) : Offers s s.autoTasks := by
  refine offers_orElse (offers_firstOf fun c => offers_offerIf (exec_keeps (.recordMove c) s)) ?_
  refine offers_orElse (offers_firstOf fun c => offers_offerIf (exec_keeps (.balanceEpoch c) s)) ?_
  refine offers_orElse (offers_firstOf fun n => ?_) ?_
  · split
    · exact offers_none
    · exact offers_orElse (offers_offerIf (exec_keeps (.placement n) s)) (offers_offerIf (exec_keeps (.preempt n) s))
  refine offers_orElse (offers_firstOf fun n => ?_) ?_
  · split
    · exact offers_firstOf fun m => offers_offerIf (exec_keeps (.contextRestore m) s)
    · exact offers_none
  exact offers_orElse (offers_firstOf fun g => s.autoGang_offers g) s.autoLinks_offers

theorem State.autoFill_offers (s : State) : Offers s s.autoFill :=
  offers_firstOf fun _ => offers_map fun l => exec_keeps (.blockCacheFill s.focus l) s

theorem State.autoProxy_offers (s : State) : Offers s s.autoProxy :=
  offers_firstOf fun x => offers_orElse (offers_offerIf (exec_keeps (.proxyForward x.part x.desc) s))
    (offers_offerIf (exec_keeps (.proxyLoss x.part x.desc) s))

theorem State.autoIndex_offers (s : State) (n : Nat) (x : Index) : Offers s (s.autoIndex n x) :=
  offers_orElse (offers_offerIf (exec_keeps (.appendCommit n) s)) <|
  offers_orElse (offers_offerIf (exec_keeps (.darnSwitch n) s)) <|
  offers_orElse (offers_offerIf (exec_keeps (.darningPass n) s)) (offers_offerIf (exec_keeps (.versionReclaim n) s))

theorem State.autoRetr_offers (s : State) : Offers s s.autoRetr := by
  unfold State.autoRetr
  dsimp only
  split
  · exact offers_none
  · refine offers_orElse (offers_offerIf (exec_keeps .commandAccept s)) ?_
    refine offers_orElse (offers_firstOf fun d => offers_exec (.traversalStep (pageCtl d.fpn))) ?_
    refine offers_orElse (offers_firstOf fun d => offers_exec (.flashRead (pageCtl d.fpn) true)) ?_
    refine offers_orElse (offers_firstOf fun b => offers_firstOf fun c => offers_offerIf (exec_keeps (.batchRelease c) s)) ?_
    refine offers_orElse (offers_firstOf fun c => offers_bind fun x => offers_offerIf (exec_keeps (.kvfFetch x.home 0) s)) ?_
    refine offers_orElse (offers_firstOf fun c => offers_offerIf (exec_keeps (.completionWrite (s.ctlOf c)) s)) ?_
    exact offers_firstOf fun p => s.autoIndex_offers p.1 p.2

theorem State.autoPacket_offers (s : State) (q : Nat) (x : Queue) : Offers s (s.autoPacket q x) := by
  unfold State.autoPacket
  split
  · exact offers_none
  · exact offers_exec (.windowFetch q)
  · split
    · exact offers_exec (.nopPacket q)
    split
    · split
      · split
        · exact offers_exec (.launch q)
        · exact offers_none
      · exact offers_offerIf (exec_keeps (.launch q) s)
    split
    · exact offers_exec (.ib q)
    split
    · exact offers_exec (.pktPred q)
    split
    · exact offers_exec (.loopPacket q)
    split
    · split
      · split
        · exact offers_exec (.waitmemPoll q)
        · exact offers_none
      · exact offers_exec (.waitmem q)
    split
    · exact offers_exec (.writemem q)
    split
    · exact offers_exec (.signal q)
    split
    · exact offers_exec (.timestamp q)
    · exact offers_exec (.fetchfence q)

theorem afterServing_keeps {o : Out} (q : Nat) (h : Keeps s o) : Keeps s (afterServing q o) := by
  cases o with
  | next t => exact fun hs => State.setHost_memWf (h hs) (State.host_mem_wf (h hs) :)
  | fault f => exact h
  | refused r => exact h

theorem State.autoQueue_offers (s : State) : Offers s s.autoQueue := by
  unfold State.autoQueue
  dsimp only
  split
  · exact offers_none
  · refine offers_firstOf fun p x e => ?_
    obtain ⟨o, ho, rfl⟩ := Option.map_eq_some_iff.1 e
    have hk := s.autoPacket_offers p.1 p.2 o ho
    split
    · exact hk
    · exact afterServing_keeps _ hk

theorem State.autoParts_offers (s : State) : Offers s s.autoParts := by
  refine offers_orElse (offers_firstOf fun p => offers_offerIf (exec_keeps (.gauntletExpiry p.1) s)) (offers_firstOf fun p => ?_)
  split
  · split
    · exact offers_exec (.resetTimeout p)
    · split
      · exact offers_offerIf (State.emptyPart_memWf p)
      · split
        · exact offers_some (State.finishReset_memWf p)
        · exact offers_none
  · exact offers_offerIf (exec_keeps (.partitionDrained p) s)
  · exact offers_none

theorem DebugEntry.run_keeps (e : DebugEntry) (s : State) : Keeps s (e.run s) := by
  refine keeps_ite (exec_keeps (.arm e.core e.slot e.w0 e.w1) s) <| keeps_ite (exec_keeps (.disarm e.core e.slot) s) <|
    keeps_ite (exec_keeps (.halt e.core e.slot) s) <| keeps_ite (exec_keeps (.resume e.core e.slot) s) <|
    keeps_ite (exec_keeps (.dbgStep e.core e.slot e.w0) s) <| keeps_ite (exec_keeps (.clrprof e.core e.slot) s) ?_
  split
  · exact id
  · exact keeps_ite (exec_keeps (.dbgRead e.core e.slot _) s) (exec_keeps (.dbgWrite e.core e.slot _ e.value) s)

theorem State.debugResult_memWf (s : State) {t : State} (p : Mgmt) (e : DebugEntry) (h : t.memWf = true) :
    (s.debugResult p e t).memWf = true := by
  unfold State.debugResult
  split
  · exact h
  · split
    · exact h
    · exact State.hostBytes_memWf _ _ h

/-- A command that leaves its status and its results changes no memory but the host's. -/
theorem State.turned_post_memWf {s : State} (status : Nat) (h : s.memWf = true) : (s.turned status).post.memWf = true :=
  MgmtRes.post_memWf h

theorem State.debugCommand_keeps (s : State) (p : Mgmt) : Keeps s (s.debugCommand p) := by
  unfold State.debugCommand
  extract_lets e
  have hk := e.run_keeps s
  split
  · exact State.turned_post_memWf _
  · split
    · next heq =>
      rw [heq] at hk
      exact fun h => State.turned_post_memWf okStatus (s.debugResult_memWf p e (hk h))
    · exact hk

theorem partCommand_offers (p : Mgmt) (s : State) : Offers s (partCommand p s) :=
  offers_ite (offers_exec (.partcmdDrain p)) <| offers_ite (offers_exec (.partcmdResume p)) <|
  offers_ite (offers_exec (.partcmdReset p)) <| offers_ite (offers_exec (.partcmdRelease p)) offers_none

theorem mgmtCommand_offers (p : Mgmt) (s : State) : Offers s (mgmtCommand p s) :=
  offers_ite (offers_exec (.partset p)) <|
  offers_ite (partCommand_offers p s) <|
  offers_ite (offers_exec (.rgnroot p)) <|
  offers_ite (offers_exec (.qcreate p)) <|
  offers_ite (offers_exec (.qdestroy p)) <|
  offers_ite (offers_exec (.qstart p)) <|
  offers_ite (offers_exec (.qabort p)) <|
  offers_ite (offers_exec (.winset p)) <|
  offers_ite (offers_exec (.winclr p)) <|
  offers_ite (offers_exec (.idxcreate p)) <|
  offers_ite (offers_exec (.idxresize p)) <|
  offers_ite (offers_exec (.idxdestroy p)) <|
  offers_ite (offers_exec (.objwrite { entry := p, ok := true })) <|
  offers_ite (offers_exec (.objdrop p)) <|
  offers_ite (offers_exec (.idxclear p)) <|
  offers_ite (offers_exec (.attest p)) <|
  offers_ite (offers_exec (.fwload { entry := p, ok := true })) <|
  offers_ite (offers_exec (.keyrevoke p)) <|
  offers_ite (offers_some (s.debugCommand_keeps p)) offers_none

theorem State.autoMgmt_offers (s : State) : Offers s s.autoMgmt := by
  unfold State.autoMgmt
  split
  · exact offers_none
  · dsimp only
    split
    · exact offers_none
    · exact offers_orElse (mgmtCommand_offers _ s) (offers_some (State.turned_post_memWf badArgument))

theorem State.autoLink_offers (s : State) : Offers s s.autoLink := by
  unfold State.autoLink
  split
  · exact offers_none
  · exact offers_offerIf (exec_keeps (.runEntry _) s)

theorem State.autoBeat_offers (s : State) : Offers s s.autoBeat :=
  offers_orElse (offers_offerIf (exec_keeps .heartbeat s)) <|
  offers_orElse (offers_offerIf (exec_keeps .mittenbeat s)) (offers_offerIf (exec_keeps .mirrorUpdate s))

theorem State.autoMove_offers (s : State) : Offers s s.autoMove :=
  offers_orElse s.autoParts_offers <| offers_orElse s.autoDie_offers <| offers_orElse s.autoTasks_offers <|
  offers_orElse s.autoFill_offers <| offers_orElse s.autoProxy_offers <| offers_orElse s.autoRetr_offers <|
  offers_orElse s.autoMgmt_offers <| offers_orElse s.autoQueue_offers <| offers_orElse s.autoLink_offers s.autoBeat_offers
end

end Sys2Proof.Machine
end

section
/-! SUPPORT. One step of a core and of the machine: what it keeps, and where alone it faults (R335). -/

namespace Sys2Proof.Machine
open Sys2Proof

@[simp] theorem State.raiseUnknown_memWf {s : State} (st : Nat) (t : Trap) (h : s.memWf = true) :
    (s.raiseUnknown st t).memWf = true := State.raise_memWf st s.unknownWord t none h
@[simp] theorem State.skipOver_memWf {s : State} (st len : Nat) (h : s.memWf = true) :
    (s.skipOver st len).memWf = true :=
  profileHook_memWf _ _ (State.setCtx_memWf _ h)

theorem State.meet_keeps (s : State) (st : Nat) (bs : List Byte) : Keeps s (s.meet st bs) := by
  unfold State.meet
  split
  · exact State.raise_memWf _ _ _ _
  · exact State.raiseUnknown_memWf _ _
  · split
    · exact State.raise_memWf _ _ _ _
    · split
      · exact State.skipOver_memWf _ _
      · split
        · exact State.raise_memWf _ _ _ _
        · exact keeps_ite (State.passTurn_memWf _) (exec_keeps _ s)

theorem State.streamTurn_keeps (s : State) (st : Nat) : Keeps s (s.streamTurn st) := by
  unfold State.streamTurn
  split
  · exact State.passTurn_memWf _
  · split <;> rename_i s1 heq <;>
      have h1 : s.memWf = true → s1.memWf = true := fun h => memWf_of_eq_pair (State.fetch_memWf _ h) heq
    · exact fun h => State.raiseUnknown_memWf _ _ (h1 h)
    · exact (s1.meet_keeps st _).trans h1

@[simp] theorem State.engineMove_memWf {s : State} (h : s.memWf = true) : s.engineMove.memWf = true := by
  unfold State.engineMove
  split
  · exact State.finishRecord_memWf h
  · split
    · exact State.performNext_memWf h
    · exact State.startRecord_memWf h

theorem State.brkAhead_memWf {s t : State} (h : s.memWf = true) (e : s.brkAhead = some t) : t.memWf = true := by
  unfold State.brkAhead at e
  dsimp only at e
  split at e
  · nomatch e
  · split at e
    · nomatch e
    · exact Option.some.inj e ▸ State.setCtx_memWf _ h

theorem State.openCycle_memWf {s t : State} (h : s.memWf = true) (e : s.openCycle = some t) : t.memWf = true := by
  unfold State.openCycle at e
  split at e
  · exact Option.some.inj e ▸ State.complete_memWf h
  · split at e
    · exact Option.some.inj e ▸ State.passBarrier_memWf h
    · split at e
      · exact Option.some.inj e ▸ State.eret_memWf h
      · nomatch e

@[simp] theorem State.stopOr_memWf (s : State) {t : State} (still : State → Bool) (h : t.memWf = true) :
    (s.stopOr t still).memWf = true := by
  unfold State.stopOr
  split
  · exact State.rotate_memWf h
  · exact h

@[simp] theorem State.landCycleStart_memWf {s : State} (h : s.memWf = true) : s.landCycleStart.memWf = true := by
  have h1 := State.landNow_memWf h
  unfold State.landCycleStart
  dsimp only
  split
  · exact State.landDueNow_memWf (State.retryWaits_memWf h1)
  · exact h1

@[simp] theorem State.freezeCycle_memWf {s : State} (h : s.memWf = true) : s.freezeCycle.memWf = true :=
  State.frozen_memWf (State.retryWaits_memWf (State.setCtx_memWf _ h))

@[simp] theorem State.withRecord_memWf {s : State} (h : s.memWf = true) : s.withRecord.memWf = true := by
  unfold State.withRecord
  split
  · exact State.setCtx_memWf _ h
  · exact h

@[simp] theorem State.stopOrFreeze_memWf {s : State} (h : s.memWf = true) : s.stopOrFreeze.memWf = true := by
  unfold State.stopOrFreeze
  extract_lets t
  have ht : t.memWf = true := by
    dsimp only [t]
    split
    · exact State.saveContext_memWf h
    · split
      · exact State.debugStop_memWf h
      · exact h
  split
  · exact State.freezeCycle_memWf ht
  · exact ht

@[simp] theorem State.cycleStart_memWf {s : State} (h : s.memWf = true) : s.cycleStart.memWf = true := by
  have h1 := State.landCycleStart_memWf h
  unfold State.cycleStart
  split
  · exact State.stopOr_memWf _ _ (State.takeTrap_memWf (State.withRecord_memWf h))
  · split
    · exact State.killContext_memWf h
    · extract_lets s1
      change s1.memWf = true at h1
      clear_value s1
      split
      · exact State.stopOrFreeze_memWf h
      · split
        · exact h1
        · split
          · exact State.withRecord_memWf h1
          · split
            · exact State.fireTimer_memWf h1
            · split
              · exact State.stopOr_memWf _ _ (State.saveContext_memWf h1)
              · split
                · exact State.stopOr_memWf _ _ (State.debugStop_memWf h1)
                · split
                  · next heq =>
                    obtain ho | hb := eq_some_of_orElse heq
                    · exact State.openCycle_memWf h1 ho
                    · exact State.brkAhead_memWf h1 hb
                  · have h2 := State.engineMove_memWf h1
                    split
                    · exact State.setHere_memWf h2 (State.here_spad_wf h2)
                    · exact h2

@[simp] theorem State.cycleEnd_memWf {s : State} (h : s.memWf = true) : s.cycleEnd.memWf = true := by
  have h1 := State.setCtx_memWf { s.endProfile.ctx with cycle := s.ctx.cycle + 1 } (State.endProfile_memWf h)
  exact State.rotate_memWf (State.setHere_memWf h1 (State.here_spad_wf h1))

/-- A step of a core faults at a device register that the spec does not describe, and nowhere else (R335). -/
theorem coreStep_keeps_or_faults (n : Nat) (s : State) : Keeps s (coreStep n s) ∨
    ∃ pa, n < 128 ∧ (s.runCtx n).unknownDevice = some pa ∧ coreStep n s = .fault (.deviceUnspecified pa) := by
  have hf : s.memWf = true → ({ s with focus := n } : State).memWf = true := id
  unfold coreStep
  split
  · exact .inl trivial
  · next hn =>
    dsimp only
    split
    · exact .inl fun h => State.rotate_memWf (hf h)
    · split
      · next pa hpa => exact .inr ⟨pa, Nat.not_le.1 hn, hpa, rfl⟩
      · refine .inl ?_
        split
        · exact fun h => State.cycleStart_memWf (hf h)
        · split
          · exact fun h => State.cycleEnd_memWf (hf h)
          · exact (State.streamTurn_keeps _ _).trans hf

/-! One step of the machine -/

theorem step_keeps_or_faults (s : State) : Keeps s (step s) ∨
    ∃ n pa, n < 128 ∧ (s.runCtx n).unknownDevice = some pa ∧ step s = .fault (.deviceUnspecified pa) := by
  unfold step
  split
  · next m rest _ =>
    cases m with
    | event i => exact .inl (exec_keeps i { s with agenda := rest })
    | core n =>
      obtain hk | ⟨pa, hn, hpa, e⟩ := coreStep_keeps_or_faults n { s with agenda := rest }
      · exact .inl hk
      · exact .inr ⟨n, pa, hn, hpa, e⟩
  · split
    · next o ho => exact .inl (s.autoMove_offers o ho)
    · obtain hk | ⟨pa, hn, hpa, e⟩ := coreStep_keeps_or_faults s.focus s
      · exact .inl hk
      · exact .inr ⟨s.focus, pa, hn, hpa, e⟩

end Sys2Proof.Machine
end

section
/-! CERTIFICATES. The obligations about the scope of the model: what every step keeps, and that every instruction answers. -/

open Sys2Proof Sys2Proof.Machine

/-- Settles O47: each kind of step keeps the canonical form, since every memory is written by `Mem.store` and `Mem.writeBits` alone,
or set up anew as a reset leaves it. -/
theorem stepKeepsMemories : Obligations.StepKeepsMemories := by
  unfold Obligations.StepKeepsMemories
  intro s t h e
  obtain hk | ⟨n, pa, -, -, hf⟩ := step_keeps_or_faults s
  · rw [e] at hk
    exact hk h
  · rw [e] at hf
    nomatch hf

/-- Settles O48: `exec` answers by the places that an instruction names, no instruction faults, and a step of a core meets a fault at
an unknown device register alone. -/
theorem everyInstructionAnswers : Obligations.EveryInstructionAnswers := by
  unfold Obligations.EveryInstructionAnswers
  refine ⟨fun i s hi => ?_, fun i s _ hp => ?_, fun s f e => ?_⟩
  · obtain ⟨-, ht⟩ | ⟨hp, hc, -⟩ := exec_answers i s
    · exact ht
    · rw [hc, hp] at hi
      simp at hi
  · obtain ⟨hp', -⟩ | ⟨-, -, ho⟩ := exec_answers i s
    · rw [hp] at hp'
      nomatch hp'
    · exact ho
  · obtain hk | ⟨n, pa, hn, hpa, hf⟩ := step_keeps_or_faults s
    · rw [e] at hk
      exact hk.elim
    · rw [e] at hf
      exact ⟨n, pa, hn, hpa, Host.Outcome.fault.inj hf⟩

end
